-- ==== Sys2Proof/Word.lean ====
section
/-! DEFINITION. The words of the Nolavasy Z4 and the names of the four engine streams (R5, R17, R25). -/

namespace Sys2Proof

/-- One byte (R5). -/
abbrev Byte := BitVec 8
/-- One instruction word (R25). -/
abbrev Word := BitVec 32
/-- One 64-bit register value (R169). -/
abbrev Dword := BitVec 64

/-- The four engine streams of a core: sequencer, transfer, matrix, vector (R17). -/
inductive Stream where
  | s | x | m | v
  deriving DecidableEq, Repr

/-- The stream before it on the ring S, X, M, V (R18). -/
def Stream.left : Stream → Stream
  | .s => .v | .x => .s | .m => .x | .v => .m

/-- The stream after it on the ring S, X, M, V (R18). -/
def Stream.right : Stream → Stream
  | .s => .x | .x => .m | .m => .v | .v => .s

/-- The stream codes of trap records and of IPREF: 0 S, 1 X, 2 M, 3 V (R35, R398). -/
def Stream.code : Stream → Nat
  | .s => 0 | .x => 1 | .m => 2 | .v => 3

end Sys2Proof
end

