-- ==== Sys2Proof/Config.lean ====
section
/-! DEFINITION. What the spec leaves to the implementation or leaves undefined: free values, which have no body, so that
nothing can be proved of them, and secrets and formats that the spec names and does not give. -/

namespace Sys2Proof.Config

/-- A free value of any width: the `n`-th value the machine draws where the spec calls a value undefined, random or
unspecified. `n` is State.free, which every draw advances (assumption log 3). -/
opaque freeBits : Nat → (w : Nat) → BitVec w

/-- The TBL that R228 reports for a Frit entry, given as one number, whose chunk 1 would start past the end of the coded
bytes, so that no header is read (assumption log 3). -/
opaque unreadTable : Nat → BitVec 3

/-- Where the firmware image of a die starts (R429 names no address; assumption log 4). -/
opaque firmwareEntry : Nat → Dword

/-- The 64-bit digest of a reshard's operands: its source, maps, MESH and records, as numbers (R321). -/
opaque digest : List Nat → Dword

/-- The unique device secret that a die's PUF yields (R387). -/
opaque uds : Nat → BitVec 256

/-- Priotte's public keys in the boot ROM: the configuration key, which signs records, and the root of the identity
certificates (R384, R388). -/
opaque recordKey : BitVec 512
opaque rootKey : BitVec 512

/-- The directional key of a node's port after a number of exchanges: HKDF over a secret of ephemeral keys, which no one
sees (R384). -/
opaque linkKey : Nat → Nat → Nat → BitVec 256

/-- Whether a firmware image's signature verifies under the key that the record names (R389). -/
opaque imageSigned : List Byte → List Byte → Bool

/-- The security version number of a firmware image (R389). -/
opaque imageSvn : List Byte → BitVec 32

/-- The length that a firmware image, from its first bytes, says it has (R425 gives FWUPDATE no length). -/
opaque imageLength : List Byte → Nat

/-- The factory-retired units of a configuration record, whose 32 bytes R388 does not lay out: cores, benches,
channels of a die and ports of a die (assumption log 25). -/
opaque factoryCore : List Byte → Nat → Bool
opaque factoryBench : List Byte → Nat → Bool
opaque factoryChannel : List Byte → Nat → Nat → Bool
opaque factoryLink : List Byte → Nat → Nat → Bool

/-- Whether the identity certificate of the node cabled to a port verifies, and whether a link policy admits it (R384). -/
opaque peerCertified : Nat → Bool
opaque peerAllowed : List Byte → Nat → Bool

end Sys2Proof.Config
end

