-- ==== Sys2Proof/Syntax.lean ====
section
/-! DEFINITION. The steps of the Nolavasy Z4: one constructor for each row of spec/opcode_table.json.
The first 201 are the instruction words of the four streams (R33 to R48), each field of the word an argument of the
width the word gives it; the other 90 are the events of the device, each named by the unit it happens at. -/

namespace Sys2Proof

/-- One constructor per row of the table: S words, V words, M words, X words, then the events. -/
inductive Instr where
  /-- ADD (R173): S writes gd := gs1 + gs2 modulo 2^64. -/
  | add (gd : BitVec 5) (gs1 : BitVec 5) (gs2 : BitVec 5)
  /-- SUB (R173): S writes gd := gs1 - gs2 modulo 2^64. -/
  | sub (gd : BitVec 5) (gs1 : BitVec 5) (gs2 : BitVec 5)
  /-- MUL (R173): S writes the low 64 bits of gs1 × gs2. -/
  | mul (gd : BitVec 5) (gs1 : BitVec 5) (gs2 : BitVec 5)
  /-- MULH (R173): S writes the signed high 64 bits of gs1 × gs2. -/
  | mulh (gd : BitVec 5) (gs1 : BitVec 5) (gs2 : BitVec 5)
  /-- MULHU (R173): S writes the unsigned high 64 bits of gs1 × gs2. -/
  | mulhu (gd : BitVec 5) (gs1 : BitVec 5) (gs2 : BitVec 5)
  /-- MADD (R173): S writes gd := gd + gs1 × gs2 modulo 2^64. -/
  | madd (gd : BitVec 5) (gs1 : BitVec 5) (gs2 : BitVec 5)
  /-- DIV (R175): S writes the signed quotient truncated toward zero, with defined results for zero and overflow. -/
  | div (gd : BitVec 5) (gs1 : BitVec 5) (gs2 : BitVec 5)
  /-- DIVU (R175): S writes the unsigned quotient, all ones on division by zero. -/
  | divu (gd : BitVec 5) (gs1 : BitVec 5) (gs2 : BitVec 5)
  /-- REM (R175): S writes the signed remainder with the sign of the dividend. -/
  | rem (gd : BitVec 5) (gs1 : BitVec 5) (gs2 : BitVec 5)
  /-- REMU (R175): S writes the unsigned remainder, the dividend on division by zero. -/
  | remu (gd : BitVec 5) (gs1 : BitVec 5) (gs2 : BitVec 5)
  /-- AND (R173): S writes gs1 AND gs2. -/
  | and (gd : BitVec 5) (gs1 : BitVec 5) (gs2 : BitVec 5)
  /-- OR (R173): S writes gs1 OR gs2. -/
  | or (gd : BitVec 5) (gs1 : BitVec 5) (gs2 : BitVec 5)
  /-- XOR (R173): S writes gs1 XOR gs2. -/
  | xor (gd : BitVec 5) (gs1 : BitVec 5) (gs2 : BitVec 5)
  /-- ANDN (R173): S writes gs1 AND NOT gs2. -/
  | andn (gd : BitVec 5) (gs1 : BitVec 5) (gs2 : BitVec 5)
  /-- SHL (R173): S shifts gs1 left by gs2[5:0]. -/
  | shl (gd : BitVec 5) (gs1 : BitVec 5) (gs2 : BitVec 5)
  /-- SHR (R173): S shifts gs1 right logically by gs2[5:0]. -/
  | shr (gd : BitVec 5) (gs1 : BitVec 5) (gs2 : BitVec 5)
  /-- SAR (R173): S shifts gs1 right arithmetically by gs2[5:0]. -/
  | sar (gd : BitVec 5) (gs1 : BitVec 5) (gs2 : BitVec 5)
  /-- SLT (R173): S writes 1 if gs1 < gs2 signed, else 0. -/
  | slt (gd : BitVec 5) (gs1 : BitVec 5) (gs2 : BitVec 5)
  /-- SLTU (R173): S writes 1 if gs1 < gs2 unsigned, else 0. -/
  | sltu (gd : BitVec 5) (gs1 : BitVec 5) (gs2 : BitVec 5)
  /-- MIN (R173): S writes the signed minimum. -/
  | min (gd : BitVec 5) (gs1 : BitVec 5) (gs2 : BitVec 5)
  /-- MAX (R173): S writes the signed maximum. -/
  | max (gd : BitVec 5) (gs1 : BitVec 5) (gs2 : BitVec 5)
  /-- MINU (R173): S writes the unsigned minimum. -/
  | minu (gd : BitVec 5) (gs1 : BitVec 5) (gs2 : BitVec 5)
  /-- MAXU (R173): S writes the unsigned maximum. -/
  | maxu (gd : BitVec 5) (gs1 : BitVec 5) (gs2 : BitVec 5)
  /-- CLZ (R176): S writes the count of leading zero bits of gs1. -/
  | clz (gd : BitVec 5) (gs1 : BitVec 5)
  /-- POPC (R176): S writes the count of one bits of gs1. -/
  | popc (gd : BitVec 5) (gs1 : BitVec 5)
  /-- SEL (R177): S writes gs1 if gc is non-zero, else gs2. -/
  | sel (gd : BitVec 5) (gs1 : BitVec 5) (gs2 : BitVec 5) (gc : BitVec 5)
  /-- ADDI (R178): S adds the sign-extended imm15 to gs1. -/
  | addi (gd : BitVec 5) (gs1 : BitVec 5) (imm : BitVec 15)
  /-- ANDI (R178): S ANDs gs1 with the zero-extended imm15. -/
  | andi (gd : BitVec 5) (gs1 : BitVec 5) (imm : BitVec 15)
  /-- ORI (R178): S ORs gs1 with the zero-extended imm15. -/
  | ori (gd : BitVec 5) (gs1 : BitVec 5) (imm : BitVec 15)
  /-- XORI (R178): S XORs gs1 with the zero-extended imm15. -/
  | xori (gd : BitVec 5) (gs1 : BitVec 5) (imm : BitVec 15)
  /-- SLTI (R178): S writes 1 if gs1 is below the signed immediate. -/
  | slti (gd : BitVec 5) (gs1 : BitVec 5) (imm : BitVec 15)
  /-- SLTIU (R178): S writes 1 if gs1 is below the sign-extended immediate read unsigned. -/
  | sltiu (gd : BitVec 5) (gs1 : BitVec 5) (imm : BitVec 15)
  /-- SHLI (R178): S shifts gs1 left by an immediate count. -/
  | shli (gd : BitVec 5) (gs1 : BitVec 5) (n : BitVec 6)
  /-- SHRI (R178): S shifts gs1 right logically by an immediate count. -/
  | shri (gd : BitVec 5) (gs1 : BitVec 5) (n : BitVec 6)
  /-- SARI (R178): S shifts gs1 right arithmetically by an immediate count. -/
  | sari (gd : BitVec 5) (gs1 : BitVec 5) (n : BitVec 6)
  /-- BFX (R179): S extracts a zero-extended bit field of gs1. -/
  | bfx (gd : BitVec 5) (gs1 : BitVec 5) (lsb : BitVec 6) (width : BitVec 7)
  /-- BFI (R179): S inserts the low bits of gs1 into a field of gd. -/
  | bfi (gd : BitVec 5) (gs1 : BitVec 5) (lsb : BitVec 6) (width : BitVec 7)
  /-- LUI (R180): S writes the sign-extended imm20 shifted left by 12. -/
  | lui (gd : BitVec 5) (imm : BitVec 20)
  /-- ADDPC (R180): S writes PC plus the sign-extended imm20 shifted left by 12. -/
  | addpc (gd : BitVec 5) (imm : BitVec 20)
  /-- LDR (R290): S loads 8 bytes at a PC-relative doubleword address. -/
  | ldr (gd : BitVec 5) (imm : BitVec 20)
  /-- BCC (R95): S branches when the condition on two g registers holds. -/
  | bcc (cond : BitVec 4) (gs1 : BitVec 5) (gs2 : BitVec 5) (off : BitVec 11)
  /-- J (R95): S jumps to a PC-relative target. -/
  | j (off : BitVec 25)
  /-- JL (R95): S writes PC + 4 to g1 and calls a PC-relative target. -/
  | jl (off : BitVec 25)
  /-- JR (R95): S jumps to gs1 + imm × 4, faulting on a misaligned target. -/
  | jr (gs1 : BitVec 5) (imm : BitVec 15)
  /-- JLR (R95): S links to gd and calls gs1 + imm × 4. -/
  | jlr (gd : BitVec 5) (gs1 : BitVec 5) (imm : BitVec 15)
  /-- LOOP (R97): S starts a hardware loop counted by a g register. -/
  | loop (gs1 : BitVec 5) (len : BitVec 15)
  /-- LOOPI (R97): S starts a hardware loop with an immediate count. -/
  | loopi (count : BitVec 10) (len : BitVec 10)
  /-- REND (R100): S arrives at its rendezvous and holds there, emptying its loop stack. -/
  | rend
  /-- NOP (R101): S does nothing but advance. -/
  | nop
  /-- YIELD (R101): S acts as NOP and may lower its port priority. -/
  | yield
  /-- KREAD (R109): S reads the kiln counter into gd. -/
  | kread (gd : BitVec 5)
  /-- PWIN (R110): S reads the power-window description of its bench at a kiln value. -/
  | pwin (gd : BitVec 5) (gs1 : BitVec 5)
  /-- TKWAIT (R102): S takes a token from the named neighbour FIFOs, holding while empty. -/
  | tkwait (left : BitVec 1) (right : BitVec 1)
  /-- TKPOST (R102): S posts a token towards the named neighbours after retirement. -/
  | tkpost (left : BitVec 1) (right : BitVec 1)
  /-- BAR_INIT (R105): S sets a named barrier's expected count and clears its arrivals. -/
  | barInit (gs1 : BitVec 5) (gs2 : BitVec 5)
  /-- BAR_ARR (R105): S arrives at a named barrier, completing the phase when arrivals reach the count. -/
  | barArr (gs1 : BitVec 5)
  /-- BAR_ARR_DROP (R105): S arrives and leaves a named barrier, lowering its expected count. -/
  | barArrDrop (gs1 : BitVec 5)
  /-- BAR_ARR_JOIN (R105): S adds a participant to a named barrier. -/
  | barArrJoin (gs1 : BitVec 5)
  /-- BAR_WAIT (R105): S waits until its own barrier completes a phase not yet consumed. -/
  | barWait (gs1 : BitVec 5)
  /-- MONARM (R108): S arms its monitor on a 128-byte line. -/
  | monarm (gbase : BitVec 5) (off : BitVec 10)
  /-- MWAIT (R108): S reads 8 bytes with acquire and waits for a monitor trigger if the value equals the comparand. -/
  | mwait (gd : BitVec 5) (gs1 : BitVec 5) (gs2 : BitVec 5)
  /-- MWAIT_W (R108): S performs MWAIT on 4 bytes. -/
  | mwaitW (gd : BitVec 5) (gs1 : BitVec 5) (gs2 : BitVec 5)
  /-- FENCE (R277): S holds until earlier accesses of the before-set are performed at the scope. -/
  | fence (scope : BitVec 3) (before : BitVec 4) (after : BitVec 4)
  /-- FENCE_HB (R279): S orders all of its die's traffic before the next kiln tick boundary ahead of the core's later accesses. -/
  | fenceHb
  /-- FENCE_STK (R278): S orders its CR-page accesses against stack-side unit accesses. -/
  | fenceStk
  /-- LD (R287): S loads and sign-extends 1 to 8 bytes, plain, acquire or SC. -/
  | ld (gd : BitVec 5) (gbase : BitVec 5) (size : BitVec 3) (order : BitVec 2) (off : BitVec 10)
  /-- LDU (R287): S loads and zero-extends 1 to 4 bytes. -/
  | ldu (gd : BitVec 5) (gbase : BitVec 5) (size : BitVec 3) (order : BitVec 2) (off : BitVec 10)
  /-- ST (R287): S stores 1 to 8 bytes, plain, release or SC. -/
  | st (g : BitVec 5) (gbase : BitVec 5) (size : BitVec 3) (order : BitVec 2) (off : BitVec 10)
  /-- LDQ (R289): S reserves a load-queue entry and fills it with 256 bytes of memory. -/
  | ldq (q : BitVec 2) (gbase : BitVec 5) (order : BitVec 1) (off : BitVec 10)
  /-- STQ (R289): S stores the head entry of a store queue to memory and pops it. -/
  | stq (q : BitVec 1) (gbase : BitVec 5) (order : BitVec 1) (off : BitVec 10)
  /-- PREF (R291): S hints a data line into L1 or a seal tile into L2. -/
  | pref (level : BitVec 1) (gbase : BitVec 5) (off : BitVec 10)
  /-- IPREF (R291): S hints two instruction lines into a named stream's cache. -/
  | ipref (target : BitVec 2) (gbase : BitVec 5) (off : BitVec 10)
  /-- CLEAN (R292): S writes back a dirty line of its own L1 and keeps it. -/
  | clean (gbase : BitVec 5) (off : BitVec 10)
  /-- INVL (R292): S writes back if dirty and invalidates a line of its own L1. -/
  | invl (gbase : BitVec 5) (off : BitVec 10)
  /-- AMO_ADD (R294): S atomically adds to memory and returns the old value. -/
  | amoAdd (gd : BitVec 5) (gs1 : BitVec 5) (gs2 : BitVec 5) (size : BitVec 1) (order : BitVec 3)
  /-- AMO_AND (R294): S atomically ANDs into memory and returns the old value. -/
  | amoAnd (gd : BitVec 5) (gs1 : BitVec 5) (gs2 : BitVec 5) (size : BitVec 1) (order : BitVec 3)
  /-- AMO_OR (R294): S atomically ORs into memory and returns the old value. -/
  | amoOr (gd : BitVec 5) (gs1 : BitVec 5) (gs2 : BitVec 5) (size : BitVec 1) (order : BitVec 3)
  /-- AMO_XOR (R294): S atomically XORs into memory and returns the old value. -/
  | amoXor (gd : BitVec 5) (gs1 : BitVec 5) (gs2 : BitVec 5) (size : BitVec 1) (order : BitVec 3)
  /-- AMO_MIN (R294): S atomically stores the signed minimum and returns the old value. -/
  | amoMin (gd : BitVec 5) (gs1 : BitVec 5) (gs2 : BitVec 5) (size : BitVec 1) (order : BitVec 3)
  /-- AMO_MAX (R294): S atomically stores the signed maximum and returns the old value. -/
  | amoMax (gd : BitVec 5) (gs1 : BitVec 5) (gs2 : BitVec 5) (size : BitVec 1) (order : BitVec 3)
  /-- AMO_MINU (R294): S atomically stores the unsigned minimum and returns the old value. -/
  | amoMinu (gd : BitVec 5) (gs1 : BitVec 5) (gs2 : BitVec 5) (size : BitVec 1) (order : BitVec 3)
  /-- AMO_MAXU (R294): S atomically stores the unsigned maximum and returns the old value. -/
  | amoMaxu (gd : BitVec 5) (gs1 : BitVec 5) (gs2 : BitVec 5) (size : BitVec 1) (order : BitVec 3)
  /-- AMO_SWAP (R294): S atomically swaps a value into memory and returns the old value. -/
  | amoSwap (gd : BitVec 5) (gs1 : BitVec 5) (gs2 : BitVec 5) (size : BitVec 1) (order : BitVec 3)
  /-- AMO_FADD (R294): S atomically adds an FP32 value to memory and returns the old value. -/
  | amoFadd (gd : BitVec 5) (gs1 : BitVec 5) (gs2 : BitVec 5) (order : BitVec 3)
  /-- CAS (R295): S compares memory with gd and swaps in gs2 on equality, returning the old value. -/
  | cas (gd : BitVec 5) (gs1 : BitVec 5) (gs2 : BitVec 5) (size : BitVec 1) (order : BitVec 3)
  /-- QPUT_V (R298): S writes a 64-bit value to the S→V scalar queue. -/
  | qputV (gs1 : BitVec 5)
  /-- QPUT_M (R298): S writes a 64-bit value to the S→M scalar queue. -/
  | qputM (gs1 : BitVec 5)
  /-- QPUT_X (R298): S writes a 64-bit value to the S→X scalar queue. -/
  | qputX (gs1 : BitVec 5)
  /-- QGET (R298): S pops the V→S scalar queue into gd. -/
  | qget (gd : BitVec 5)
  /-- RNGSET (R300): S writes a ring's base, size, head and tail together once the ring is idle. -/
  | rngset (ga : BitVec 5) (gb : BitVec 5) (ring : BitVec 4)
  /-- RNGSTAT (R300): S reads a ring's FULL flag, complete bytes and room. -/
  | rngstat (ga : BitVec 5) (ring : BitVec 4)
  /-- SDSET (R300): S writes one word of a stream descriptor once the ring is idle. -/
  | sdset (ga : BitVec 5) (w : BitVec 2) (ring : BitVec 4)
  /-- SDGET (R300): S reads one word of a stream descriptor. -/
  | sdget (ga : BitVec 5) (w : BitVec 2) (ring : BitVec 4)
  /-- EPUSH (R303): S appends a non-final command word to an engine port's command FIFO. -/
  | epush (ga : BitVec 5) (port : BitVec 3)
  /-- EPUSH_END (R303): S appends the last word of a command, making it available to the engine as a release. -/
  | epushEnd (ga : BitVec 5) (port : BitVec 3)
  /-- EPOP (R304): S pops a result or arrival element from a port, acquiring it. -/
  | epop (ga : BitVec 5) (port : BitVec 3)
  /-- EPOLL (R304): S reads a port's head element without popping it. -/
  | epoll (ga : BitVec 5) (port : BitVec 3)
  /-- ESTAT (R304): S reads a port's FIFO status. -/
  | estat (ga : BitVec 5) (port : BitVec 3)
  /-- TLOC_R (R320): S resolves a tensor index to a readable copy's address and node. -/
  | tlocR (ga : BitVec 5) (gb : BitVec 5) (mp : BitVec 4)
  /-- TLOC_D (R320): S resolves a tensor index to the owner's address and node. -/
  | tlocD (ga : BitVec 5) (gb : BitVec 5) (mp : BitVec 4)
  /-- TSMAP (R315): S writes a sharding map register of its own core. -/
  | tsmap (ga : BitVec 5) (gb : BitVec 5) (mp : BitVec 4)
  /-- TMESH (R313): S writes its core's MESH register. -/
  | tmesh (ga : BitVec 5)
  /-- RESHARD (R323): S checks and pushes a collective reshard command to ep1. -/
  | reshard (ga : BitVec 5) (gb : BitVec 5) (mps : BitVec 4) (mpd : BitVec 4)
  /-- RSTAT (R329): S reads the progress of the latest reshard to a destination. -/
  | rstat (ga : BitVec 5) (gb : BitVec 5)
  /-- SMV (R309): S checks, reads its vector and hands a matrix-vector product to a stack-side unit. -/
  | smv (ga : BitVec 5) (gb : BitVec 5) (ring : BitVec 4)
  /-- SYSR (R404): S reads a system register. -/
  | sysr (ga : BitVec 5) (num : BitVec 12)
  /-- SYSW (R404): S writes a system register field by field. -/
  | sysw (ga : BitVec 5) (num : BitVec 12)
  /-- ECALL (R404): S retires and raises a class 0x13 trap to the next level. -/
  | ecall (n : BitVec 15)
  /-- TRAP (R404): S raises a class 0x14 trap at the word without issuing it. -/
  | trap (n : BitVec 15)
  /-- TRET (R399): S leaves a handler, checking and resuming the cut or abandoning the job. -/
  | tret
  /-- TLBINV_VA (R360): S marks stage-1 and combined entries of one page for removal across the node set. -/
  | tlbinvVa (ga : BitVec 5) (gb : BitVec 5)
  /-- TLBINV_PASID (R360): S marks all stage-1 and combined entries of a PASID for removal. -/
  | tlbinvPasid (ga : BitVec 5) (gb : BitVec 5)
  /-- TLBINV_IPA (R360): S marks stage-2 entries of an IPA page and derived entries for removal. -/
  | tlbinvIpa (ga : BitVec 5) (gb : BitVec 5)
  /-- TLBINV_PART (R360): S marks every TLB entry of a partition for removal. -/
  | tlbinvPart (ga : BitVec 5) (gb : BitVec 5)
  /-- TLBSYNC (R361): S holds until earlier invalidations and stores have taken effect across the node set. -/
  | tlbsync
  /-- ICINV (R405): S invalidates one instruction-cache line in the named streams' caches. -/
  | icinv (ga : BitVec 5) (mask : BitVec 4)
  /-- ICINV_ALL (R405): S empties the named streams' instruction caches. -/
  | icinvAll (ga : BitVec 5) (mask : BitVec 4)
  /-- HALT (R404): S waits for the core's accesses and commands, then takes the core OFFLINE. -/
  | halt
  /-- VADD (R189): V adds float lanes with one rounding. -/
  | vadd (sync : BitVec 4) (vd : BitVec 5) (vs1 : BitVec 5) (vs2 : BitVec 5) (rnd : BitVec 2) (ovf : BitVec 1) (sopd : BitVec 3)
  /-- VSUB (R189): V subtracts float lanes with one rounding. -/
  | vsub (sync : BitVec 4) (vd : BitVec 5) (vs1 : BitVec 5) (vs2 : BitVec 5) (rnd : BitVec 2) (ovf : BitVec 1) (sopd : BitVec 3)
  /-- VMUL (R189): V multiplies float lanes with one rounding. -/
  | vmul (sync : BitVec 4) (vd : BitVec 5) (vs1 : BitVec 5) (vs2 : BitVec 5) (rnd : BitVec 2) (ovf : BitVec 1) (sopd : BitVec 3)
  /-- VFMA (R189): V computes a × b + vd per lane with one rounding. -/
  | vfma (sync : BitVec 4) (vd : BitVec 5) (vs1 : BitVec 5) (vs2 : BitVec 5) (rnd : BitVec 2) (ovf : BitVec 1) (sopd : BitVec 3)
  /-- VFMS (R189): V computes vd − a × b per lane with one rounding. -/
  | vfms (sync : BitVec 4) (vd : BitVec 5) (vs1 : BitVec 5) (vs2 : BitVec 5) (rnd : BitVec 2) (ovf : BitVec 1) (sopd : BitVec 3)
  /-- VMIN (R190): V writes the float minimum per lane. -/
  | vmin (sync : BitVec 4) (vd : BitVec 5) (vs1 : BitVec 5) (vs2 : BitVec 5) (sopd : BitVec 3)
  /-- VMAX (R190): V writes the float maximum per lane. -/
  | vmax (sync : BitVec 4) (vd : BitVec 5) (vs1 : BitVec 5) (vs2 : BitVec 5) (sopd : BitVec 3)
  /-- VABS (R190): V clears the sign of each float lane. -/
  | vabs (sync : BitVec 4) (vd : BitVec 5) (vs1 : BitVec 5)
  /-- VNEG (R190): V inverts the sign of each float lane. -/
  | vneg (sync : BitVec 4) (vd : BitVec 5) (vs1 : BitVec 5)
  /-- VFRCP (R191): V writes the correctly rounded reciprocal per lane. -/
  | vfrcp (sync : BitVec 4) (vd : BitVec 5) (vs1 : BitVec 5)
  /-- VFRSQ (R191): V writes the correctly rounded reciprocal square root per lane. -/
  | vfrsq (sync : BitVec 4) (vd : BitVec 5) (vs1 : BitVec 5)
  /-- VFEXP2 (R191): V writes the correctly rounded 2^a per lane. -/
  | vfexp2 (sync : BitVec 4) (vd : BitVec 5) (vs1 : BitVec 5)
  /-- VFLOG2 (R191): V writes the correctly rounded log2 per lane. -/
  | vflog2 (sync : BitVec 4) (vd : BitVec 5) (vs1 : BitVec 5)
  /-- VFTANH (R191): V writes the correctly rounded tanh per lane. -/
  | vftanh (sync : BitVec 4) (vd : BitVec 5) (vs1 : BitVec 5)
  /-- VCMPEQ (R192): V writes an all-ones lane mask where lanes are equal. -/
  | vcmpeq (sync : BitVec 4) (vd : BitVec 5) (vs1 : BitVec 5) (vs2 : BitVec 5) (sopd : BitVec 3)
  /-- VCMPLT (R192): V writes an all-ones lane mask where a < b. -/
  | vcmplt (sync : BitVec 4) (vd : BitVec 5) (vs1 : BitVec 5) (vs2 : BitVec 5) (sopd : BitVec 3)
  /-- VCMPLE (R192): V writes an all-ones lane mask where a ≤ b. -/
  | vcmple (sync : BitVec 4) (vd : BitVec 5) (vs1 : BitVec 5) (vs2 : BitVec 5) (sopd : BitVec 3)
  /-- VSEL (R192): V selects vs1 or vs2 per lane by the mask in vd. -/
  | vsel (sync : BitVec 4) (vd : BitVec 5) (vs1 : BitVec 5) (vs2 : BitVec 5) (sopd : BitVec 3)
  /-- VIADD (R193): V adds integer lanes with wrap. -/
  | viadd (sync : BitVec 4) (vd : BitVec 5) (vs1 : BitVec 5) (vs2 : BitVec 5) (sopd : BitVec 3)
  /-- VISUB (R193): V subtracts integer lanes with wrap. -/
  | visub (sync : BitVec 4) (vd : BitVec 5) (vs1 : BitVec 5) (vs2 : BitVec 5) (sopd : BitVec 3)
  /-- VIMUL (R193): V multiplies integer lanes keeping low bits. -/
  | vimul (sync : BitVec 4) (vd : BitVec 5) (vs1 : BitVec 5) (vs2 : BitVec 5) (sopd : BitVec 3)
  /-- VIMIN (R193): V writes the signed integer minimum per lane. -/
  | vimin (sync : BitVec 4) (vd : BitVec 5) (vs1 : BitVec 5) (vs2 : BitVec 5) (sopd : BitVec 3)
  /-- VIMAX (R193): V writes the signed integer maximum per lane. -/
  | vimax (sync : BitVec 4) (vd : BitVec 5) (vs1 : BitVec 5) (vs2 : BitVec 5) (sopd : BitVec 3)
  /-- VAND (R193): V ANDs lane bit patterns. -/
  | vand (sync : BitVec 4) (vd : BitVec 5) (vs1 : BitVec 5) (vs2 : BitVec 5) (sopd : BitVec 3)
  /-- VOR (R193): V ORs lane bit patterns. -/
  | vor (sync : BitVec 4) (vd : BitVec 5) (vs1 : BitVec 5) (vs2 : BitVec 5) (sopd : BitVec 3)
  /-- VXOR (R193): V XORs lane bit patterns. -/
  | vxor (sync : BitVec 4) (vd : BitVec 5) (vs1 : BitVec 5) (vs2 : BitVec 5) (sopd : BitVec 3)
  /-- VSHL (R193): V shifts integer lanes left. -/
  | vshl (sync : BitVec 4) (vd : BitVec 5) (vs1 : BitVec 5) (vs2 : BitVec 5) (sopd : BitVec 3)
  /-- VSHR (R193): V shifts integer lanes right logically. -/
  | vshr (sync : BitVec 4) (vd : BitVec 5) (vs1 : BitVec 5) (vs2 : BitVec 5) (sopd : BitVec 3)
  /-- VSAR (R193): V shifts integer lanes right arithmetically. -/
  | vsar (sync : BitVec 4) (vd : BitVec 5) (vs1 : BitVec 5) (vs2 : BitVec 5) (sopd : BitVec 3)
  /-- VCVT (R194): V converts lanes to another format and packs them. -/
  | vcvt (sync : BitVec 4) (vd : BitVec 5) (vs1 : BitVec 5) (fmt : BitVec 5) (rnd : BitVec 2) (ovf : BitVec 1) (inf : BitVec 1)
  /-- VQNT (R195): V multiplies lanes by a scale and packs narrow codes. -/
  | vqnt (sync : BitVec 4) (vd : BitVec 5) (vs1 : BitVec 5) (vs2 : BitVec 5) (rnd : BitVec 2) (ovf : BitVec 1) (inf : BitVec 1) (sopd : BitVec 3)
  /-- VDQNT (R196): V dequantises packed narrow codes with a scale. -/
  | vdqnt (sync : BitVec 4) (vd : BitVec 5) (vs1 : BitVec 5) (vs2 : BitVec 5) (inf : BitVec 1) (sopd : BitVec 3)
  /-- VRSUM (R197): V sums the active lanes by the fixed tree into lane 0. -/
  | vrsum (sync : BitVec 4) (vd : BitVec 5) (vs1 : BitVec 5)
  /-- VRMAX (R197): V reduces the active lanes to their maximum in lane 0. -/
  | vrmax (sync : BitVec 4) (vd : BitVec 5) (vs1 : BitVec 5)
  /-- VRMIN (R197): V reduces the active lanes to their minimum in lane 0. -/
  | vrmin (sync : BitVec 4) (vd : BitVec 5) (vs1 : BitVec 5)
  /-- VPERM (R198): V permutes lanes by per-lane indices. -/
  | vperm (sync : BitVec 4) (vd : BitVec 5) (vs1 : BitVec 5) (vs2 : BitVec 5) (sopd : BitVec 3)
  /-- VBCAST (R198): V broadcasts one lane to all active lanes. -/
  | vbcast (sync : BitVec 4) (vd : BitVec 5) (vs1 : BitVec 5) (vs2 : BitVec 5) (sopd : BitVec 3)
  /-- VROT (R198): V rotates the active lanes by a count. -/
  | vrot (sync : BitVec 4) (vd : BitVec 5) (vs1 : BitVec 5) (vs2 : BitVec 5) (sopd : BitVec 3)
  /-- VRD (R199): V reads the 256-byte head entry of a ring and pops it at retirement. -/
  | vrd (sync : BitVec 4) (vd : BitVec 5) (ring : BitVec 4)
  /-- VMOV (R200): V copies a vector or broadcasts a scalar or immediate. -/
  | vmov (sync : BitVec 4) (vd : BitVec 5) (vs2 : BitVec 5) (sopd : BitVec 3)
  /-- VEXT (R198): V extracts one lane into lane 0. -/
  | vext (sync : BitVec 4) (vd : BitVec 5) (vs1 : BitVec 5) (vs2 : BitVec 5) (sopd : BitVec 3)
  /-- VSHAPE (R183): V checks and writes VSHAPE from a scalar. -/
  | vshape (sync : BitVec 4) (vs2 : BitVec 5) (sopd : BitVec 3)
  /-- VLOOP (R97): V starts a hardware loop counted by a c register. -/
  | vloop (sync : BitVec 4) (cn : BitVec 4) (len : BitVec 10)
  /-- VBCC (R95): V branches on a condition of two c registers. -/
  | vbcc (sync : BitVec 4) (cond : BitVec 4) (ca : BitVec 4) (cb : BitVec 4) (off : BitVec 10)
  /-- VREND (R100): V arrives at its rendezvous. -/
  | vrend (sync : BitVec 4)
  /-- VNOP (R101): V does nothing but apply its sync bits. -/
  | vnop (sync : BitVec 4)
  /-- VCLI (R99): V loads a sign-extended immediate into a c register. -/
  | vcli (sync : BitVec 4) (cd : BitVec 4) (imm : BitVec 18)
  /-- VCADD (R99): V adds an immediate to a c register. -/
  | vcadd (sync : BitVec 4) (cd : BitVec 4) (ca : BitVec 4) (imm : BitVec 14)
  /-- MMA (R205): M starts a 64×64×32 step from two rings into an accumulator, untimed or at its stamp target. -/
  | mma (sync : BitVec 4) (acc : BitVec 2) (sta : BitVec 4) (stb : BitVec 4) (ta : BitVec 1) (tb : BitVec 1) (ow : BitVec 1) (pa : BitVec 1) (pb : BitVec 1) (last : BitVec 1) (stamp : BitVec 8)
  /-- MMAT (R205): M starts a step that adds into the accumulator's transpose. -/
  | mmat (sync : BitVec 4) (acc : BitVec 2) (sta : BitVec 4) (stb : BitVec 4) (ta : BitVec 1) (tb : BitVec 1) (ow : BitVec 1) (pa : BitVec 1) (pb : BitVec 1) (last : BitVec 1) (stamp : BitVec 8)
  /-- MZERO (R209): M writes +0 to every element of an accumulator. -/
  | mzero (sync : BitVec 4) (acc : BitVec 2)
  /-- MDRAIN (R210): M writes an accumulator into a drain ring, optionally clearing it. -/
  | mdrain (sync : BitVec 4) (acc : BitVec 2) (ring : BitVec 4) (last : BitVec 1)
  /-- MFILL (R211): M loads an accumulator from a ring, optionally popping it. -/
  | mfill (sync : BitVec 4) (acc : BitVec 2) (ring : BitVec 4) (pa : BitVec 1)
  /-- MACC (R209): M adds one accumulator into another element-wise. -/
  | macc (sync : BitVec 4) (acc : BitVec 2) (src : BitVec 2)
  /-- MSTAMP (R213): M pops the S→M scalar queue into TREF and sets TVALID. -/
  | mstamp (sync : BitVec 4)
  /-- MWIN (R215): M sets the held-window span required by later steps. -/
  | mwin (sync : BitVec 4) (n : BitVec 8)
  /-- MLOOP (R97): M starts a hardware loop counted by a c register. -/
  | mloop (sync : BitVec 4) (cn : BitVec 4) (len : BitVec 10)
  /-- MBCC (R95): M branches on a condition of two c registers. -/
  | mbcc (sync : BitVec 4) (cond : BitVec 4) (ca : BitVec 4) (cb : BitVec 4) (off : BitVec 12)
  /-- MREND (R100): M arrives at its rendezvous. -/
  | mrend (sync : BitVec 4)
  /-- MNOP (R101): M does nothing but apply its sync bits. -/
  | mnop (sync : BitVec 4)
  /-- XTD (R232): X writes a whole transfer descriptor from four c registers. -/
  | xtd (sync : BitVec 4) (td : BitVec 3) (cb : BitVec 4)
  /-- XTDI (R232): X writes one halfword of a transfer descriptor. -/
  | xtdi (sync : BitVec 4) (td : BitVec 3) (f : BitVec 4) (imm : BitVec 16)
  /-- XCOPY (R239): X launches a raw copy of a window from memory into a ring entry. -/
  | xcopy (sync : BitVec 4) (td : BitVec 3) (ring : BitVec 4) (ci : BitVec 4)
  /-- XPUT (R239): X launches a raw copy of a ring entry to memory inside the present area. -/
  | xput (sync : BitVec 4) (td : BitVec 3) (ring : BitVec 4) (ci : BitVec 4)
  /-- XCVT (R240): X launches a converting, optionally transposing and scaling, fill of a ring entry. -/
  | xcvt (sync : BitVec 4) (td : BitVec 3) (ring : BitVec 4) (ci : BitVec 4) (fmt : BitVec 5) (rnd : BitVec 2) (ovf : BitVec 1) (inf : BitVec 1) (tr : BitVec 1) (ts : BitVec 1)
  /-- XGATH (R241): X launches a gather of indexed rows into a ring entry. -/
  | xgath (sync : BitVec 4) (td : BitVec 3) (ring : BitVec 4) (ci : BitVec 4) (sti : BitVec 4)
  /-- XSCAT (R241): X launches a scatter of a ring entry's rows to indexed memory rows. -/
  | xscat (sync : BitVec 4) (td : BitVec 3) (ring : BitVec 4) (ci : BitVec 4) (sti : BitVec 4)
  /-- XWOPEN (R242): X fills a sliding window's first rows and advances ROW0. -/
  | xwopen (sync : BitVec 4) (td : BitVec 3) (ring : BitVec 4)
  /-- XWADV (R242): X fills the next k rows of a sliding window and advances ROW0. -/
  | xwadv (sync : BitVec 4) (td : BitVec 3) (ring : BitVec 4) (ci : BitVec 4)
  /-- XKVQ (R243): X appends a token row to a KV cache, quantising the row that leaves the window. -/
  | xkvq (sync : BitVec 4) (td : BitVec 3) (ring : BitVec 4) (ci : BitVec 4) (fmt : BitVec 5) (rnd : BitVec 2) (ovf : BitVec 1)
  /-- XFILL (R244): X copies one Frit tile with header and scales into a Frit ring entry. -/
  | xfill (sync : BitVec 4) (td : BitVec 3) (ring : BitVec 4) (ci : BitVec 4)
  /-- XFTL (R245): X checks and loads a Frit decoder table from a 512-byte image. -/
  | xftl (sync : BitVec 4) (td : BitVec 3) (table : BitVec 3)
  /-- XPEER (R239): X launches a raw copy from another node's memory into a ring entry. -/
  | xpeer (sync : BitVec 4) (td : BitVec 3) (ring : BitVec 4) (ci : BitVec 4)
  /-- XWAIT (R246): X holds until every earlier transfer through one descriptor has completed. -/
  | xwait (sync : BitVec 4) (td : BitVec 3)
  /-- XWAIT_ALL (R246): X holds until every earlier transfer of the stream has completed. -/
  | xwaitAll (sync : BitVec 4)
  /-- XQGET (R247): X pops the S→X scalar queue into a c register. -/
  | xqget (sync : BitVec 4) (cd : BitVec 4)
  /-- XCLI (R99): X loads a sign-extended immediate into a c register. -/
  | xcli (sync : BitVec 4) (cd : BitVec 4) (imm : BitVec 16)
  /-- XCADD (R99): X adds an immediate to a c register. -/
  | xcadd (sync : BitVec 4) (cd : BitVec 4) (ca : BitVec 4) (imm : BitVec 12)
  /-- XCMUL (R99): X multiplies two c registers modulo 2^64. -/
  | xcmul (sync : BitVec 4) (cd : BitVec 4) (ca : BitVec 4) (cb : BitVec 4)
  /-- XLOOP (R97): X starts a hardware loop counted by a c register. -/
  | xloop (sync : BitVec 4) (cn : BitVec 4) (len : BitVec 10)
  /-- XBCC (R95): X branches on a condition of two c registers. -/
  | xbcc (sync : BitVec 4) (cond : BitVec 4) (ca : BitVec 4) (cb : BitVec 4) (off : BitVec 8)
  /-- XREND (R100): X arrives at its rendezvous. -/
  | xrend (sync : BitVec 4)
  /-- XNOP (R101): X does nothing but apply its sync bits. -/
  | xnop (sync : BitVec 4)
  /-- NOTIFY (R112): A host write to a notify register raises the queue's write index or halts the queue. -/
  | notify (fn queue : Nat) (value : Dword)
  /-- QUEUE_MAP (R113): Firmware maps a pending queue into a hardware slot and restores its pass. -/
  | queueMap (die slot pqn : Nat)
  /-- QUEUE_UNMAP (R113): Firmware unmaps a queue, merging W, PASS and RIDX into its descriptor. -/
  | queueUnmap (die slot : Nat)
  /-- COMMAND_FETCH (R114): A mapped queue with W > RIDX fetches its next command entry through ATS. -/
  | commandFetch (die slot : Nat)
  /-- NODE_DISPATCH (R120): The partition's dispatcher chooses the runnable queue of least pass and charges its next node. -/
  | nodeDispatch (part : Nat)
  /-- START_JOB (R81): The walker hands the next iteration to the lowest FREE core. -/
  | startJob (part die : Nat)
  /-- ITERATION_RETIREMENT (R84): An iteration retires once all streams are at REND and the completion and residue checks pass. -/
  | iterationRetirement (core : Nat)
  /-- NODE_BOUNDARY (R85): All dies retire the node and its engine commands complete, charging the node and releasing at DEV scope. -/
  | nodeBoundary (part : Nat)
  /-- PARK (R407): The ep4 PARK command parks an invocation at its next node boundary. -/
  | park (core : Nat)
  /-- UNPARK (R408): The ep4 UNPARK command restores a parked record and marks the queue runnable. -/
  | unpark (core : Nat)
  /-- STOPCORE (R406): The ep4 STOPCORE command raises a class 0x16 recovery stop on a core. -/
  | stopcore (core : Nat)
  /-- SAVECORE (R410): The ep4 SAVECORE command writes a trapped core's image and frees the core. -/
  | savecore (core : Nat)
  /-- RESTORECORE (R406): The ep4 RESTORECORE command loads a saved image onto a FREE core and resumes it. -/
  | restorecore (core : Nat)
  /-- CORESTART (R406): The ep4 CORESTART command starts an OFFLINE core's S at PL2. -/
  | corestart (core : Nat)
  /-- RSTORE (R440): The fabric engine translates and writes data words to device-half memory, local or peer. -/
  | rstore (core : Nat)
  /-- MSEND (R305): The fabric engine reads a source range and lands it at another node, posting an ep3 arrival there. -/
  | msend (core : Nat)
  /-- SWRITE (R307): The stack engine writes data words to a local CR page through the Glaze unit. -/
  | swrite (core : Nat)
  /-- STAB (R307): The stack engine loads a Frit table into a stack-side unit. -/
  | stab (core : Nat)
  /-- STACK_SIDE_PRODUCT (R309): A stack-side unit computes an SMV product and fills the result ring tile by tile. -/
  | stackSideProduct (core : Nat)
  /-- RESHARD_PLAN (R321): A reshard engine takes its command, exchanges digests and derives Marver's plan. -/
  | reshardPlan (core : Nat)
  /-- RESHARD_DIGEST_TIMEOUT (R321): A die that has not taken its reshard command within 2^24 cycles ends the reshard with STATUS 0x07. -/
  | reshardDigestTimeout (die n : Nat)
  /-- RESHARD_PIECE (R328): A reshard piece lands at its seal tile and its arrival or count is recorded. -/
  | reshardPiece (die n : Nat)
  /-- EP3_ARRIVAL_PUSH (R22): A held arrival is pushed into ep3 once room frees. -/
  | ep3ArrivalPush (die n : Nat)
  /-- TRANSFER_COMPLETION (R235): An X transfer's reads return and writes are performed, advancing ring tails or heads in order. -/
  | transferCompletion (core n : Nat)
  /-- STEP_RETIREMENT (R205): A matrix step commits its accumulator, pops its operands and clears TVALID on LAST. -/
  | stepRetirement (core : Nat)
  /-- DECODE_CHUNK (R224): A decoder lane decodes one Frit chunk into 1024 symbols or a fault. -/
  | decodeChunk (core ring chunk : Nat)
  /-- L2_EVICTION (R261): L2 evicts a block, resealing dirty data with the next version. -/
  | l2Eviction (node tile : Nat)
  /-- SCRUB (R412): A Glaze unit reads, corrects and rewrites a tile, poisoning it on an uncorrectable error. -/
  | scrub (node tile : Nat)
  /-- STALL_FAULT (R92): The 20-bit stall counter wraps and the core raises the precise stall fault. -/
  | stallFault (core : Nat)
  /-- KILN_TICK_BOUNDARY (R130): At each kiln tick boundary budget counters clear and deferred register writes and key generations take effect. -/
  | kilnTickBoundary
  /-- TRAP_ENTRY (R398): Once the stop completes, the cut is formed and recorded, S rewinds and the handler starts. -/
  | trapEntry (core : Nat)
  /-- DRAIN_TIMEOUT (R393): A drain stop ends 4096 cycles after the fault if other streams have not all held. -/
  | drainTimeout (core : Nat)
  /-- ASYNCHRONOUS_RECORD (R400): A queued asynchronous record raises a class 0x15 entry trap or goes to the die's firmware. -/
  | asynchronousRecord (core : Nat)
  /-- ARPOP (R400): A write to ARPOP pops the head asynchronous record. -/
  | arpop (core : Nat) (value : Dword)
  /-- STATE_WINDOW_ACCESS (R402): A WDATA access reads or writes 8 bytes of the selected region and advances the offset. -/
  | stateWindowAccess (core : Nat) (write : Bool) (value : Dword)
  /-- PBENCH (R345): A PBENCH write reassigns quiescent benches, clearing core state at the next tick. -/
  | pbench (die part : Nat) (value : Dword)
  /-- PNSET (R346): A PNSET write sets a partition's node set and quota unless limits are broken. -/
  | pnset (die part : Nat) (value : Dword)
  /-- VFBIND (R348): A VFBIND write binds or unbinds a virtual function, unmapping its queues on unbind. -/
  | vfbind (vf : Nat) (value : Dword)
  /-- BUDGET_REGISTER_WRITE (R129): A budget register write sets per-tick limits unless a field is zero. -/
  | budgetRegisterWrite (die part : Nat) (value : Dword)
  /-- NTOK_WRITE (R128): A power-window configuration write sets the token count from the next tick. -/
  | ntokWrite (die : Nat) (value : Dword)
  /-- SCOWN_WRITE (R280): An SCOWN write changes a wheel position's owner from the next tick. -/
  | scownWrite (die index : Nat) (value : Dword)
  /-- DOMCFG_WRITE (R256): A DOMCFG write sets ILROWS from the next tick unless above CHROWS. -/
  | domcfgWrite (die : Nat) (value : Dword)
  /-- REGISTER_WRITE (R7): A write to a register with no behaviour of its own updates its writable fields. -/
  | registerWrite (fn offset : Nat) (value : Dword)
  /-- GEN (R378): KEYCMD GEN installs a fresh random key into the non-current generation. -/
  | keyGen (die : Nat)
  /-- DERIVE (R378): KEYCMD DERIVE installs a key derived from the die seal root. -/
  | keyDerive (die : Nat)
  /-- IMPORT (R378): KEYCMD IMPORT unwraps and installs a key sent by another die. -/
  | keyImport (die : Nat)
  /-- EXPORT (R378): KEYCMD EXPORT wraps the current key for a target die. -/
  | keyExport (die : Nat)
  /-- SWEEP (R378): KEYCMD SWEEP reseals under the current key every matching tile of an older generation. -/
  | keySweep (die : Nat)
  /-- RETIRE (R378): KEYCMD RETIRE empties the non-current key generation. -/
  | keyRetire (die : Nat)
  /-- ZEROISE (R378): KEYCMD ZEROISE marks a range of tiles as zero for a partition and key. -/
  | keyZeroise (die : Nat)
  /-- ATTESTATION_REQUEST (R390): A write of ATTCTL[0] makes the device write a signed attestation report. -/
  | attestationRequest (fn : Nat)
  /-- RETIRE_CORE (R422): Service RETIRE.CORE moves the core's job and takes the core OFFLINE. -/
  | retireCore
  /-- RETIRE_BENCH (R422): Service RETIRE.BENCH retires all sixteen cores of a bench. -/
  | retireBench
  /-- RETIRE_CHAN (R423): Service RETIRE.CHAN moves interleaved tiles off a channel and drops it from DOMLIVE. -/
  | retireChan
  /-- RETIRE_LINK (R424): Service RETIRE.LINK drains a link and makes its port report down. -/
  | retireLink
  /-- FWUPDATE (R425): Service FWUPDATE replaces the firmware die by die with a verified image. -/
  | fwupdate
  /-- CKPT_BUDDY (R426): Service CKPT.BUDDY parks, writes back and streams every tile to a buddy node. -/
  | ckptBuddy
  /-- CKPT_CXL (R426): Service CKPT.CXL streams every tile to CXL memory over the host ports. -/
  | ckptCxl
  /-- RESTORE_BUDDY (R428): Service RESTORE.BUDDY writes tiles back from a buddy and unparks invocations. -/
  | restoreBuddy
  /-- RESTORE_CXL (R428): Service RESTORE.CXL writes tiles back from CXL memory and unparks invocations. -/
  | restoreCxl
  /-- IMAGE_LOADER (R430): In minimal mode an IMGCTL write verifies a payload, writes it to flash and resets. -/
  | imageLoader
  /-- BOOT (R429): The package powers on, verifies its record and image, trains memory and starts firmware. -/
  | boot
  /-- READY_TIMEOUT (R429): READY not set within 2^32 cycles of boot step 1 resets the package. -/
  | readyTimeout
  /-- THERMAL_ACTION (R431): A die at 105 °C is forced to NTOK = 1, and at 115 °C the package resets. -/
  | thermalAction (die degrees : Nat)
  /-- DIE_RESET (R415): A die resets, raises its incarnation and floods an announce on leaving reset. -/
  | dieReset (die : Nat)
  /-- PWRITE (R133): A PWRITE flit is written at its destination and its message tracked until whole. -/
  | pwrite (n : Nat)
  /-- PREAD (R132): A PREAD flit is read at its destination and answered by RDATA. -/
  | pread (n : Nat)
  /-- RDATA (R132): An RDATA answer returns read words to the requester. -/
  | rdata (n : Nat)
  /-- PATOM (R132): A PATOM flit runs an atomic at the home's atomic unit and is answered by ADATA. -/
  | patom (n : Nat)
  /-- ADATA (R132): An ADATA answer returns an atomic's old value. -/
  | adata (n : Nat)
  /-- ACK (R137): An ACK completes a PWRITE or CTRL message and returns its flits to CAPF. -/
  | ack (n : Nat)
  /-- NACK (R139): A NACK refuses or reports lost a flit, scheduling a retry or ending with LINK-LOST. -/
  | nack (n : Nat)
  /-- FLIT_RETRY (R139): After its backoff a refused flit is sent again with RETRY = 1 and a new STAMP. -/
  | flitRetry (die n : Nat)
  /-- XLATREQ (R133): An XLATREQ is translated at the destination, creating a cullet entry or failing. -/
  | xlatreq (n : Nat)
  /-- XLATRSP (R133): An XLATRSP lets the source send its range flits or reports a fault. -/
  | xlatrsp (n : Nat)
  /-- ANNOUNCE (R417): An announce from a rejoining die completes requests with PEER-RESET and discards partial entries. -/
  | announce (n : Nat)
  /-- ANNACK (R417): An announce acknowledgement lets the rejoining die send to that node. -/
  | annack (n : Nat)
  /-- CTRL (R132): A CTRL flit delivers a boundary report, digest, invalidation or routing update. -/
  | ctrl (n : Nat)
  /-- REQUEST_TIMEOUT (R138): A request unanswered 2^33 cycles after its last flit ends with LINK-LOST. -/
  | requestTimeout (die msgid : Nat)
  /-- FRAME (R383): A received link frame is verified and its flits released to the router, or discarded. -/
  | frame (die port : Nat)
  /-- LINK_ACKNOWLEDGEMENT (R138): A link control beat acknowledges frames, or a failure report triggers resending. -/
  | linkAcknowledgement (die port : Nat) (ok : Bool)
  /-- LINK_DOWN (R138): A link goes down and unacknowledged flits are reported lost. -/
  | linkDown (die port : Nat)
  /-- LINK_TRAINING (R384): Two dies train a link with an authenticated ECDH exchange and accept or refuse the peer. -/
  | linkTraining (die port : Nat)
  /-- REKEY (R385): A link at CTR 2^47 runs a new exchange and switches keys with a SWITCH flit. -/
  | rekey (die port : Nat)
  /-- ATS_INVALIDATION (R362): A host ATS Invalidation Request removes matching entries and is completed after their accesses. -/
  | atsInvalidation (vf pasid : Nat) (base len : Dword)
  /-- PAGE_REQUEST_GROUP_CLOSE (R363): A page request group closes after 256 cycles or 16 pages and is sent when the allowance fits. -/
  | pageRequestGroupClose (n : Nat)
  /-- PAGE_REQUEST_RESPONSE (R364): The host's response to a group retries, faults or stops PRI for every waiting access. -/
  | pageRequestResponse (n code : Nat)
  /-- STORE_PERFORMED (R288): A plain store that has already retired is applied at its point, where it may trigger monitors or meet a seal or ECC error that is reported asynchronously. -/
  | storePerformed (core n : Nat)
  /-- QUEUE_ENTRY_FILL (R289): The 256 bytes of a reserved LDQ entry arrive from memory, and the entry becomes readable by V in queue order. -/
  | queueEntryFill (core q : Nat)
  /-- SOFT_ERROR (R413): A soft error strikes HBM or on-die storage, leaving a value that ECC will either correct or report as uncorrectable when it is next read. -/
  | softError (node addr bit : Nat)
  deriving DecidableEq, Repr

end Sys2Proof
end

