-- ==== Sys2Proof/Machine/State.lean ====
section
/-! DEFINITION. The state of the Nolavasy Z4 package as plain data, its faults and refusals, and its reset. One home
for every register; the meanings reach them through the accessors of Machine/Ops.lean. -/

namespace Sys2Proof.Machine

/-! ### Outcomes that end a run -/

/-- Why a step faults. -/
inductive Fault where
  /-- An event of the table names a die, core, partition, function, port or slot that the package does not have
  (R11, R13, R22, R344, R348). Raised by the event meanings alone. Safe: the spec gives such an event no meaning. -/
  | noSuchUnit
  deriving DecidableEq, Repr

/-- Why a step is refused. -/
inductive Refusal where
  /-- No meaning has been written for the row of the table. Raised by Dispatch alone. Safe. -/
  | notModelled (mnemonic : String)
  deriving DecidableEq, Repr

/-! ### Tables -/

/-- A table by number: rising keys, and a default for what is not listed. -/
abbrev Tab (α : Type) := List (Nat × α)

/-- The entry of a number. -/
def Tab.get {α : Type} (d : α) (t : Tab α) (k : Nat) : α :=
  match t with
  | [] => d
  | (k', a) :: rest => if k = k' then a else Tab.get d rest k

/-- The table with one entry changed, keys kept rising. -/
def Tab.set {α : Type} (t : Tab α) (k : Nat) (a : α) : Tab α :=
  match t with
  | [] => [(k, a)]
  | (k', a') :: rest =>
    if k = k' then (k, a) :: rest
    else if k < k' then (k, a) :: (k', a') :: rest
    else (k', a') :: Tab.set rest k a

/-- The table without one number. -/
def Tab.erase {α : Type} (t : Tab α) (k : Nat) : Tab α := t.filter fun p => p.1 != k

/-- Whether a number is listed. -/
def Tab.has {α : Type} (t : Tab α) (k : Nat) : Bool := t.any fun p => p.1 == k

/-! ### Memory attributes and accesses -/

/-- The page kinds (R251). -/
inductive Kind where
  | uo | rc | so
  deriving DecidableEq, Repr

/-- Where the bytes of an access live (R253). -/
inductive Place where
  /-- A byte offset in a core's scratchpad (R16). -/
  | scratch (core : Nat)
  /-- A device physical address in a node's memory domain (R255). -/
  | hbm (node : Nat)
  /-- A host physical address behind a function's port (R250). -/
  | host (fn : Nat)
  deriving DecidableEq, Repr

/-- What an access does (R365, ACC). -/
inductive Acc where
  | load | store | atomic | fetch | xread | xwrite | smvRead
  deriving DecidableEq, Repr

/-- A part of an access that lies in one page, after translation (R251, R273). -/
structure Piece where
  va : Dword
  place : Place
  addr : Nat
  len : Nat
  kind : Kind
  l1 : Bool
  am : Bool
  part : BitVec 4
  key : BitVec 4
  /-- PL2 accesses omit the OWNER check (R438). -/
  anyOwner : Bool
  /-- What a physical-address fault that its home answers records: FSYN and FIPA2 (R365, R366). -/
  fault : Dword × Dword := (0, 0)
  deriving DecidableEq, Repr

/-- The operations of an atomic (R294, R295). -/
inductive AmoOp where
  | add | and | or | xor | min | max | minu | maxu | swap | fadd | cas
  deriving DecidableEq, Repr

/-- What an access does at its point: read, write bytes, or read and write `n` bytes with an operand and, for CAS, a
comparand. -/
inductive Doing where
  | read
  | write (bs : List Byte)
  | modify (op : AmoOp) (n : Nat) (x y : Dword)
  deriving DecidableEq, Repr

/-- An agent of memory: a core and a stream of it, the word it runs, and the invocation it runs for (R260, R400). -/
structure Agent where
  core : Nat
  st : Stream
  pc : Dword
  job : Nat := 0
  deriving DecidableEq, Repr

/-! ### Traps -/

/-- The fault record written to FSYN, FVA and FIPA2 (R365). -/
structure Syndrome where
  fsyn : Dword
  fva : Dword
  fipa : Dword
  /-- The bank of PL2 rather than that of PL1 (R366). -/
  bank2 : Bool
  /-- Node and DPA of a tile whose seal failed, for the PL2 bank (R374). -/
  tile : Option Dword := none
  deriving DecidableEq, Repr

/-- What a trap records (R391, R398). -/
structure Trap where
  cls : BitVec 8
  sub : BitVec 32 := 0
  detail : Dword := 0
  /-- Handled at PL2 although raised at PL0 (R391: stage 2 and recovery stops). -/
  toPl2 : Bool := false
  /-- No word was read (R433). -/
  noWord : Bool := false
  syn : Option Syndrome := none
  deriving DecidableEq, Repr

/-- A trap that has been raised and whose stop is not yet complete (R393). -/
structure Pending where
  trap : Trap
  stream : Option Stream
  addr : Dword
  word : Word
  since : Dword
  deriving DecidableEq, Repr

/-- An asynchronous record of a core (R400). -/
structure Record where
  syn : Dword
  addr : Dword
  det : Dword
  job : Nat
  deriving DecidableEq, Repr

/-! ### The parts of a core -/

/-- The states of a core (R82). -/
inductive CoreState where
  | free | running | rendezvous | trapped | offline
  deriving DecidableEq, Repr

/-- One entry of a loop stack (R97). -/
structure LoopEntry where
  first : Dword := 0
  past : Dword := 0
  rem : Dword := 0
  deriving DecidableEq, Repr

/-- A loop stack: its depth and six entries (R97, R402). -/
structure LoopStack where
  depth : Dword := 0
  ent : Vector LoopEntry 6 := Vector.replicate 6 {}
  deriving DecidableEq, Repr

/-- A stream descriptor: words 0 to 3 of R299. -/
structure Desc where
  w0 : Dword := 0
  w1 : Dword := 0
  w2 : Dword := 0
  w3 : Dword := 0
  deriving DecidableEq, Repr

/-- A named barrier (R104). -/
structure Barrier where
  exp : BitVec 16 := 0
  arr : BitVec 16 := 0
  cmp : BitVec 16 := 0
  seen : BitVec 16 := 0
  deriving DecidableEq, Repr

/-- The monitor of an S stream (R107); the line is VA[63:7] and the byte key of its first byte in memory. -/
inductive Monitor where
  | disarmed
  | armed (line : Dword) (key : Nat)
  | triggered (line : Dword) (key : Nat)
  deriving DecidableEq, Repr

/-- A queue of 256-byte entries by position, with its head and tail sequence numbers (R20, R395, R402). -/
structure WideQueue where
  slot : Vector (BitVec 2048) 8 := Vector.replicate 8 0
  head : BitVec 16 := 0
  tail : BitVec 16 := 0
  deriving DecidableEq, Repr

/-- A queue of 64-bit entries by position (R20). -/
structure ScalarQueue where
  slot : Vector Dword 16 := Vector.replicate 16 0
  head : BitVec 16 := 0
  tail : BitVec 16 := 0
  deriving DecidableEq, Repr

/-- A product that S has handed to a stack-side unit and that has not ended (R309): the weights, the vector, the ring it
fills, and the next output tile. -/
structure Product where
  pc : Dword
  pieces : List Piece
  waddr : Dword
  nnb : Nat
  nkb : Nat
  format : Dword
  soff : Dword
  x : List (BitVec 16)
  ring : Nat
  /-- Where its first entry stands in the ring. -/
  off : Nat
  chan : Nat
  next : Nat
  job : Nat
  born : Dword
  deriving DecidableEq, Repr

/-- A reserved LDQ entry: what it reads, and the data of an entry whose read is already made (R289). -/
structure QueueFill where
  pieces : List Piece
  data : Option (BitVec 2048)
  /-- The data found as the word issued: the entry's where its bytes can no longer be read when it is filled. -/
  found : BitVec 2048 := 0
  born : Dword
  deriving DecidableEq, Repr

/-- A store that has retired and is not yet performed (R288): a release waits for all earlier accesses. -/
structure PendingStore where
  pc : Dword
  pieces : List Piece
  bytes : List Byte
  release : Bool
  born : Dword
  /-- Its local part is applied and its peer parts are sent (R264). -/
  sent : Bool := false
  /-- The messages at peers that have not been acknowledged. -/
  waits : List Nat := []
  /-- The invocation that its word ran for (R400). -/
  job : Nat := 0
  deriving DecidableEq, Repr

/-- What a reshard takes when its END word is pushed: the maps, the MESH and the two tensor records as they stand then
(R323). -/
structure Images where
  mapS : BitVec 128
  mapD : BitVec 128
  mesh : Dword
  src : Option (BitVec 512)
  dst : Option (BitVec 512)
  deriving DecidableEq, Repr

/-- A command of an engine FIFO: its words, the tag by which a trap rewinds S, and what S's g registers and loop stack
held before its first word (R302, R396, R397). -/
structure Command where
  words : List Dword
  tagPc : Dword
  tagSeq : BitVec 32
  g : Vector Dword 32
  loops : LoopStack
  /-- SMV and RESHARD take port room without a command header of S's own. -/
  whole : Bool
  /-- The invocation that pushed it (0 none). -/
  job : Nat
  ctx : Dword
  /-- Order in which S pushed the commands of all its ports. -/
  order : Nat
  /-- A ring and the bytes of it that SMV has reserved (R309). -/
  rsv : Option (Nat × Nat)
  /-- The images of a reshard (R323). -/
  images : Option Images := none
  /-- The stack-side product that an SMV hands over (R309). -/
  product : Option Product := none
  /-- Writes logged before its first word (R397). -/
  logAt : Nat := 0
  /-- Bits of its words that have flipped (R411). -/
  flips : List Nat := []
  deriving DecidableEq, Repr

/-- A command that its engine has taken and that is not complete: its header, the address of the word that pushed it, the
job, what its result counts, the messages it waits for, and its status so far (R302, R305). -/
structure Active where
  header : Dword
  pc : Dword
  job : Nat
  born : Dword
  count : Nat := 0
  waits : List Nat := []
  status : BitVec 8 := 0
  /-- Its reads at peers in order, and what those answered have brought. -/
  ids : List Nat := []
  got : List (Nat × List Byte) := []
  /-- A STAB that waits for its image: the number of its table, and the pages of the image (R307). -/
  stab : Option (Nat × List Piece) := none
  deriving DecidableEq, Repr

/-- An engine port: the commands its engine has not taken, the command that lacks its END word, the commands taken and
not complete, and the result or arrival FIFO (R22, R302 to R304). -/
structure Port where
  fifo : List Command := []
  part : Option Command := none
  active : List Active := []
  results : List Dword := []
  /-- What the state window wrote to the 32 positions of the result FIFO (R402). -/
  spare : Vector Dword 32 := Vector.replicate 32 0
  deriving DecidableEq, Repr

/-- The decoder table t of a core: 256 frequencies of 12 bits, in halfwords, and VALID (R221). -/
structure FritTable where
  freq : BitVec 4096 := 0
  valid : Bool := false
  deriving DecidableEq, Repr

/-- The bits of 256 halfwords that hold frequencies (R221). -/
def fritBits : BitVec 4096 := BitVec.ofNat 4096 ((2 ^ 4096 - 1) / (2 ^ 16 - 1) * 0xFFF)

/-- A chunk's decode, done ahead or at the read (R224). -/
structure Decoded where
  ring : Nat
  entry : Nat
  /-- When the lane started it. -/
  born : Dword := 0
  chunk : Nat
  syms : Option (BitVec 8192)
  detail : Dword
  deriving DecidableEq, Repr

/-- A matrix step that has started and not retired (R205, R207): the sums s5 of R161 that it forms from its operands,
where they go, and what it pops. -/
structure MStep where
  acc : Nat
  ow : Bool
  last : Bool
  /-- s5 for every element of the accumulator, element (p, q) at bits [32(64p + q) + 31 : 32(64p + q)]. -/
  sums : BitVec 131072
  /-- The rings it reads. -/
  rings : List Nat
  /-- The rings it pops, with the bytes of the entry. -/
  pops : List (Nat × Nat)
  start : Dword
  /-- The posts made at retirement. -/
  posts : BitVec 2
  /-- Another word of M, whose effect is made and whose posts wait for the steps before it. -/
  bare : Bool := false
  deriving DecidableEq, Repr

/-- What a transfer in flight does with the rings (R235, R236). -/
inductive XRing where
  /-- It fills `len` bytes of a ring from offset `off`. -/
  | fills (ring off len : Nat)
  /-- It reads `len` bytes of a ring at offset `off`, and pops them. -/
  | drains (ring off len : Nat)
  | none
  deriving DecidableEq, Repr

/-- A row of memory that a transfer reads or writes: the window row it belongs to, and its pages; and, for a sealed row,
the pages of each tile's metadata (R233, R238). -/
structure XRow where
  row : Nat
  pieces : List Piece
  seals : List (List Piece) := []
  deriving DecidableEq, Repr

/-- A row to be written: its pieces, its bytes, whether the last byte takes only its low nibble, which bytes come from
elements that were read with an error, and the metadata pages of a sealed row. -/
structure RowOut where
  pieces : List Piece
  bytes : List Byte
  low : Bool := false
  bad : List Bool := []
  seals : List (List Piece) := []
  deriving DecidableEq, Repr

/-- A range that its destination translates (R133): an XLATREQ, and the flits that follow once it is answered. -/
structure Range where
  dest : BitVec 12
  part : BitVec 4
  vf : Nat
  pasid : BitVec 20
  va : Dword
  len : Nat
  write : Bool
  dcore : Nat := 0
  tag : Nat := 0
  action : Nat := 0
  score : Nat := 0
  deriving DecidableEq, Repr

/-- A part of a transfer that travels to a peer as one message: what it reads, or the bytes that it writes (R132, R264). -/
structure XPart where
  piece : Piece
  bytes : List Byte := []
  low : Bool := false
  bad : List Bool := []
  deriving DecidableEq, Repr

/-- A transfer that has retired and not completed (R235). -/
structure Transfer where
  op : Instr
  pc : Dword
  td : Nat
  /-- Its descriptor, and the next one for XKVQ, as they stood at issue (R231). -/
  tdv : BitVec 256
  tdq : BitVec 256 := 0
  ring : XRing
  /-- The memory row of each window row (R233, R241, R242). -/
  rows : List Int := []
  reads : List XRow := []
  writes : List XRow := []
  /-- The header of an XFILL entry: TILE and CLEN. -/
  tile : Nat × Nat := (0, 0)
  /-- The table that an XFTL installs. -/
  table : Option FritTable := none
  job : Nat
  /-- Its messages to peers: whether its reads and its writes have been sent, the reads in order with what those answered
  have brought, and those not answered. -/
  asked : Bool := false
  sent : Bool := false
  asks : List (Nat × Option (List Byte)) := []
  waits : List Nat := []
  /-- What it has still to send of its messages, and the rows that it writes, on its own die once the peers have acknowledged
  theirs (R237). -/
  unsent : List XPart := []
  outs : List RowOut := []
  /-- Its word, an XPEER of more ranges than can be asked for at once, has not retired yet (R239). -/
  early : Bool := false
  /-- When a budget first held it (R130). -/
  held : Option Dword := none
  /-- KIND and CODE of its first error, and the VA it met (R235, R400). -/
  bad : Option (Nat × Nat × Dword) := none
  done : Bool := false
  born : Dword
  deriving DecidableEq, Repr

/-- A 4 KiB host page that a word has asked for: the page request group it waits on, and once that is answered the CAUSE of
the fault to take, or 0 to ask ATS again (R363, R364). -/
structure PageWait where
  page : Nat
  group : Option Nat
  cause : Nat := 0
  deriving DecidableEq, Repr

/-- A word that waits for memory beyond its core: an SC slot, a peer, or the host's pages (R264, R281, R363). `got` is
what its pieces have answered so far, in order. -/
inductive Waiting where
  | none
  /-- The SC access of the word at `pc` has taken its stamp. -/
  | sc (pc : Dword) (stamp : Dword) (p : List Piece) (d : Doing)
  /-- The word at `pc` waits for the answers to messages at peers. -/
  | peer (pc : Dword) (ids : List Nat) (got : List (List Byte))
  /-- The answer came: the trap it brings, or its bytes. -/
  | answered (pc : Dword) (bad : Option Trap) (got : List (List Byte))
  /-- The word at `pc` has asked the host for pages. -/
  | page (pc : Dword) (asks : List PageWait)
  deriving DecidableEq, Repr

/-- A line of an instruction cache: the VA of its 64 bytes, the context and the privilege level it was fetched under, and the
bytes (R17, R432). -/
structure FetchLine where
  va : Dword
  data : BitVec 512
  part : BitVec 4 := 0
  vf : BitVec 8 := 0
  pasid : BitVec 20 := 0
  pl : BitVec 2 := 0
  deriving DecidableEq, Repr

/-- The line of an instruction cache that a prefetch has requested at a peer, by the message: its stream, its address and its
context (R264, R291). -/
structure Ahead where
  id : Nat
  st : Stream
  line : FetchLine
  deriving DecidableEq, Repr

/-- What the answer to an access at a peer has brought: the STATUS, the trap of a word, and the bytes. -/
structure Reply where
  status : BitVec 8
  trap : Option Trap
  bytes : List Byte
  deriving DecidableEq, Repr

/-- An access at a peer that a walk or the system engine has made: for whom, where, whether it reads, writes or sets AF, and
its messages with their answers (R264, R357, R410). -/
inductive Errand where
  | read | write | swap
  deriving DecidableEq, Repr
structure Remote where
  who : Nat
  node : Nat
  addr : Nat
  use : Errand
  asks : List (Nat × Option Reply)
  deriving DecidableEq, Repr

/-- The states of an L1 line (R258); an absent line is in I. -/
inductive Moesi where
  | m | o | e | s
  deriving DecidableEq, Repr

/-- The attributes of a translation: what each stage permits, the effective kind, and stage 2's own (R251); the levels of
the two leaves. -/
structure Attr where
  r1 : Bool
  w1 : Bool
  x1 : Bool
  u : Bool
  r2 : Bool
  w2 : Bool
  x2 : Bool
  kind : Kind
  c : Bool
  am : Bool
  key : BitVec 4
  lvl1 : Nat
  lvl2 : Nat
  deriving DecidableEq, Repr

/-- An entry of a TLB of a core or of its bench (R359). -/
structure TlbEntry where
  part : BitVec 4
  vf : Nat
  pasid : BitVec 20
  /-- First VA and page size. -/
  va : Dword
  size : Nat
  /-- The IPA page it came from; host entries have none. -/
  ipa : Option Nat
  node : Nat
  dpa : Nat
  host : Bool
  attr : Attr
  /-- Removed by a TLBINV that no TLBSYNC has followed yet (R360). -/
  marked : Bool
  /-- A host-half translation of an access without PASID (R362, R438). -/
  noPasid : Bool := false
  deriving DecidableEq, Repr

/-- An entry of the TLB that the cores of a bench share (R359). -/
inductive BenchEntry where
  /-- A combined translation. -/
  | combined (e : TlbEntry)
  /-- A stage-2 page: its first IPA and size, where it lies, its leaf and the leaf's level. -/
  | stage2 (part : BitVec 4) (ipa size node dpa : Nat) (ent : Dword) (level : Nat) (marked : Bool)
  /-- A stage-1 table: its level, the VA bits above its index, and its IPA. -/
  | table (part : BitVec 4) (vf : Nat) (pasid : BitVec 20) (level tag ipa : Nat) (marked : Bool)
  deriving DecidableEq, Repr

/-- What a stream holds on: the rows of R88, with what is needed to see whether a party hold still stands. -/
inductive Hold where
  | none
  | waitToken (sync : BitVec 4)
  | postToken
  | emptyWide (q : Nat)
  | emptyScalar (q : Nat)
  | fullWide (q : Nat)
  | fullScalar (q : Nat)
  | ringShort (ring bytes : Nat)
  | ringFull (ring bytes : Nat)
  | barrier (k : Nat)
  | mwait
  | ep3
  | rend
  /-- A timed step before its target cycle (R214). -/
  | timed (target : Dword)
  | device (row : Nat)
  deriving DecidableEq, Repr

/-- The registers of a cut (R395). -/
structure Cut where
  pc : Vector Dword 4 := Vector.replicate 4 0
  seq : Vector Dword 4 := Vector.replicate 4 0
  tkcnt : Dword := 0
  qseq : Vector Dword 10 := Vector.replicate 10 0
  deriving DecidableEq, Repr

/-- One core: the state of its four streams, its queues, tokens, barriers, rings, ports and trap registers. -/
structure Core where
  state : CoreState := .free
  /-- Taken out of service (R422). -/
  retired : Bool := false
  /-- The state to which TRET returns (R82). -/
  before : CoreState := .free
  /-- SEQ of M as it was resumed: it meets that word again (R227). -/
  again : Option (BitVec 32) := none
  pl : BitVec 2 := 0
  part : BitVec 4 := 0
  vf : BitVec 8 := 0
  pasid : BitVec 20 := 0
  /-- The PASID of the invoking queue, which TRET restores (R399). -/
  jobPasid : BitVec 20 := 0
  g : Vector Dword 32 := Vector.replicate 32 0
  cx : Vector Dword 16 := Vector.replicate 16 0
  cm : Vector Dword 16 := Vector.replicate 16 0
  cv : Vector Dword 16 := Vector.replicate 16 0
  v : Vector (BitVec 2048) 28 := Vector.replicate 28 0
  vshape : Dword := 0
  acc : Vector (BitVec 131072) 4 := Vector.replicate 4 0
  td : Vector (BitVec 256) 8 := Vector.replicate 8 0
  st : Vector Desc 16 := Vector.replicate 16 {}
  mp : Vector (BitVec 128) 16 := Vector.replicate 16 0
  mesh : Dword := 0
  rl : Vector Dword 16 := Vector.replicate 16 0
  bar : Vector Barrier 48 := Vector.replicate 48 {}
  frit : Vector FritTable 8 := Vector.replicate 8 {}
  marker : Vector Dword 16 := Vector.replicate 16 0
  decoded : List Decoded := []
  /-- lq0 to lq3, sq0, sq1 (R20). -/
  wq : Vector WideQueue 6 := Vector.replicate 6 {}
  /-- S→V, V→S, S→M, S→X (R20, R395). -/
  sq : Vector ScalarQueue 4 := Vector.replicate 4 {}
  fills : Vector (List QueueFill) 4 := Vector.replicate 4 []
  /-- S→X, X→S, X→M, M→X, M→V, V→M, V→S, S→V (R395). -/
  tok : Vector (BitVec 5) 8 := Vector.replicate 8 0
  /-- Posts pending at retirement (R393). -/
  pend : BitVec 8 := 0
  /-- Posts owed by a word that holds at retirement: left in bit 1, right in bit 0 (R19). -/
  owed : Vector (BitVec 2) 4 := Vector.replicate 4 0
  /-- What each token FIFO and each queue has taken in and given out in this cycle, which the other side sees from the next
  (R19, R20): the FIFOs in the order of `tok`, then the queues in the order of QSEQ. -/
  fresh : Vector (BitVec 5) 18 := Vector.replicate 18 0
  gone : Vector (BitVec 5) 18 := Vector.replicate 18 0
  /-- S at PL0, PL1, PL2, then X, M, V (R398). -/
  loops : Vector LoopStack 6 := Vector.replicate 6 {}
  /-- S, X, M, V. -/
  pc : Vector Dword 4 := Vector.replicate 4 0
  seq : Vector (BitVec 32) 4 := Vector.replicate 4 0
  arrived : Vector Bool 4 := Vector.replicate 4 false
  /-- The hold each stream was last found in (R88). -/
  hold : Vector Hold 4 := Vector.replicate 4 .none
  /-- A stream stopped at its word by a fault of its own during another's drain (R393). -/
  stopped : Vector Bool 4 := Vector.replicate 4 false
  monitor : Monitor := .disarmed
  ports : Vector Port 5 := Vector.replicate 5 {}
  /-- Writes logged while a command of S is untaken (R397). -/
  logged : Nat := 0
  pushes : Nat := 0
  stores : List PendingStore := []
  waiting : Waiting := .none
  /-- The same for the word of X that stands at issue. -/
  xwait : Waiting := .none
  /-- What the fetch of each stream waits for at a peer (R264). -/
  fwait : Vector Waiting 4 := Vector.replicate 4 .none
  /-- The lines that prefetches have requested at peers; the accesses at peers of walks and of ep4. -/
  ahead : List Ahead := []
  remote : List Remote := []
  steps : List MStep := []
  xfers : List Transfer := []
  /-- Rings in which a producer's transfer has failed: no later entry becomes complete (R235). -/
  blocked : BitVec 16 := 0
  lastStep : Option Dword := none
  tref : Dword := 0
  tvalid : Bool := false
  wreq : BitVec 3 := 1
  stall : BitVec 20 := 0
  /-- The stall counter has wrapped, and the stall fault is due (R92). -/
  wrapped : Bool := false
  pending : Option Pending := none
  cut : Cut := {}
  abandon : Bool := false
  wsel : Dword := 0
  /-- TCAUSE, TDETAIL, TADDR, TWORD, TVEC, TSCR of PL1 and of PL2 (R398, R401). -/
  tr1 : Vector Dword 6 := Vector.replicate 6 0
  tr2 : Vector Dword 6 := Vector.replicate 6 0
  tepc2 : Dword := 0
  /-- KILN when the last schedule-miss fault was raised, which R216 has recorded and no register shows (assumption log 31). -/
  missKiln : Dword := 0
  fsyn1 : Dword := 0
  fva1 : Dword := 0
  fsyn2 : Dword := 0
  fva2 : Dword := 0
  fipa2 : Dword := 0
  records : List Record := []
  recOvf : BitVec 32 := 0
  /-- Flipped bits of the core's registers, accumulators, descriptors and queue entries, by word of the state window (R411,
  R413). -/
  flips : Tab (List Nat) := []
  pfdrop : Dword := 0
  /-- Instruction caches of S, X, M, V (R17). -/
  icache : Vector (List FetchLine) 4 := Vector.replicate 4 []
  /-- L1 lines by the memory key of their first byte (R258). -/
  l1 : Tab Moesi := []
  /-- The TLBs of S and of X, the newest entry first (R17, R359). -/
  tlb : List TlbEntry := []
  xtlb : List TlbEntry := []
  /-- The free value that the scratchpad's bytes hold since the job started, and which of them have been written since, in
  rows of 256 (R23, R86). -/
  seed : Option Nat := none
  known : Tab (BitVec 256) := []
  /-- The invocation the job belongs to, and the loop indices it was started with (R76, R410). -/
  job : Nat := 0
  /-- The ranges of the XPEER at issue that have been asked for (R239). -/
  xasked : Nat := 0
  /-- TLBINV and TLBSYNC requests at other dies that are not acknowledged, and whether TLBSYNC has sent its own. -/
  invals : List Nat := []
  synced : Bool := false
  index : Vector Dword 6 := Vector.replicate 6 0
  spres : Nat := 0
  timed : Bool := false
  /-- Stack-side products that S has handed over (R309). -/
  products : List Product := []
  /-- The boundary that the FENCE.HB at issue waits for (R279). -/
  boundary : Option Dword := none
  deriving DecidableEq, Repr

/-! ### Memory beside its bytes -/

/-- The metadata of a seal tile (R368): owner, key, generation, version and flags. Its TAG is kept as what it
authenticates: the value of the key, the nonce and the associated data of the seal; `intact` is false once its ciphertext
or tag has been altered (assumption log 9). -/
structure Tile where
  part : BitVec 4 := 0
  key : BitVec 4 := 0
  gen : Bool := false
  zero : Bool := false
  poison : Bool := false
  version : BitVec 48 := 0
  keyVal : BitVec 256 := 0
  intact : Bool := true
  nonce : BitVec 96 := 0
  aad : BitVec 64 := 0
  /-- FLAGS[7:3], reserved. -/
  flags : BitVec 5 := 0
  deriving DecidableEq, Repr

/-- An L2 block: one tile in 16 sectors, what HBM held where a sector is dirty, and its last writer (R260). -/
structure L2Block where
  valid : BitVec 16 := 0
  dirty : BitVec 16 := 0
  saved : Tab (BitVec 1024) := []
  core : Nat := 0
  stream : Stream := .s
  pc : Dword := 0
  va : Dword := 0
  part : BitVec 4 := 0
  key : BitVec 4 := 0
  job : Nat := 0
  /-- Last written at PL2, which keeps the tile's owner (R438). -/
  anyOwner : Bool := false
  /-- The tile's version once it is known. -/
  version : Option (BitVec 48) := none
  deriving DecidableEq, Repr

/-! ### The fabric -/

/-- Where a flit in flight stands: ejected at its destination, formed at a die and waiting for its router, or released by
the link layer of a port to the router of its die (R134, R138). -/
inductive Spot where
  | arrived
  | candidate (die : Nat)
  /-- Received at a port, and not yet sent on by the router of its die. -/
  | received (die port : Nat)
  deriving DecidableEq, Repr

/-- A flit: the header fields of R131 and eight payload words; then what the model carries beside them, since the header
has no place for it (assumption log 21): the seal key and AM of the page, the bytes of the payload that are written, and
the memory error an answer reports. -/
structure Flit where
  /-- Where it stands: no part of its 80 bytes. -/
  spot : Spot := .arrived
  dest : BitVec 12
  src : BitVec 12
  inc : BitVec 4
  stamp : BitVec 24
  fpid : BitVec 12
  msgid : BitVec 10
  seq : BitVec 6
  last : Bool
  kind : BitVec 4
  nwm1 : BitVec 3
  retry : Bool
  xl : Bool
  addr : BitVec 35
  data : Vector Dword 8
  key : BitVec 4 := 0
  am : Bool := false
  enable : BitVec 64 := 0
  /-- The last byte written takes only its low nibble (R233). -/
  low : Bool := false
  cause : BitVec 8 := 0
  /-- The bytes of elements that their source could not read (R413). -/
  bad : BitVec 64 := 0
  /-- The agent of the package whose access it carries, and the VA of its first byte. -/
  sender : Option Agent := none
  va : Dword := 0
  deriving DecidableEq, Repr

/-- Who waits for a request a die has sent (R137, R138). -/
inductive Owner where
  /-- The S word of a core that waits in `Core.waiting`. -/
  | sword (core : Nat)
  /-- A pending store of a core. -/
  | store (core : Nat)
  /-- An engine command of a core's port. -/
  | engine (core port : Nat)
  /-- A transfer of a core. -/
  | xfer (core : Nat)
  /-- A word of X that is waiting for a translation at another node. -/
  | xword (core : Nat)
  /-- A stream of a core that fetches. -/
  | fetch (core : Nat) (st : Stream)
  /-- A prefetch of a core's instruction cache; an access of a walk or of ep4. -/
  | ahead (core : Nat)
  | remote (core : Nat)
  /-- A part of a piece of a partition's reshard to a destination, by the piece's number; the reshard's digest. -/
  | piece (part dst piece : Nat)
  | digest (part dst : Nat)
  /-- A control message of a partition. -/
  | ctrl (part : Nat)
  /-- A TLBINV or TLBSYNC request of a core to another die (R360, R361). -/
  | inval (core : Nat)
  deriving DecidableEq, Repr

/-- A request that has not completed (R131, R137, R138): the range it names, the flits formed and not answered, those
sent once an XLATRSP has come, and what the answers have brought. -/
structure Request where
  msgid : Nat
  dest : BitVec 12
  owner : Owner
  kind : BitVec 4
  part : BitVec 4
  addr : Nat
  len : Nat
  /-- The VA that the range was reached by. -/
  va : Dword := 0
  fault : Dword × Dword := (0, 0)
  flits : List Flit
  after : List Flit := []
  /-- A range that its destination translates, the bytes that it is known to cover, whether its XLATRSP is still to come,
  and whether its flits wait only for earlier writes to the same bytes (R133, R140). -/
  range : Bool := false
  covers : List (Nat × Nat) := []
  asked : Bool := false
  ready : Bool := false
  words : Tab Dword := []
  status : BitVec 8 := 0
  cause : BitVec 8 := 0
  refusals : Nat := 0
  lastSent : Dword := 0
  /-- When it was made (R279). -/
  born : Dword := 0
  retry : List (Dword × Flit) := []
  deriving DecidableEq, Repr

/-- An entry of a die's cullet table (R133). -/
structure Cullet where
  src : BitVec 12
  inc : BitVec 4
  msgid : BitVec 10
  bitmap : BitVec 64
  total : Option Nat
  write : Bool
  /-- The translated range: its VA, and its pages. -/
  range : Option (Dword × List Piece)
  /-- 0 none, 1 an ep3 arrival, 2 a reshard piece. -/
  action : Nat
  dcore : Nat
  element : Dword
  job : Nat
  fpid : BitVec 12
  /-- When its first flit came. -/
  born : Dword := 0
  /-- The first error a flit of the message met, and the memory error behind it. -/
  status : BitVec 8 := 0
  cause : BitVec 8 := 0
  /-- The words of a reshard piece that have come (R328). -/
  words : Tab Dword := []
  /-- Bits of it that have flipped (R411). -/
  flips : List Nat := []
  deriving DecidableEq, Repr

/-- An element of a piece: its bit offset from BASE, its global index after the pad rule (none for the all-zero code), the
nodes that supply it, in the order of R164, and the axis over which the landing die combines what they send (R322, R328). -/
structure Element where
  off : Nat
  index : Option (List Nat)
  suppliers : List Nat
  axis : Option Nat := none
  deriving DecidableEq, Repr

/-- A piece of a reshard that lands at a node (R328, R441): its number, its step, the tile it writes, its elements and the
nodes that supply data to it. -/
structure ReshardPiece where
  number : Nat
  step : Nat
  tile : Nat
  elements : List Element
  suppliers : List Nat
  /-- What the engine's staging memory holds of it: the node that sent it, the VA of its first byte, and its bytes (R328). -/
  got : List (Nat × Dword × List Byte) := []
  /-- The error that ends it. -/
  status : BitVec 8 := 0
  deriving DecidableEq, Repr

/-- What a node sends to a piece of a node, or of SLICE does in its own: the elements it supplies and the nodes whose source
shards their values read (R324, R328, R333). -/
structure ReshardPart where
  node : Nat
  piece : Nat
  step : Nat
  slice : Bool
  elements : List Element
  reads : List Nat
  deriving DecidableEq, Repr

/-- A reshard on a die (R321 to R329). -/
structure Reshard where
  part : Nat
  dst : Nat
  core : Nat
  job : Nat
  ctx : Dword
  pc : Dword
  header : Dword
  source : Dword
  images : Images
  taken : Dword
  /-- Nodes whose digests have come, and nodes to which its own has not been sent. -/
  heard : List Nat := []
  untold : List Nat := []
  nstep : Nat := 0
  /-- The pieces that have not landed here, the parts that this node has not sent, and those it has sent and that are not
  acknowledged: the message and the nodes whose source shards it read. -/
  pieces : List ReshardPiece := []
  parts : List ReshardPart := []
  out : List (Nat × List Nat) := []
  landed : Nat := 0
  /-- Pieces to which this node supplies data. -/
  supplied : Nat := 0
  status : BitVec 8 := 0
  planned : Bool := false
  /-- The final arrival has been pushed; the source result has been; and so the reshard is over. -/
  arrived : Bool := false
  sourced : Bool := false
  closed : Bool := false
  deriving DecidableEq, Repr

/-- A frame of a link: the CTR of its first flit, the number of the key that seals it, its tag, whether it is a SWITCH
flit, and its flits (R383, R385). -/
structure Frame where
  ctr : Nat
  key : Nat := 0
  tag : BitVec 128
  switch : Bool := false
  flits : List Flit
  deriving DecidableEq, Repr

/-- One end of a link: up, retired, and the frames sent and not acknowledged (R13, R138, R383). -/
structure Link where
  up : Bool := false
  retired : Bool := false
  /-- RETIRE.LINK waits for the acknowledgement of the frames sent (R424). -/
  draining : Bool := false
  /-- CTR of the next flit sent, and of the last frame accepted; none before the first (R383). -/
  ctr : Nat := 0
  rxCtr : Option Nat := none
  /-- The numbers of the keys in use for sending and for receiving (the keys themselves are never seen; R385). -/
  key : Nat := 0
  rxKey : Nat := 0
  unacked : List Frame := []
  /-- Flits of the frame that the transmitter has not closed (R383). -/
  opened : List Flit := []
  /-- Frames that failed in this kiln tick, and the CTR of the failed frame that the receiver waits for (R386). -/
  fails : Nat := 0
  discarding : Option Nat := none
  /-- CTR stands at 2^48 − 2 and no next key is ready (R385). -/
  keywait : Bool := false
  /-- The node at the other end, where the port is cabled. -/
  peer : Option Nat := none
  deriving DecidableEq, Repr

/-! ### Queues, programs and partitions -/

/-- An entry of a parked record (R408): a message that is still being reassembled, or an arrival that is whole. -/
structure SavedEntry where
  snode : BitVec 12
  sinc : BitVec 4
  /-- The package number of the core; the record of R408 holds its low 8 bits. -/
  dcore : Nat
  msgid : BitVec 10
  bitmap : BitVec 64
  count : Nat
  whole : Bool
  element : Dword
  /-- The table entry of a message that is not whole. -/
  entry : Option Cullet := none
  deriving DecidableEq, Repr

/-- A hardware queue slot (R113) with the command it runs. -/
structure QueueSlot where
  pqn : Nat
  /-- The partition that owned the queue when it was mapped. -/
  part : Nat := 0
  desc : BitVec 512
  w : Dword
  ridx : Dword
  pass : Dword
  /-- The command entry being run (R114, R115). -/
  cmd : Option (BitVec 2048)
  runnable : Bool
  halted : Bool
  is : Vector Dword 8
  /-- PARK has been asked for; and what the invocation left at the boundary at which it parked (R407). -/
  park : Bool := false
  parked : Bool := false
  saved : List SavedEntry := []
  /-- The entries that UNPARK has given back while no node of the invocation runs, and whether the next node reads the
  relocation values again (R117, R408). -/
  given : List SavedEntry := []
  again : Bool := false
  /-- Its VF has been unbound since it was mapped: it is unmapped once its command ends (R367). -/
  leaving : Bool := false
  /-- The error that ends the invocation at its node boundary, and the nodes that have reached theirs (R118, R124). -/
  err : Nat := 0
  nodes : Nat := 0
  deriving DecidableEq, Repr

/-- A program made resident by firmware: its version, its LNRs with resolved entry PCs, and its images (R69, R73). -/
structure Program where
  pinned : Bool
  version : BitVec 32
  lnrs : List (BitVec 4096)
  /-- Tensor records by identifier (R318). -/
  tensors : Tab (BitVec 512)
  /-- The tensor records whose BASE a relocation register supplies, with its addend (R72). -/
  relocs : List (Nat × Nat × Dword)
  maps : Tab (BitVec 128)
  /-- The explicit MESH image; none for the auto image (R67). -/
  mesh : Option Dword
  deriving DecidableEq, Repr

/-- The node an invocation runs, on one die (R77, R81). -/
structure Walk where
  ext : Vector Nat 6
  next : Nat
  total : Nat
  retired : Nat
  started : Bool
  deriving DecidableEq, Repr

/-- The node that a partition runs (R85, R120). -/
structure Running where
  slot : Nat
  die : Nat
  job : Nat
  lnr : BitVec 4096
  walks : Vector (Option Walk) 4
  abandoned : Bool
  /-- A node of the node set has reset: no further iteration starts (R419). -/
  stopped : Bool := false
  /-- The stride and COST charged at dispatch, and the flits counted since (R122). -/
  stride : Nat := 0
  cost : Nat := 0
  flits : Nat
  /-- Nodes that have reported their part of the boundary, and whose reports have arrived at the home die (R85). -/
  sent : List Nat := []
  told : List Nat := []
  deriving DecidableEq, Repr

/-- A partition (R344, R346). -/
structure Part where
  pbench : Dword := 0
  pbenchNext : Option Dword := none
  pnset : Dword := 0
  v : Dword := 0
  running : Option Running := none
  /-- The queue dispatched last (R407). -/
  last : Option Nat := none
  /-- Tensor table, maps and MESH of the current invocation (R69). -/
  tensors : Tab (BitVec 512) := []
  rl : Vector Dword 16 := Vector.replicate 16 0
  deriving DecidableEq, Repr

/-- The registers of a function's BAR0 (R349) and its PRI state (R363). -/
structure Fn where
  qdt : Dword := 0
  s1ctb : Dword := 0
  tvec : Dword := 0
  evbase : Dword := 0
  evlog2n : Dword := 0
  evwidx : Dword := 0
  evridx : Dword := 0
  ovf : Bool := false
  ovfcnt : BitVec 32 := 0
  nonce : Vector Dword 4 := Vector.replicate 4 0
  attaddr : Dword := 0
  attBusy : Bool := false
  attResult : BitVec 8 := 0
  vfbind : Dword := 0
  /-- The firmware shadow of notify registers, by queue (R113). -/
  shadow : Tab Dword := []
  priOn : Bool := false
  priStopped : Bool := false
  /-- The host has enabled AtomicOp completion on the function's port (R296). -/
  atomicOn : Bool := false
  allowance : Nat := 0
  deriving DecidableEq, Repr

/-- A page request group (R363). A group that closes goes to the end of the list, which keeps the order of closing. -/
structure Group where
  fn : Nat
  pasid : Option (BitVec 20)
  region : Nat
  pages : List Nat
  opened : Dword
  closed : Bool
  /-- The 9-bit index under which its requests were sent. -/
  index : Option Nat
  id : Nat
  deriving DecidableEq, Repr

/-- A page of host memory granted through ATS (R250, R362). -/
structure Grant where
  fn : Nat
  pasid : Option (BitVec 20)
  page : Nat
  hpa : Nat
  r : Bool
  w : Bool
  deriving DecidableEq, Repr

/-! ### Dies -/

/-- The activity counters of one partition on one die (R130). -/
structure Counters where
  hbmt : Vector Nat 8 := Vector.replicate 8 0
  /-- Units of HBMT admitted ahead for an access that waits for more. -/
  paid : Vector Nat 8 := Vector.replicate 8 0
  flit : Nat := 0
  piece : Nat := 0
  stkc : Nat := 0
  deriving DecidableEq, Repr

/-- A key slot of a partition on a die: two generations and which is current (R377, R379, R381). -/
structure KeySlot where
  cur : Bool := false
  val : Vector (BitVec 256) 2 := Vector.replicate 2 0
  full : Vector Bool 2 := Vector.replicate 2 false
  /-- The generation came from GEN, and is lost when the die resets (R418). -/
  fresh : Vector Bool 2 := Vector.replicate 2 false
  hctr : Vector Dword 2 := Vector.replicate 2 0
  epoch : BitVec 32 := 0
  err : BitVec 8 := 0
  sweep : Bool := false
  /-- A generation installed at the next kiln tick boundary, and whether GEN made it (R379). -/
  pending : Option (BitVec 256 × Bool) := none
  deriving DecidableEq, Repr

/-- One die: its memory domain, clock-tick state, keys, queue slots and fabric node. -/
structure Die where
  ilrows : BitVec 20 := 0
  ilrowsNext : Option (BitVec 20) := none
  live : BitVec 64 := BitVec.allOnes 64
  ntok : BitVec 5 := 16
  ntokNext : Option (BitVec 5) := none
  /-- VALID and CORE of the slot wheel's positions (R280). -/
  scown : Vector (BitVec 9) 256 := Vector.ofFn fun p => 1#1 ++ BitVec.ofNat 8 p.val
  scownNext : List (Nat × BitVec 9) := []
  budget : Vector Dword 16 := Vector.replicate 16 0xFFFFFFFFFFFFFFF0
  used : Vector Counters 16 := Vector.replicate 16 {}
  /-- What a budget holds, by number, in the order in which it was held: a partition's accesses under its number, its
  stack-engine commands under 16 more (R130). -/
  heldBy : List (Nat × Nat) := []
  ps2root : Vector Dword 16 := Vector.replicate 16 0
  keys : Tab KeySlot := []
  keycmd : Option Dword := none
  slots : Tab QueueSlot := []
  inc : BitVec 4 := 0
  inReset : Bool := false
  /-- EXPINC of each node; an unlisted node is unknown (R415). -/
  expinc : Tab (BitVec 4) := []
  cullet : List Cullet := []
  /-- Nodes whose acknowledgement of this die's announce has not come, and flits that wait for it (R417). -/
  unknown : List Nat := []
  delayed : List Flit := []
  reshards : List Reshard := []
  /-- Digests that came before this die's own command: partition, destination, node, and when (R321). -/
  early : List (Nat × Nat × Nat × Dword) := []
  reqs : List Request := []
  /-- Capped flits formed and not yet injected (R137). -/
  formed : List Flit := []
  capf : Nat := 0
  /-- Transit flits and deflected transit flits of this tick, and the throttle level DFR gives (R137). -/
  transit : Nat := 0
  deflected : Nat := 0
  dfrLevel : Nat := 0
  links : Vector Link 6 := Vector.replicate 6 {}
  /-- What routing updates have told the die's router: port, node, and the neighbour's hop distance to it (R135). -/
  hops : List (Nat × Nat × Nat) := []
  /-- Tables of the stack-side units, by channel, partition and table (R307). -/
  stackTables : Tab FritTable := []
  /-- The tiles of its range that the key command which runs has passed (R378). -/
  keyDone : Nat := 0
  /-- The range of tiles that its parameter block named when it started. -/
  keyRange : Option (Nat × Nat) := none
  /-- The firmware image that runs (R389, R425). -/
  fw : List Byte := []
  /-- Correctable errors found in each channel (R421). -/
  corrected : Tab Nat := []
  deriving DecidableEq, Repr

/-! ### The service block and what outlives a reset -/

/-- The service registers of the physical function (R420, R429, R430). -/
structure Service where
  arg : Dword := 0
  /-- The SVCCMD word that runs. -/
  busy : Option Dword := none
  result : BitVec 8 := 0
  lastOp : BitVec 8 := 0
  progress : BitVec 40 := 0
  reason : BitVec 8 := 0
  failed : BitVec 8 := 0
  attempts : BitVec 8 := 0
  minimal : Bool := false
  ready : Bool := false
  imgAddr : Dword := 0
  imgLen : Dword := 0
  /-- The payload bit of IMGCTL, whether the loader runs, and its result. -/
  imgRecord : Bool := false
  imgBusy : Bool := false
  imgResult : BitVec 8 := 0
  /-- KILN at step 1 of the boot that has not set READY yet (R429). -/
  bootAt : Option Dword := none
  /-- The configuration record in force (R388). -/
  record : List Byte := []
  /-- How far the running command has come: a link it has begun to drain, the dies that have handed off (R424, R425). -/
  stage : Nat := 0
  /-- The slots whose invocations the running command parks (R423, R426). -/
  parks : List (Nat × Nat) := []
  deriving DecidableEq, Repr

/-- The always-on stores of the dies, as far as a reset does not touch them: the attempt counter, the highest record SEQ
accepted, and the thermal level recorded (R388, R429, R431). Incarnations and retirements stand with their dies, cores
and links. -/
structure AlwaysOn where
  attempts : BitVec 2 := 0
  seq : BitVec 32 := 0
  thermal : BitVec 8 := 0
  /-- The REASON and DIE of the last failed boot (R430). -/
  reason : BitVec 8 := 0
  failed : BitVec 8 := 0
  deriving DecidableEq, Repr

/-- Board flash: the configuration record and the firmware image (R388, R389). -/
structure Flash where
  record : List Byte := []
  image : List Byte := []
  deriving DecidableEq, Repr

/-- A checkpoint at a buddy node or in CXL memory (R426): what each die streamed. -/
structure Checkpoint where
  /-- CXL memory rather than a buddy, and the host-half address or the node. -/
  cxl : Bool
  place : Dword
  mem : List Host.Cell
  tiles : Tab Tile
  ilrows : Vector (BitVec 20) 4
  live : Vector (BitVec 64) 4
  /-- The parked records: queue, node pointer and scalars, entries. -/
  parked : List (Nat × Vector Dword 8 × List SavedEntry)
  /-- The node numbers of the dies. -/
  nodes : Vector Nat 4 := Vector.replicate 4 0
  /-- What CXL memory was given: host-half addresses and bytes. -/
  stream : List (Nat × List Byte) := []
  deriving DecidableEq, Repr

/-- A job off its core: SAVECORE has taken it into an image, or it waits in the image of a core that has been retired. The
core it ran on, its partition and loop indices, its invocation, and in the second case the image (R400, R406, R409,
R422). -/
structure SavedJob where
  core : Nat
  part : BitVec 4
  index : Vector Dword 6
  job : Nat
  image : Option (List Byte) := none
  deriving DecidableEq, Repr

/-! ### The package -/

/-- What the world outside the package, or a choice the spec leaves to the device, does next. -/
inductive Env where
  /-- The host writes bytes to its own memory (R265). -/
  | hostWrite (hpa : Nat) (bytes : List Byte)
  /-- The host's tables grant or withdraw a page (R250, R362). -/
  | hostGrant (g : Grant)
  | hostRevoke (fn : Nat) (page : Nat)
  /-- The host sets a function's PRI allowance (R363). -/
  | hostPri (fn allowance : Nat)
  /-- Firmware makes a program slot resident or removes it (R69, R78). -/
  | resident (part slot : Nat) (p : Program)
  | evictProgram (part slot : Nat)
  /-- A frame arrives from outside the package at a port (R383). -/
  | arrive (die port : Nat) (f : Frame)
  /-- The frame that a port has open closes and goes, and its tag comes through whole or damaged (R383, R386). -/
  | transmit (die port : Nat) (good : Bool)
  /-- Firmware sets READY (R429). -/
  | ready
  /-- Firmware writes the record of a parked invocation at a device physical address of its die (R408). -/
  | record (die slot dpa : Nat)
  /-- The board's flash is written from outside. -/
  | flash (f : Flash)
  /-- HBM of these dies will fail its training (R429). -/
  | untrained (dies : List Nat)
  /-- A TLB entry, an instruction-cache line or an L1 line is evicted (R258, R359). -/
  | dropTlb (core : Nat) (n : Nat)
  | dropXtlb (core : Nat) (n : Nat)
  | dropBench (bench : Nat) (n : Nat)
  | dropFetch (core : Nat) (st : Stream) (va : Dword)
  | dropL1 (core key : Nat)
  /-- A monitor is triggered without a write (R107). -/
  | wake (core : Nat)
  /-- A port is cabled to a peer node outside the package (R13). -/
  | cable (die port node : Nat)
  /-- The host reads a 64-bit register of a function's BAR0 (R349). -/
  | readRegister (fn offset : Nat)
  deriving DecidableEq, Repr

/-- Work that is outstanding in the package and goes on when its turn comes: what the scheduler of an empty agenda lists
(assumption log 27). -/
inductive Due where
  /-- A pending store, a reserved queue entry, a transfer, a matrix step of a core. -/
  | store (core n : Nat)
  | fill (core q : Nat)
  | xfer (core n : Nat)
  | matrix (core : Nat)
  /-- The command at the head of a core's engine port; a stack-side product under way. -/
  | engine (core port : Nat)
  | product (core : Nat)
  /-- A trap whose stop may be complete, an asynchronous record, an iteration at its end, a stall counter at its wrap. -/
  | trap (core : Nat)
  | record (core : Nat)
  | iteration (core : Nat)
  | stall (core : Nat)
  /-- A flit in flight; a cycle of a die's router; frames of a port not acknowledged. -/
  | flit (n : Nat)
  | router (die : Nat)
  | acks (die port : Nat)
  /-- A refused flit or an unanswered request of a die. -/
  | retry (die msgid : Nat)
  | timeout (die msgid : Nat)
  /-- A die's reshards, its arrivals, and the key command that runs. -/
  | reshard (die : Nat)
  | digest (die n : Nat)
  | arrival (die n : Nat)
  | key (die : Nat)
  /-- A slot with a command to fetch; a partition's dispatcher, walkers and boundary. -/
  | fetch (die slot : Nat)
  | dispatch (part : Nat)
  | walk (part die : Nat)
  | boundary (part : Nat)
  /-- A frame at a port, a page request group, an attestation, the service command, the image loader, the boot timer. -/
  | frame (die port : Nat)
  | group (n : Nat)
  | attest (fn : Nat)
  | service
  | loader
  | boot
  /-- A job that waits in the image of a retired core. -/
  | image (n : Nat)
  deriving DecidableEq, Repr

/-- The next thing to happen: a stream's word, idle cycles, an event of the table, outstanding work, or the
environment. -/
inductive Agenda where
  | run (core : Nat) (st : Stream)
  | idle (cycles : Nat)
  | event (i : Instr)
  | due (d : Due)
  | env (e : Env)
  deriving DecidableEq, Repr

/-- Messages to the host that leave no trace in its memory (R125, R349, R363). -/
inductive HostOut where
  | msix (fn vector : Nat)
  | pageRequest (g : Group)
  | invalidationDone (fn : Nat)
  | registerData (fn offset : Nat) (value : Dword)
  deriving DecidableEq, Repr

/-- The whole package. -/
structure State where
  /-- Every byte of HBM, scratchpad and host memory, by memory key (Machine/Mem.lean). -/
  mem : List Host.Cell
  tiles : Tab Tile
  l2 : Tab L2Block
  /-- Flipped bits: of a 32-byte granule of HBM, by memory key / 32; of 8 bytes of a scratchpad or of an L2 or L1 copy,
  by memory key / 8 beside them (R411, R413). -/
  ecc : Tab (List Nat)
  /-- Dies whose HBM does not train (R429). -/
  untrained : List Nat
  dies : Vector Die 4
  cores : Tab Core
  fns : Tab Fn
  parts : Vector Part 16
  programs : Tab Program
  net : List Flit
  /-- Flits sent to nodes outside the package, and frames that have arrived from there. -/
  outbox : List Frame
  inbox : List (Nat × Frame)
  /-- The TLBs of the benches, the newest entry first (R359). -/
  bench : Tab (List BenchEntry)
  grants : List Grant
  groups : List Group
  nextGroup : Nat
  /-- ATS invalidations whose completion has not been sent: function, base, length (R362). -/
  atsInvals : List (Nat × Nat × Nat)
  hostOut : List HostOut
  kiln : Dword
  /-- Package coordinates and torus extents (R13). -/
  coords : Nat × Nat × Nat
  torus : Nat × Nat × Nat
  /-- The core whose stream acts. -/
  turn : Nat × Stream
  agenda : List Agenda
  /-- The model's own counter of free values drawn (assumption log 3). -/
  free : Nat
  /-- The number of the next invocation (a model field that names jobs). -/
  nextJob : Nat
  /-- The package queue number of every job started (R400). -/
  jobs : Tab Nat
  service : Service
  always : AlwaysOn
  flash : Flash
  checkpoints : List Checkpoint
  /-- Jobs off their cores (R406, R422). -/
  saves : List SavedJob
  /-- Flits dropped in this kiln tick (R416, R421). -/
  drops : Nat
  deriving DecidableEq, Repr

/-- A core after reset: the reserved cores of R12 are OFFLINE, all others FREE. -/
def Core.reset (n : Nat) : Core :=
  { state := if n % 256 = 0 then .offline else .free }

/-- The machine right after reset (power-on, before BOOT has run; R429). -/
def State.reset : State where
  mem := []
  tiles := []
  l2 := []
  ecc := []
  untrained := []
  dies := Vector.replicate 4 {}
  cores := []
  fns := []
  parts := Vector.replicate 16 {}
  programs := []
  net := []
  outbox := []
  inbox := []
  bench := []
  grants := []
  groups := []
  nextGroup := 0
  atsInvals := []
  hostOut := []
  kiln := 0
  coords := (0, 0, 0)
  torus := (2, 2, 1)
  turn := (0, .s)
  agenda := []
  free := 0
  nextJob := 1
  jobs := []
  service := {}
  always := {}
  flash := {}
  checkpoints := []
  saves := []
  drops := 0

end Sys2Proof.Machine
end

