-- ==== Sys2Proof/Machine/Mem.lean ====
section
/-! DEFINITION. Memory as bytes: one list of cells for HBM, the scratchpads and host memory, its canonical form, and
little-endian reads and writes of any width (R5). -/

namespace Sys2Proof.Machine

/-! ### Keys: one number for every byte of the package and of its host -/

/-- Byte `b` of a physical channel of a node (R255, R257). -/
def Key.hbm (node chan b : Nat) : Nat := (node * 64 + chan) * 2 ^ 31 + b

/-- Byte `off` of a core's scratchpad (R16). -/
def Key.scratch (core off : Nat) : Nat := 2 ^ 50 + core * 2 ^ 20 + off

/-- A byte of host physical memory (R265). -/
def Key.host (hpa : Nat) : Nat := 2 ^ 64 + hpa

/-! ### The list of cells -/

/-- What a byte reads as that nothing has written (assumption log 1). -/
def Memory.unlisted : Byte := 0

/-- One byte of memory. -/
def Memory.read : List Host.Cell → Nat → Byte
  | [], _ => Memory.unlisted
  | (k, b) :: rest, a => if a = k then b else if a < k then Memory.unlisted else Memory.read rest a

/-- A cell put in front, unless it holds what an unlisted byte reads as. -/
def Memory.cons (a : Nat) (b : Byte) (rest : List Host.Cell) : List Host.Cell :=
  if b = Memory.unlisted then rest else (a, b) :: rest

/-- One byte written; the list keeps rising addresses and lists no byte equal to the unlisted one. -/
def Memory.write : List Host.Cell → Nat → Byte → List Host.Cell
  | [], a, b => Memory.cons a b []
  | (k, x) :: rest, a, b =>
    if a = k then Memory.cons a b rest
    else if a < k then Memory.cons a b ((k, x) :: rest)
    else (k, x) :: Memory.write rest a b

/-- All addresses of a list lie above a bound, rise, and no byte is the unlisted one. -/
def Memory.wfFrom : Option Nat → List Host.Cell → Bool
  | _, [] => true
  | lo, (k, b) :: rest =>
    (match lo with | none => true | some l => decide (l < k)) && b != Memory.unlisted &&
      Memory.wfFrom (some k) rest

/-- The canonical form of memory. -/
def Memory.wf (m : List Host.Cell) : Bool := Memory.wfFrom none m

/-- Bytes at consecutive keys. -/
def Memory.readN (m : List Host.Cell) (a : Nat) : Nat → List Byte
  | 0 => []
  | n + 1 => Memory.read m a :: Memory.readN m (a + 1) n

/-- Bytes written at consecutive keys. -/
def Memory.writeN (m : List Host.Cell) (a : Nat) : List Byte → List Host.Cell
  | [] => m
  | b :: rest => Memory.writeN (Memory.write m a b) (a + 1) rest

/-! ### Little-endian values -/

/-- The number that bytes hold, the first the least significant (R5). -/
def leNat : List Byte → Nat
  | [] => 0
  | b :: rest => b.toNat + 256 * leNat rest

/-- The `n` low bytes of a number, the least significant first (R5). -/
def leBytes : Nat → Nat → List Byte
  | 0, _ => []
  | n + 1, x => BitVec.ofNat 8 x :: leBytes n (x / 256)

/-! ### Vectors by number -/

/-- Entry `i`, or a default beyond the end. -/
def vget {α : Type} {n : Nat} (v : Vector α n) (d : α) (i : Nat) : α := v[i]?.getD d

/-- Entry `i` changed; nothing beyond the end. -/
def vset {α : Type} {n : Nat} (v : Vector α n) (i : Nat) (a : α) : Vector α n := v.setIfInBounds i a

/-! ### Sorting -/

/-- An element put in its place in a sorted list. -/
def insertBy {α : Type} (le : α → α → Bool) (x : α) : List α → List α
  | [] => [x]
  | y :: rest => if le x y then x :: y :: rest else y :: insertBy le x rest

/-- A list sorted by an order. -/
def sortBy {α : Type} (le : α → α → Bool) : List α → List α
  | [] => []
  | x :: rest => insertBy le x (sortBy le rest)

/-! ### Bit fields -/

/-- Bits [hi:lo] of a 64-bit value. -/
def bits (x : Dword) (hi lo : Nat) : Nat := x.toNat / 2 ^ lo % 2 ^ (hi + 1 - lo)

/-- Bit `i` of a 64-bit value. -/
def bit (x : Dword) (i : Nat) : Bool := x.getLsbD i

/-- A field's value moved to its place. -/
def place (v lo : Nat) : Dword := BitVec.ofNat 64 (v * 2 ^ lo)

/-- A value with bits [hi:lo] replaced. -/
def withBits (x : Dword) (hi lo v : Nat) : Dword :=
  x &&& ~~~(place (2 ^ (hi + 1 - lo) - 1) lo) ||| place (v % 2 ^ (hi + 1 - lo)) lo

/-- The little-endian number of `n` bytes at an offset. -/
def at8 (bs : List Byte) (off n : Nat) : Nat := leNat ((bs.drop off).take n)

end Sys2Proof.Machine
end

