-- ==== Sys2Proof/Machine/Crypto.lean ====
section
/-! DEFINITION. The cryptographic functions that the spec names (R369, R378, R381, R387 to R390): SHA-256, HKDF-SHA-256,
AES-256 with GCM and key wrap, and ECDSA and ECDH over P-256. Their algorithms are those of the public standards of these
names, which the spec does not repeat (PRESUMED, assumption log 59). A hash, a tag or a key is a number whose lowest byte is
the first of its byte string; a public key is x + 2^256 × y, a signature r + 2^256 × s. -/

namespace Sys2Proof.Machine

/-! ### SHA-256 (FIPS 180-4) -/

/-- The largest x below 2^(n + 1) with f x at most `a`, for a rising f. -/
def rootBits (f : Nat → Nat) (a : Nat) : Nat → Nat → Nat
  | 0, x => x
  | n + 1, x => rootBits f a n (if f (x + 2 ^ n) ≤ a then x + 2 ^ n else x)

/-- The first 64 primes. -/
def primes : List Nat :=
  ((List.range 312).filter fun n => 2 ≤ n && (List.range n).all fun d => d < 2 || n % d != 0).take 64

/-- The initial hash value: the first 32 fraction bits of the square roots of the first 8 primes. -/
def shaInit : List Nat := (primes.take 8).map fun p => rootBits (fun x => x * x) (p * 2 ^ 64) 40 0 % 2 ^ 32

/-- The round constants: the first 32 fraction bits of the cube roots of the first 64 primes. -/
def shaRounds : List Nat := primes.map fun p => rootBits (fun x => x * x * x) (p * 2 ^ 96) 40 0 % 2 ^ 32

/-- A 32-bit word rotated right. -/
def rotr (x n : Nat) : Nat := (x >>> n) ||| (x <<< (32 - n)) % 2 ^ 32

/-- The big-endian number of bytes. -/
def beNat (bs : List Byte) : Nat := leNat bs.reverse
def beBytes (n x : Nat) : List Byte := (leBytes n x).reverse

/-- Consecutive parts of `n` bytes; `f` bounds their number. -/
def blocksOf (n : Nat) : Nat → List Byte → List (List Byte)
  | 0, _ => []
  | f + 1, bs => if bs.isEmpty then [] else bs.take n :: blocksOf n f (bs.drop n)

/-- The message schedule: its words, the newest first. -/
def shaSchedule : Nat → List Nat → List Nat
  | 0, w => w
  | n + 1, w =>
    let a := w.getD 1 0
    let b := w.getD 14 0
    let s1 := rotr a 17 ^^^ rotr a 19 ^^^ (a >>> 10)
    let s0 := rotr b 7 ^^^ rotr b 18 ^^^ (b >>> 3)
    shaSchedule n ((s1 + w.getD 6 0 + s0 + w.getD 15 0) % 2 ^ 32 :: w)

/-- One block of a message. -/
def shaBlock (h : List Nat) (block : List Byte) : List Nat :=
  let w := (shaSchedule 48 (((blocksOf 4 16 block).map beNat).reverse)).reverse
  let v := (w.zip shaRounds).foldl (fun v x =>
    let g (i : Nat) : Nat := v.getD i 0
    let s1 := rotr (g 4) 6 ^^^ rotr (g 4) 11 ^^^ rotr (g 4) 25
    let ch := (g 4 &&& g 5) ^^^ ((2 ^ 32 - 1 - g 4) &&& g 6)
    let t1 := g 7 + s1 + ch + x.2 + x.1
    let s0 := rotr (g 0) 2 ^^^ rotr (g 0) 13 ^^^ rotr (g 0) 22
    let maj := (g 0 &&& g 1) ^^^ (g 0 &&& g 2) ^^^ (g 1 &&& g 2)
    [(t1 + s0 + maj) % 2 ^ 32, g 0, g 1, g 2, (g 3 + t1) % 2 ^ 32, g 4, g 5, g 6]) h
  (h.zip v).map fun p => (p.1 + p.2) % 2 ^ 32

/-- The digest of a message, as bytes. -/
def shaBytes (bs : List Byte) : List Byte :=
  let n := bs.length
  let padded := bs ++ [0x80] ++ List.replicate ((119 - n % 64) % 64) 0 ++ beBytes 8 (8 * n)
  ((blocksOf 64 (n / 64 + 2) padded).foldl shaBlock shaInit).flatMap (beBytes 4)

/-- SHA-256. -/
def sha256 (bs : List Byte) : BitVec 256 := BitVec.ofNat 256 (leNat (shaBytes bs))

/-! ### HMAC and HKDF (RFC 2104, RFC 5869) -/

/-- HMAC-SHA-256 under a key of at most 64 bytes. -/
def hmac (key msg : List Byte) : List Byte :=
  let k := key ++ List.replicate (64 - key.length) 0
  shaBytes ((k.map (· ^^^ 0x5C)) ++ shaBytes ((k.map (· ^^^ 0x36)) ++ msg))

/-- The blocks of HKDF-Expand. -/
def hkdfBlocks (prk info : List Byte) : Nat → Nat → List Byte → List (List Byte)
  | 0, _, _ => []
  | n + 1, i, prev =>
    let t := hmac prk (prev ++ info ++ [BitVec.ofNat 8 i])
    t :: hkdfBlocks prk info n (i + 1) t

/-- HKDF-SHA-256: the first 32 bytes. -/
def hkdf (ikm salt info : List Byte) : List Byte := (hkdfBlocks (hmac salt ikm) info 1 1 []).flatten

/-- The characters of an info string. -/
def infoOf (s : String) : List Byte := s.toList.map fun c => BitVec.ofNat 8 c.toNat

/-! ### AES-256 (FIPS 197) -/

/-- A product in GF(2^8). -/
def gmul8 (a b : Nat) : Nat :=
  ((List.range 8).foldl (fun (p : Nat × Nat) i =>
    (if b.testBit i then p.1 ^^^ p.2 else p.1, if p.2.testBit 7 then (2 * p.2 % 256) ^^^ 0x1B else 2 * p.2)) (0, a)).1

/-- A power in GF(2^8), by squaring: the exponent 254 gives the inverse. -/
def ginv8 (a : Nat) : Nat :=
  ((List.range 7).foldl (fun (p : Nat × Nat) _ => let q := gmul8 p.2 p.2; (gmul8 p.1 q, q)) (1, a)).1

/-- The S-box. -/
def sbox (a : Nat) : Nat :=
  let x := ginv8 a
  let r (n : Nat) : Nat := (x <<< n ||| x >>> (8 - n)) % 256
  x ^^^ r 1 ^^^ r 2 ^^^ r 3 ^^^ r 4 ^^^ 0x63

/-- The S-box and its inverse as tables. -/
def sboxTable : Array Nat := ((List.range 256).map sbox).toArray
def sboxInverse : Array Nat := ((List.range 256).map fun y => sboxTable.toList.findIdx (· == y)).toArray
def subByte (x : Nat) : Nat := sboxTable.getD x 0
def unsubByte (x : Nat) : Nat := sboxInverse.getD x 0

/-- Bytes added in GF(2^8). -/
def xorBytes (a b : List Nat) : List Nat := List.zipWith (· ^^^ ·) a b

/-- The words of the key schedule, the newest first. -/
def aesExpand : Nat → List (List Nat) → List (List Nat)
  | 0, w => w
  | n + 1, w =>
    let i := w.length
    let t := w.headD []
    let t := if i % 8 = 0 then
        xorBytes ((t.drop 1 ++ t.take 1).map subByte) [2 ^ (i / 8 - 1) % 256, 0, 0, 0]
      else if i % 8 = 4 then t.map subByte else t
    aesExpand n (xorBytes t (w.getD 7 []) :: w)

/-- The fifteen round keys of a key. -/
def aesKeys (key : BitVec 256) : List (List Nat) :=
  let w := (aesExpand 52 ((blocksOf 4 8 (leBytes 32 key.toNat)).map (fun b => b.map (·.toNat))).reverse).reverse
  (List.range 15).map fun r => ((w.drop (4 * r)).take 4).flatten

/-- The rows of a block shifted left by `k` times their number. -/
def shiftRows (k : Nat) (b : List Nat) : List Nat :=
  (List.range 16).map fun i => b.getD ((i + 4 * k * (i % 4)) % 16) 0

/-- The columns of a block multiplied by a polynomial. -/
def mixColumns (m : List Nat) (b : List Nat) : List Nat :=
  (List.range 16).map fun i => (List.range 4).foldl (fun x j =>
    x ^^^ gmul8 (b.getD (i / 4 * 4 + j) 0) (m.getD ((j + 4 - i % 4) % 4) 0)) 0

/-- One block of 16 bytes enciphered. -/
def aesBlock (ks : List (List Nat)) (b : List Byte) : List Byte :=
  let b := xorBytes (b.map (·.toNat)) (ks.headD [])
  let b := ((ks.drop 1).take 13).foldl (fun b k => xorBytes (mixColumns [2, 3, 1, 1] (shiftRows 1 (b.map subByte))) k) b
  (xorBytes (shiftRows 1 (b.map subByte)) (ks.getD 14 [])).map (BitVec.ofNat 8)

/-- One block deciphered. -/
def aesUnblock (ks : List (List Nat)) (b : List Byte) : List Byte :=
  let b := xorBytes (b.map (·.toNat)) (ks.getD 14 [])
  let b := ((ks.drop 1).take 13).reverse.foldl (fun b k =>
    mixColumns [14, 11, 13, 9] (xorBytes ((shiftRows 3 b).map unsubByte) k)) b
  (xorBytes ((shiftRows 3 b).map unsubByte) (ks.headD [])).map (BitVec.ofNat 8)

/-! ### GCM (NIST SP 800-38D) -/

/-- A product in GF(2^128), the first bit of a block its highest. -/
def gmul128 (x y : Nat) : Nat :=
  ((List.range 128).foldl (fun (p : Nat × Nat) i =>
    (if x.testBit (127 - i) then p.1 ^^^ p.2 else p.1,
      if p.2.testBit 0 then (p.2 >>> 1) ^^^ (0xE1 <<< 120) else p.2 >>> 1)) (0, y)).1

/-- Counter block `n` of a nonce; its bits [95:88] come first (R369). -/
def gcmBlock (ks : List (List Nat)) (nonce : BitVec 96) (n : Nat) : List Byte := aesBlock ks (beBytes 12 nonce.toNat ++ beBytes 4 n)

/-- Bytes with the key stream laid over them. -/
def gcmStream (key : BitVec 256) (nonce : BitVec 96) (bs : List Byte) : List Byte :=
  let ks := aesKeys key
  ((blocksOf 16 (bs.length / 16 + 1) bs).zipIdx).flatMap fun b => List.zipWith (· ^^^ ·) b.1 (gcmBlock ks nonce (b.2 + 2))

/-- The tag of a ciphertext. -/
def gcmTag (key : BitVec 256) (nonce : BitVec 96) (aad cipher : List Byte) : BitVec 128 :=
  let ks := aesKeys key
  let h := beNat (aesBlock ks (List.replicate 16 0))
  let pad (bs : List Byte) : List Byte := bs ++ List.replicate ((16 - bs.length % 16) % 16) 0
  let all := pad aad ++ pad cipher ++ beBytes 8 (8 * aad.length) ++ beBytes 8 (8 * cipher.length)
  let g := (blocksOf 16 (all.length / 16 + 1) all).foldl (fun y b => gmul128 (y ^^^ beNat b) h) 0
  BitVec.ofNat 128 (leNat (beBytes 16 (g ^^^ beNat (gcmBlock ks nonce 1))))

/-! ### AES key wrap (RFC 3394) -/

/-- The 40 bytes that wrap 32 bytes. -/
def wrapBytes (kek : BitVec 256) (bs : List Byte) : List Byte :=
  let ks := aesKeys kek
  let r := (List.range 24).foldl (fun (p : List Byte × List (List Byte)) t =>
    let b := aesBlock ks (p.1 ++ p.2.getD (t % 4) [])
    (beBytes 8 (beNat (b.take 8) ^^^ (t + 1)), p.2.set (t % 4) (b.drop 8))) (List.replicate 8 0xA6, blocksOf 8 4 bs)
  r.1 ++ r.2.flatten

/-- The 32 bytes that 40 bytes wrap; none where the integrity check fails. -/
def unwrapBytes (kek : BitVec 256) (bs : List Byte) : Option (List Byte) :=
  let ks := aesKeys kek
  let r := (List.range 24).foldl (fun (p : List Byte × List (List Byte)) i =>
    let t := 23 - i
    let b := aesUnblock ks (beBytes 8 (beNat p.1 ^^^ (t + 1)) ++ p.2.getD (t % 4) [])
    (b.take 8, p.2.set (t % 4) (b.drop 8))) (bs.take 8, blocksOf 8 4 (bs.drop 8))
  if r.1 = List.replicate 8 0xA6 then some r.2.flatten else none

/-! ### P-256 (FIPS 186-4) -/

/-- The field, the order of the base point, and the curve's coefficient b. -/
def curveP : Nat := 0xffffffff00000001000000000000000000000000ffffffffffffffffffffffff
def curveN : Nat := 0xffffffff00000000ffffffffffffffffbce6faada7179e84f3b9cac2fc632551
def curveB : Nat := 0x5ac635d8aa3a93e7b3ebbd55769886bc651d06b0cc53b0f63bce3c3e27d2604b

/-- The base point. -/
def curveG : Nat × Nat :=
  (0x6b17d1f2e12c4247f8bce6e563a440f277037d812deb33a0f4a13945d898c296,
    0x4fe342e2fe1a7f9b8ee7eb4a7c0f9e162bce33576b315ececbb6406837bf51f5)

/-- A power modulo `m`, over the low `n` bits of the exponent. -/
def powMod (m : Nat) : Nat → Nat → Nat → Nat
  | 0, _, _ => 1 % m
  | n + 1, x, e => let r := powMod m n (x * x % m) (e / 2); if e % 2 = 1 then x * r % m else r

/-- The inverse modulo a prime of 256 bits. -/
def invMod (m x : Nat) : Nat := powMod m 256 x (m - 2)

/-- The sum of two points; none is the point at infinity. -/
def addPoint (a b : Option (Nat × Nat)) : Option (Nat × Nat) :=
  match a, b with
  | none, q => q
  | p, none => p
  | some (x1, y1), some (x2, y2) =>
    let p := curveP
    if x1 = x2 ∧ (y1 + y2) % p = 0 then none
    else
      let l := if x1 = x2 then (3 * x1 * x1 + (p - 3)) * invMod p (2 * y1 % p) % p
        else (y2 + p - y1) * invMod p ((x2 + p - x1) % p) % p
      let x := (l * l + 2 * p - x1 - x2) % p
      some (x, (l * (x1 + p - x) + p - y1) % p)

/-- A multiple of a point, over the low `n` bits of the factor. -/
def mulPoint : Nat → Nat → Option (Nat × Nat) → Option (Nat × Nat)
  | 0, _, _ => none
  | n + 1, k, p =>
    let r := mulPoint n (k / 2) (addPoint p p)
    if k % 2 = 1 then addPoint p r else r

/-- A public key and its point. -/
def keyOfPoint (p : Option (Nat × Nat)) : BitVec 512 := BitVec.ofNat 512 ((p.map fun q => q.1 + 2 ^ 256 * q.2).getD 0)
def pointOfKey (k : BitVec 512) : Option (Nat × Nat) := some (k.toNat % 2 ^ 256 % curveP, k.toNat / 2 ^ 256 % curveP)

/-- The public key of a private one. -/
def publicKey (d : Nat) : BitVec 512 := keyOfPoint (mulPoint 256 d (some curveG))

/-- A number of [1, n − 1] from random bits. -/
def scalarOf (x : BitVec 256) : Nat := 1 + x.toNat % (curveN - 1)

/-- The ECDH secret of a private and a public key: the x of their product, as bytes. -/
def ecdh (d : Nat) (k : BitVec 512) : List Byte := beBytes 32 (((mulPoint 256 d (pointOfKey k)).map (·.1)).getD 0)

/-- The ECDSA signature of a message under a private key, with its random number. -/
def ecdsaSign (d k : Nat) (msg : List Byte) : BitVec 512 :=
  let r := ((mulPoint 256 k (some curveG)).map (·.1)).getD 0 % curveN
  let s := invMod curveN k * (beNat (shaBytes msg) + r * d) % curveN
  BitVec.ofNat 512 (r + 2 ^ 256 * s)

/-- Whether a signature of a message verifies under a public key. -/
def ecdsaVerify (key sig : BitVec 512) (msg : List Byte) : Bool :=
  let r := sig.toNat % 2 ^ 256
  let s := sig.toNat / 2 ^ 256
  let w := invMod curveN s
  let x := addPoint (mulPoint 256 (beNat (shaBytes msg) * w % curveN) (some curveG)) (mulPoint 256 (r * w % curveN) (pointOfKey key))
  decide (0 < r) && decide (r < curveN) && decide (0 < s) && decide (s < curveN) &&
    (match x with | some p => p.1 % curveN == r | none => false)

/-! ### The keys of a die (R387) -/

/-- The unique device secret of a die as bytes. -/
def udsBytes (die : Nat) : List Byte := leBytes 32 (Config.uds die).toNat

/-- A private key from HKDF over the secret: its first block of 32 bytes that lies in [1, n − 1]. Where the first does not,
R387 names no next candidate; the model takes the next block (DESIGN CHOICE, assumption log 59). -/
def derivedScalar (die : Nat) (info : List Byte) : Nat :=
  ((hkdfBlocks (hmac [] (udsBytes die)) info 8 1 []).map beNat).find? (fun x => decide (0 < x) && decide (x < curveN)) |>.getD 1

/-- The identity key of a die, and its public half. -/
def identityScalar (die : Nat) : Nat := derivedScalar die (infoOf "Z4-ID")
def identityKey (die : Nat) : BitVec 512 := publicKey (identityScalar die)

/-- The alias key of a die under a firmware measurement and a configuration hash, and its public half. -/
def aliasScalar (die : Nat) (m h : BitVec 256) : Nat :=
  derivedScalar die (infoOf "Z4-ALIAS" ++ leBytes 32 m.toNat ++ leBytes 32 h.toNat)
def aliasKey (die : Nat) (m h : BitVec 256) : BitVec 512 := publicKey (aliasScalar die m h)

/-- A signature by the identity key of a die, and one by its alias key, each with its random number (R390). -/
def signIdentity (die : Nat) (x : BitVec 256) (msg : List Byte) : BitVec 512 := ecdsaSign (identityScalar die) (scalarOf x) msg
def signAlias (die : Nat) (m h x : BitVec 256) (msg : List Byte) : BitVec 512 :=
  ecdsaSign (aliasScalar die m h) (scalarOf x) msg

/-- A seal key that DERIVE makes from the seal root of a die (R378, R387). -/
def deriveKey (die : Nat) (salt info : List Byte) : BitVec 256 :=
  BitVec.ofNat 256 (leNat (hkdf (hkdf (udsBytes die) [] (infoOf "Z4-SEAL-ROOT")) salt info))

/-! ### Wrapped keys (R378) -/

/-- The key that wraps another between two dies, from their shared secret and the sender's public bytes. -/
def kekOf (secret pub : List Byte) : BitVec 256 := BitVec.ofNat 256 (leNat (hkdf secret [] (infoOf "Z4-WRAP" ++ pub)))

/-- EXPORT: the sender's ephemeral public key and the key wrapped for a target identity key. -/
def wrapKey (target : List Byte) (key e : BitVec 256) : List Byte :=
  let pub := leBytes 64 (publicKey (scalarOf e)).toNat
  pub ++ wrapBytes (kekOf (ecdh (scalarOf e) (BitVec.ofNat 512 (leNat target))) pub) (leBytes 32 key.toNat)

/-- IMPORT: the key that a die unwraps; none where the integrity check fails. -/
def unwrapKey (die : Nat) (pub wrapped : List Byte) : Option (BitVec 256) :=
  (unwrapBytes (kekOf (ecdh (identityScalar die) (BitVec.ofNat 512 (leNat pub))) pub) wrapped).map fun bs =>
    BitVec.ofNat 256 (leNat bs)

end Sys2Proof.Machine
end

