-- ==== Sys2Proof/WellFormed.lean ====
section
/-! DEFINITION. Which terms of Instr the spec allows: the reserved fields that depend on another field (R42), the
operand limits of R31 to R48, and for an event that the unit it names exists (R11, R20 to R22, R344, R349). -/

namespace Sys2Proof

/-- Bit-field operands: width 1 to 64 and lsb + width at most 64 (R36, R179). -/
def Limits.bitField (lsb : BitVec 6) (width : BitVec 7) : Bool :=
  decide (1 ≤ width.toNat) && decide (lsb.toNat + width.toNat ≤ 64)

/-- Condition codes 0x8 to 0xF are reserved values (R31). -/
def Limits.cond (cond : BitVec 4) : Bool := decide (cond.toNat < 8)

/-- A loop's count or body length, and an ICINV mask, of 0 is a reserved value (R36, R40, R44). -/
def Limits.nonzero {w : Nat} (x : BitVec w) : Bool := x != 0

/-- TKWAIT and TKPOST name at least one neighbour (R36). -/
def Limits.someToken (left right : BitVec 1) : Bool := left == 1#1 || right == 1#1

/-- FENCE: scopes 6 and 7 and an empty access set are reserved values (R39). -/
def Limits.fence (scope : BitVec 3) (before after : BitVec 4) : Bool :=
  decide (scope.toNat < 6) && before != 0 && after != 0

/-- LD, LDU and ST: sizes up to `top`, and order2 other than 0b11 (R35). -/
def Limits.access (top : Nat) (size : BitVec 3) (order : BitVec 2) : Bool :=
  decide (size.toNat ≤ top) && order != 3

/-- AMO and CAS orders 0b101 to 0b111 are reserved values (R38). -/
def Limits.amoOrder (order : BitVec 3) : Bool := decide (order.toNat ≤ 4)

/-- Ports 5 to 7 are reserved values (R40). -/
def Limits.port (port : BitVec 3) : Bool := decide (port.toNat ≤ 4)

/-- TLOC's first result register is even, from 2 to 30 (R40). -/
def Limits.pair (ga : BitVec 5) : Bool := decide (ga.toNat % 2 = 0) && decide (2 ≤ ga.toNat)

/-- SMV's register block ends at g31 (R40). -/
def Limits.quad (ga : BitVec 5) : Bool := decide (ga.toNat ≤ 28)

/-- XTD's block of four c registers ends at c15 (R48). -/
def Limits.firstOfFour (cb : BitVec 4) : Bool := decide (cb.toNat ≤ 12)

/-- sopd 0b100 to 0b111 are reserved values (R42). -/
def Limits.sopd (sopd : BitVec 3) : Bool := decide (sopd.toNat < 4)

/-- VSHAPE takes a scalar source only (R43). -/
def Limits.sopdScalar (sopd : BitVec 3) : Bool := sopd == 1#3 || sopd == 2#3

/-- A destination that is also read is v0 to v27 (R42). -/
def Limits.vdRead (vd : BitVec 5) : Bool := decide (vd.toNat ≤ 27)

/-- The element-format codes that R30 assigns. -/
def Limits.format (fmt : BitVec 5) : Bool :=
  decide (fmt.toNat ≤ 6) || (decide (8 ≤ fmt.toNat) && decide (fmt.toNat ≤ 14)) ||
    (decide (16 ≤ fmt.toNat) && decide (fmt.toNat ≤ 22))

/-- The bits of vs2 that sopd leaves unused are reserved (R42). -/
def Limits.vs2Unused (vs2 : BitVec 5) (sopd : BitVec 3) : Bool :=
  !((sopd == 1#3 && vs2.getLsbD 4) || (sopd == 2#3 && vs2 != 0))

/-- The reserved fields that depend on another field of the word are zero (R27 order 4, R42). -/
def Instr.reservedOk : Instr → Bool
  | .add _ _ _ => true
  | .sub _ _ _ => true
  | .mul _ _ _ => true
  | .mulh _ _ _ => true
  | .mulhu _ _ _ => true
  | .madd _ _ _ => true
  | .div _ _ _ => true
  | .divu _ _ _ => true
  | .rem _ _ _ => true
  | .remu _ _ _ => true
  | .and _ _ _ => true
  | .or _ _ _ => true
  | .xor _ _ _ => true
  | .andn _ _ _ => true
  | .shl _ _ _ => true
  | .shr _ _ _ => true
  | .sar _ _ _ => true
  | .slt _ _ _ => true
  | .sltu _ _ _ => true
  | .min _ _ _ => true
  | .max _ _ _ => true
  | .minu _ _ _ => true
  | .maxu _ _ _ => true
  | .clz _ _ => true
  | .popc _ _ => true
  | .sel _ _ _ _ => true
  | .addi _ _ _ => true
  | .andi _ _ _ => true
  | .ori _ _ _ => true
  | .xori _ _ _ => true
  | .slti _ _ _ => true
  | .sltiu _ _ _ => true
  | .shli _ _ _ => true
  | .shri _ _ _ => true
  | .sari _ _ _ => true
  | .bfx _ _ _ _ => true
  | .bfi _ _ _ _ => true
  | .lui _ _ => true
  | .addpc _ _ => true
  | .ldr _ _ => true
  | .bcc _ _ _ _ => true
  | .j _ => true
  | .jl _ => true
  | .jr _ _ => true
  | .jlr _ _ _ => true
  | .loop _ _ => true
  | .loopi _ _ => true
  | .rend => true
  | .nop => true
  | .yield => true
  | .kread _ => true
  | .pwin _ _ => true
  | .tkwait _ _ => true
  | .tkpost _ _ => true
  | .barInit _ _ => true
  | .barArr _ => true
  | .barArrDrop _ => true
  | .barArrJoin _ => true
  | .barWait _ => true
  | .monarm _ _ => true
  | .mwait _ _ _ => true
  | .mwaitW _ _ _ => true
  | .fence _ _ _ => true
  | .fenceHb => true
  | .fenceStk => true
  | .ld _ _ _ _ _ => true
  | .ldu _ _ _ _ _ => true
  | .st _ _ _ _ _ => true
  | .ldq _ _ _ _ => true
  | .stq _ _ _ _ => true
  | .pref _ _ _ => true
  | .ipref _ _ _ => true
  | .clean _ _ => true
  | .invl _ _ => true
  | .amoAdd _ _ _ _ _ => true
  | .amoAnd _ _ _ _ _ => true
  | .amoOr _ _ _ _ _ => true
  | .amoXor _ _ _ _ _ => true
  | .amoMin _ _ _ _ _ => true
  | .amoMax _ _ _ _ _ => true
  | .amoMinu _ _ _ _ _ => true
  | .amoMaxu _ _ _ _ _ => true
  | .amoSwap _ _ _ _ _ => true
  | .amoFadd _ _ _ _ => true
  | .cas _ _ _ _ _ => true
  | .qputV _ => true
  | .qputM _ => true
  | .qputX _ => true
  | .qget _ => true
  | .rngset _ _ _ => true
  | .rngstat _ _ => true
  | .sdset _ _ _ => true
  | .sdget _ _ _ => true
  | .epush _ _ => true
  | .epushEnd _ _ => true
  | .epop _ _ => true
  | .epoll _ _ => true
  | .estat _ _ => true
  | .tlocR _ _ _ => true
  | .tlocD _ _ _ => true
  | .tsmap _ _ _ => true
  | .tmesh _ => true
  | .reshard _ _ _ _ => true
  | .rstat _ _ => true
  | .smv _ _ _ => true
  | .sysr _ _ => true
  | .sysw _ _ => true
  | .ecall _ => true
  | .trap _ => true
  | .tret => true
  | .tlbinvVa _ _ => true
  | .tlbinvPasid _ _ => true
  | .tlbinvIpa _ _ => true
  | .tlbinvPart _ _ => true
  | .tlbsync => true
  | .icinv _ _ => true
  | .icinvAll _ _ => true
  | .halt => true
  | .vadd _ _ _ vs2 _ _ sopd => Limits.vs2Unused vs2 sopd
  | .vsub _ _ _ vs2 _ _ sopd => Limits.vs2Unused vs2 sopd
  | .vmul _ _ _ vs2 _ _ sopd => Limits.vs2Unused vs2 sopd
  | .vfma _ _ _ vs2 _ _ sopd => Limits.vs2Unused vs2 sopd
  | .vfms _ _ _ vs2 _ _ sopd => Limits.vs2Unused vs2 sopd
  | .vmin _ _ _ vs2 sopd => Limits.vs2Unused vs2 sopd
  | .vmax _ _ _ vs2 sopd => Limits.vs2Unused vs2 sopd
  | .vabs _ _ _ => true
  | .vneg _ _ _ => true
  | .vfrcp _ _ _ => true
  | .vfrsq _ _ _ => true
  | .vfexp2 _ _ _ => true
  | .vflog2 _ _ _ => true
  | .vftanh _ _ _ => true
  | .vcmpeq _ _ _ vs2 sopd => Limits.vs2Unused vs2 sopd
  | .vcmplt _ _ _ vs2 sopd => Limits.vs2Unused vs2 sopd
  | .vcmple _ _ _ vs2 sopd => Limits.vs2Unused vs2 sopd
  | .vsel _ _ _ vs2 sopd => Limits.vs2Unused vs2 sopd
  | .viadd _ _ _ vs2 sopd => Limits.vs2Unused vs2 sopd
  | .visub _ _ _ vs2 sopd => Limits.vs2Unused vs2 sopd
  | .vimul _ _ _ vs2 sopd => Limits.vs2Unused vs2 sopd
  | .vimin _ _ _ vs2 sopd => Limits.vs2Unused vs2 sopd
  | .vimax _ _ _ vs2 sopd => Limits.vs2Unused vs2 sopd
  | .vand _ _ _ vs2 sopd => Limits.vs2Unused vs2 sopd
  | .vor _ _ _ vs2 sopd => Limits.vs2Unused vs2 sopd
  | .vxor _ _ _ vs2 sopd => Limits.vs2Unused vs2 sopd
  | .vshl _ _ _ vs2 sopd => Limits.vs2Unused vs2 sopd
  | .vshr _ _ _ vs2 sopd => Limits.vs2Unused vs2 sopd
  | .vsar _ _ _ vs2 sopd => Limits.vs2Unused vs2 sopd
  | .vcvt _ _ _ _ _ _ _ => true
  | .vqnt _ _ _ vs2 _ _ _ sopd => Limits.vs2Unused vs2 sopd
  | .vdqnt _ _ _ vs2 _ sopd => Limits.vs2Unused vs2 sopd
  | .vrsum _ _ _ => true
  | .vrmax _ _ _ => true
  | .vrmin _ _ _ => true
  | .vperm _ _ _ vs2 sopd => Limits.vs2Unused vs2 sopd
  | .vbcast _ _ _ vs2 sopd => Limits.vs2Unused vs2 sopd
  | .vrot _ _ _ vs2 sopd => Limits.vs2Unused vs2 sopd
  | .vrd _ _ _ => true
  | .vmov _ _ vs2 sopd => Limits.vs2Unused vs2 sopd
  | .vext _ _ _ vs2 sopd => Limits.vs2Unused vs2 sopd
  | .vshape _ vs2 sopd => Limits.vs2Unused vs2 sopd
  | .vloop _ _ _ => true
  | .vbcc _ _ _ _ _ => true
  | .vrend _ => true
  | .vnop _ => true
  | .vcli _ _ _ => true
  | .vcadd _ _ _ _ => true
  | .mma _ _ _ _ _ _ _ _ _ _ _ => true
  | .mmat _ _ _ _ _ _ _ _ _ _ _ => true
  | .mzero _ _ => true
  | .mdrain _ _ _ _ => true
  | .mfill _ _ _ _ => true
  | .macc _ _ _ => true
  | .mstamp _ => true
  | .mwin _ _ => true
  | .mloop _ _ _ => true
  | .mbcc _ _ _ _ _ => true
  | .mrend _ => true
  | .mnop _ => true
  | .xtd _ _ _ => true
  | .xtdi _ _ _ _ => true
  | .xcopy _ _ _ _ => true
  | .xput _ _ _ _ => true
  | .xcvt _ _ _ _ _ _ _ _ _ _ => true
  | .xgath _ _ _ _ _ => true
  | .xscat _ _ _ _ _ => true
  | .xwopen _ _ _ => true
  | .xwadv _ _ _ _ => true
  | .xkvq _ _ _ _ _ _ _ => true
  | .xfill _ _ _ _ => true
  | .xftl _ _ _ => true
  | .xpeer _ _ _ _ => true
  | .xwait _ _ => true
  | .xwaitAll _ => true
  | .xqget _ _ => true
  | .xcli _ _ _ => true
  | .xcadd _ _ _ _ => true
  | .xcmul _ _ _ _ => true
  | .xloop _ _ _ => true
  | .xbcc _ _ _ _ _ => true
  | .xrend _ => true
  | .xnop _ => true
  | .notify _ _ _ => true
  | .queueMap _ _ _ => true
  | .queueUnmap _ _ => true
  | .commandFetch _ _ => true
  | .nodeDispatch _ => true
  | .startJob _ _ => true
  | .iterationRetirement _ => true
  | .nodeBoundary _ => true
  | .park _ => true
  | .unpark _ => true
  | .stopcore _ => true
  | .savecore _ => true
  | .restorecore _ => true
  | .corestart _ => true
  | .rstore _ => true
  | .msend _ => true
  | .swrite _ => true
  | .stab _ => true
  | .stackSideProduct _ => true
  | .reshardPlan _ => true
  | .reshardDigestTimeout _ _ => true
  | .reshardPiece _ _ => true
  | .ep3ArrivalPush _ _ => true
  | .transferCompletion _ _ => true
  | .stepRetirement _ => true
  | .decodeChunk _ _ _ => true
  | .l2Eviction _ _ => true
  | .scrub _ _ => true
  | .stallFault _ => true
  | .kilnTickBoundary => true
  | .trapEntry _ => true
  | .drainTimeout _ => true
  | .asynchronousRecord _ => true
  | .arpop _ _ => true
  | .stateWindowAccess _ _ _ => true
  | .pbench _ _ _ => true
  | .pnset _ _ _ => true
  | .vfbind _ _ => true
  | .budgetRegisterWrite _ _ _ => true
  | .ntokWrite _ _ => true
  | .scownWrite _ _ _ => true
  | .domcfgWrite _ _ => true
  | .registerWrite _ _ _ => true
  | .keyGen _ => true
  | .keyDerive _ => true
  | .keyImport _ => true
  | .keyExport _ => true
  | .keySweep _ => true
  | .keyRetire _ => true
  | .keyZeroise _ => true
  | .attestationRequest _ => true
  | .retireCore => true
  | .retireBench => true
  | .retireChan => true
  | .retireLink => true
  | .fwupdate => true
  | .ckptBuddy => true
  | .ckptCxl => true
  | .restoreBuddy => true
  | .restoreCxl => true
  | .imageLoader => true
  | .boot => true
  | .readyTimeout => true
  | .thermalAction _ _ => true
  | .dieReset _ => true
  | .pwrite _ => true
  | .pread _ => true
  | .rdata _ => true
  | .patom _ => true
  | .adata _ => true
  | .ack _ => true
  | .nack _ => true
  | .flitRetry _ _ => true
  | .xlatreq _ => true
  | .xlatrsp _ => true
  | .announce _ => true
  | .annack _ => true
  | .ctrl _ => true
  | .requestTimeout _ _ => true
  | .frame _ _ => true
  | .linkAcknowledgement _ _ _ => true
  | .linkDown _ _ => true
  | .linkTraining _ _ => true
  | .rekey _ _ => true
  | .atsInvalidation _ _ _ _ => true
  | .pageRequestGroupClose _ => true
  | .pageRequestResponse _ _ => true
  | .storePerformed _ _ => true
  | .queueEntryFill _ _ => true
  | .softError _ _ _ => true

/-- Every field holds a value inside the limits of the opcode map (R27 order 5); an event names units that exist. -/
def Instr.limitsOk : Instr → Bool
  | .add _ _ _ => true
  | .sub _ _ _ => true
  | .mul _ _ _ => true
  | .mulh _ _ _ => true
  | .mulhu _ _ _ => true
  | .madd _ _ _ => true
  | .div _ _ _ => true
  | .divu _ _ _ => true
  | .rem _ _ _ => true
  | .remu _ _ _ => true
  | .and _ _ _ => true
  | .or _ _ _ => true
  | .xor _ _ _ => true
  | .andn _ _ _ => true
  | .shl _ _ _ => true
  | .shr _ _ _ => true
  | .sar _ _ _ => true
  | .slt _ _ _ => true
  | .sltu _ _ _ => true
  | .min _ _ _ => true
  | .max _ _ _ => true
  | .minu _ _ _ => true
  | .maxu _ _ _ => true
  | .clz _ _ => true
  | .popc _ _ => true
  | .sel _ _ _ _ => true
  | .addi _ _ _ => true
  | .andi _ _ _ => true
  | .ori _ _ _ => true
  | .xori _ _ _ => true
  | .slti _ _ _ => true
  | .sltiu _ _ _ => true
  | .shli _ _ _ => true
  | .shri _ _ _ => true
  | .sari _ _ _ => true
  | .bfx _ _ lsb width => Limits.bitField lsb width
  | .bfi _ _ lsb width => Limits.bitField lsb width
  | .lui _ _ => true
  | .addpc _ _ => true
  | .ldr _ _ => true
  | .bcc cond _ _ _ => Limits.cond cond
  | .j _ => true
  | .jl _ => true
  | .jr _ _ => true
  | .jlr _ _ _ => true
  | .loop _ len => Limits.nonzero len
  | .loopi count len => Limits.nonzero count && Limits.nonzero len
  | .rend => true
  | .nop => true
  | .yield => true
  | .kread _ => true
  | .pwin _ _ => true
  | .tkwait left right => Limits.someToken left right
  | .tkpost left right => Limits.someToken left right
  | .barInit _ _ => true
  | .barArr _ => true
  | .barArrDrop _ => true
  | .barArrJoin _ => true
  | .barWait _ => true
  | .monarm _ _ => true
  | .mwait _ _ _ => true
  | .mwaitW _ _ _ => true
  | .fence scope before after => Limits.fence scope before after
  | .fenceHb => true
  | .fenceStk => true
  | .ld _ _ size order _ => Limits.access 3 size order
  | .ldu _ _ size order _ => Limits.access 2 size order
  | .st _ _ size order _ => Limits.access 3 size order
  | .ldq _ _ _ _ => true
  | .stq _ _ _ _ => true
  | .pref _ _ _ => true
  | .ipref _ _ _ => true
  | .clean _ _ => true
  | .invl _ _ => true
  | .amoAdd _ _ _ _ order => Limits.amoOrder order
  | .amoAnd _ _ _ _ order => Limits.amoOrder order
  | .amoOr _ _ _ _ order => Limits.amoOrder order
  | .amoXor _ _ _ _ order => Limits.amoOrder order
  | .amoMin _ _ _ _ order => Limits.amoOrder order
  | .amoMax _ _ _ _ order => Limits.amoOrder order
  | .amoMinu _ _ _ _ order => Limits.amoOrder order
  | .amoMaxu _ _ _ _ order => Limits.amoOrder order
  | .amoSwap _ _ _ _ order => Limits.amoOrder order
  | .amoFadd _ _ _ order => Limits.amoOrder order
  | .cas _ _ _ _ order => Limits.amoOrder order
  | .qputV _ => true
  | .qputM _ => true
  | .qputX _ => true
  | .qget _ => true
  | .rngset _ _ _ => true
  | .rngstat _ _ => true
  | .sdset _ _ _ => true
  | .sdget _ _ _ => true
  | .epush _ port => Limits.port port
  | .epushEnd _ port => Limits.port port
  | .epop _ port => Limits.port port
  | .epoll _ port => Limits.port port
  | .estat _ port => Limits.port port
  | .tlocR ga _ _ => Limits.pair ga
  | .tlocD ga _ _ => Limits.pair ga
  | .tsmap _ _ _ => true
  | .tmesh _ => true
  | .reshard _ _ _ _ => true
  | .rstat _ _ => true
  | .smv ga _ _ => Limits.quad ga
  | .sysr _ _ => true
  | .sysw _ _ => true
  | .ecall _ => true
  | .trap _ => true
  | .tret => true
  | .tlbinvVa _ _ => true
  | .tlbinvPasid _ _ => true
  | .tlbinvIpa _ _ => true
  | .tlbinvPart _ _ => true
  | .tlbsync => true
  | .icinv _ mask => Limits.nonzero mask
  | .icinvAll _ mask => Limits.nonzero mask
  | .halt => true
  | .vadd _ _ _ _ _ _ sopd => Limits.sopd sopd
  | .vsub _ _ _ _ _ _ sopd => Limits.sopd sopd
  | .vmul _ _ _ _ _ _ sopd => Limits.sopd sopd
  | .vfma _ vd _ _ _ _ sopd => Limits.sopd sopd && Limits.vdRead vd
  | .vfms _ vd _ _ _ _ sopd => Limits.sopd sopd && Limits.vdRead vd
  | .vmin _ _ _ _ sopd => Limits.sopd sopd
  | .vmax _ _ _ _ sopd => Limits.sopd sopd
  | .vabs _ _ _ => true
  | .vneg _ _ _ => true
  | .vfrcp _ _ _ => true
  | .vfrsq _ _ _ => true
  | .vfexp2 _ _ _ => true
  | .vflog2 _ _ _ => true
  | .vftanh _ _ _ => true
  | .vcmpeq _ _ _ _ sopd => Limits.sopd sopd
  | .vcmplt _ _ _ _ sopd => Limits.sopd sopd
  | .vcmple _ _ _ _ sopd => Limits.sopd sopd
  | .vsel _ vd _ _ sopd => Limits.sopd sopd && Limits.vdRead vd
  | .viadd _ _ _ _ sopd => Limits.sopd sopd
  | .visub _ _ _ _ sopd => Limits.sopd sopd
  | .vimul _ _ _ _ sopd => Limits.sopd sopd
  | .vimin _ _ _ _ sopd => Limits.sopd sopd
  | .vimax _ _ _ _ sopd => Limits.sopd sopd
  | .vand _ _ _ _ sopd => Limits.sopd sopd
  | .vor _ _ _ _ sopd => Limits.sopd sopd
  | .vxor _ _ _ _ sopd => Limits.sopd sopd
  | .vshl _ _ _ _ sopd => Limits.sopd sopd
  | .vshr _ _ _ _ sopd => Limits.sopd sopd
  | .vsar _ _ _ _ sopd => Limits.sopd sopd
  | .vcvt _ _ _ fmt _ _ _ => Limits.format fmt
  | .vqnt _ _ _ _ _ _ _ sopd => Limits.sopd sopd
  | .vdqnt _ _ _ _ _ sopd => Limits.sopd sopd
  | .vrsum _ _ _ => true
  | .vrmax _ _ _ => true
  | .vrmin _ _ _ => true
  | .vperm _ _ _ _ sopd => Limits.sopd sopd
  | .vbcast _ _ _ _ sopd => Limits.sopd sopd
  | .vrot _ _ _ _ sopd => Limits.sopd sopd
  | .vrd _ _ _ => true
  | .vmov _ _ _ sopd => Limits.sopd sopd
  | .vext _ _ _ _ sopd => Limits.sopd sopd
  | .vshape _ _ sopd => Limits.sopdScalar sopd
  | .vloop _ _ len => Limits.nonzero len
  | .vbcc _ cond _ _ _ => Limits.cond cond
  | .vrend _ => true
  | .vnop _ => true
  | .vcli _ _ _ => true
  | .vcadd _ _ _ _ => true
  | .mma _ _ _ _ _ _ _ _ _ _ _ => true
  | .mmat _ _ _ _ _ _ _ _ _ _ _ => true
  | .mzero _ _ => true
  | .mdrain _ _ _ _ => true
  | .mfill _ _ _ _ => true
  | .macc _ _ _ => true
  | .mstamp _ => true
  | .mwin _ _ => true
  | .mloop _ _ len => Limits.nonzero len
  | .mbcc _ cond _ _ _ => Limits.cond cond
  | .mrend _ => true
  | .mnop _ => true
  | .xtd _ _ cb => Limits.firstOfFour cb
  | .xtdi _ _ _ _ => true
  | .xcopy _ _ _ _ => true
  | .xput _ _ _ _ => true
  | .xcvt _ _ _ _ fmt _ _ _ _ _ => Limits.format fmt
  | .xgath _ _ _ _ _ => true
  | .xscat _ _ _ _ _ => true
  | .xwopen _ _ _ => true
  | .xwadv _ _ _ _ => true
  | .xkvq _ _ _ _ fmt _ _ => Limits.format fmt
  | .xfill _ _ _ _ => true
  | .xftl _ _ _ => true
  | .xpeer _ _ _ _ => true
  | .xwait _ _ => true
  | .xwaitAll _ => true
  | .xqget _ _ => true
  | .xcli _ _ _ => true
  | .xcadd _ _ _ _ => true
  | .xcmul _ _ _ _ => true
  | .xloop _ _ len => Limits.nonzero len
  | .xbcc _ cond _ _ _ => Limits.cond cond
  | .xrend _ => true
  | .xnop _ => true
  | .notify fn queue _ => decide (fn ≤ 192) && decide (queue < 64)
  | .queueMap die slot pqn => decide (die < 4) && decide (slot < 256) && decide (pqn < 12288)
  | .queueUnmap die slot => decide (die < 4) && decide (slot < 256)
  | .commandFetch die slot => decide (die < 4) && decide (slot < 256)
  | .nodeDispatch part => decide (part < 16)
  | .startJob part die => decide (part < 16) && decide (die < 4)
  | .iterationRetirement core => decide (core < 1024)
  | .nodeBoundary part => decide (part < 16)
  | .park core => decide (core < 1024)
  | .unpark core => decide (core < 1024)
  | .stopcore core => decide (core < 1024)
  | .savecore core => decide (core < 1024)
  | .restorecore core => decide (core < 1024)
  | .corestart core => decide (core < 1024)
  | .rstore core => decide (core < 1024)
  | .msend core => decide (core < 1024)
  | .swrite core => decide (core < 1024)
  | .stab core => decide (core < 1024)
  | .stackSideProduct core => decide (core < 1024)
  | .reshardPlan core => decide (core < 1024)
  | .reshardDigestTimeout die _ => decide (die < 4)
  | .reshardPiece die _ => decide (die < 4)
  | .ep3ArrivalPush die _ => decide (die < 4)
  | .transferCompletion core _ => decide (core < 1024)
  | .stepRetirement core => decide (core < 1024)
  | .decodeChunk core ring _ => decide (core < 1024) && decide (ring < 16)
  | .l2Eviction node _ => decide (node < 4096)
  | .scrub node _ => decide (node < 4096)
  | .stallFault core => decide (core < 1024)
  | .kilnTickBoundary => true
  | .trapEntry core => decide (core < 1024)
  | .drainTimeout core => decide (core < 1024)
  | .asynchronousRecord core => decide (core < 1024)
  | .arpop core _ => decide (core < 1024)
  | .stateWindowAccess core _ _ => decide (core < 1024)
  | .pbench die part _ => decide (die < 4) && decide (part < 16)
  | .pnset die part _ => decide (die < 4) && decide (part < 16)
  | .vfbind vf _ => decide (vf < 192)
  | .budgetRegisterWrite die part _ => decide (die < 4) && decide (part < 16)
  | .ntokWrite die _ => decide (die < 4)
  | .scownWrite die index _ => decide (die < 4) && decide (index < 256)
  | .domcfgWrite die _ => decide (die < 4)
  | .registerWrite fn _ _ => decide (fn ≤ 192)
  | .keyGen die => decide (die < 4)
  | .keyDerive die => decide (die < 4)
  | .keyImport die => decide (die < 4)
  | .keyExport die => decide (die < 4)
  | .keySweep die => decide (die < 4)
  | .keyRetire die => decide (die < 4)
  | .keyZeroise die => decide (die < 4)
  | .attestationRequest fn => decide (fn ≤ 192)
  | .retireCore => true
  | .retireBench => true
  | .retireChan => true
  | .retireLink => true
  | .fwupdate => true
  | .ckptBuddy => true
  | .ckptCxl => true
  | .restoreBuddy => true
  | .restoreCxl => true
  | .imageLoader => true
  | .boot => true
  | .readyTimeout => true
  | .thermalAction die _ => decide (die < 4)
  | .dieReset die => decide (die < 4)
  | .pwrite _ => true
  | .pread _ => true
  | .rdata _ => true
  | .patom _ => true
  | .adata _ => true
  | .ack _ => true
  | .nack _ => true
  | .flitRetry die _ => decide (die < 4)
  | .xlatreq _ => true
  | .xlatrsp _ => true
  | .announce _ => true
  | .annack _ => true
  | .ctrl _ => true
  | .requestTimeout die _ => decide (die < 4)
  | .frame die port => decide (die < 4) && decide (port < 6)
  | .linkAcknowledgement die port _ => decide (die < 4) && decide (port < 6)
  | .linkDown die port => decide (die < 4) && decide (port < 6)
  | .linkTraining die port => decide (die < 4) && decide (port < 6)
  | .rekey die port => decide (die < 4) && decide (port < 6)
  | .atsInvalidation vf _ _ _ => decide (vf ≤ 192)
  | .pageRequestGroupClose _ => true
  | .pageRequestResponse _ _ => true
  | .storePerformed core _ => decide (core < 1024)
  | .queueEntryFill core q => decide (core < 1024) && decide (q < 4)
  | .softError node _ _ => decide (node < 4096)

/-- A well-formed instruction (R27 orders 4 and 5). -/
def Instr.wf (i : Instr) : Bool := i.reservedOk && i.limitsOk

end Sys2Proof
end

