-- ==== Sys2Proof/Decode.lean ====
section
/-! DEFINITION. Decoding and encoding of the words of the four streams, bit for bit as R25 to R48 lay them out, with the
order of checks of R27. Decoding is per stream: one word can mean different things in different streams. -/

namespace Sys2Proof

/-- Why a word is no instruction: the subcodes 0x1 to 0x4 of R27, and fewer than four bytes. -/
inductive DecodeError where
  /-- Subcode 0x1: the opcode (in S the major opcode) is unassigned (R26, R27 order 2). -/
  | unassignedOpcode
  /-- Subcode 0x2: a function field holds an unassigned value (R27 order 3). -/
  | unassignedFunction
  /-- Subcode 0x3: a reserved field is not zero (R27 order 4). -/
  | reservedField
  /-- Subcode 0x4: a field holds a reserved value or one outside the operand limits (R27 order 5). -/
  | reservedValue
  /-- The byte list ends before the word does. -/
  | truncated
  deriving DecidableEq, Repr

/-- The subcode the trap record holds (R27). -/
def DecodeError.subcode : DecodeError → Nat
  | .unassignedOpcode => 1
  | .unassignedFunction => 2
  | .reservedField => 3
  | .reservedValue => 4
  | .truncated => 0

/-- The `n` bits of `w` from bit `lo` up. -/
def field (w : Word) (lo n : Nat) : BitVec n := w.extractLsb' lo n

/-- The last checks of R27 on a word whose opcode and function are assigned: reserved fields (`mask`), the reserved
fields that depend on another field, the fixed field values (`fixed`), and the operand limits. -/
def finish (w : Word) (mask : Word) (fixed : Bool) (i : Instr) : Except DecodeError Instr :=
  if w &&& mask != 0 then .error .reservedField
  else if i.reservedOk = false then .error .reservedField
  else if fixed = false then .error .reservedValue
  else if i.limitsOk = false then .error .reservedValue
  else .ok i

/-- decodeS: opcode 0x01 (ADD, SUB, MUL, MULH, MULHU, MADD, DIV, DIVU, REM, REMU, AND, OR, XOR, ANDN, SHL, SHR, SAR, SLT, SLTU, MIN, MAX, MINU, MAXU, CLZ, POPC). -/
def decodeS_01 (w : Word) : Except DecodeError Instr :=
  match (field w 0 10 : BitVec 10) with
  | 0x0#10 => finish w 0x00000000#32 (true) (.add (field w 20 5) (field w 15 5) (field w 10 5))
  | 0x1#10 => finish w 0x00000000#32 (true) (.sub (field w 20 5) (field w 15 5) (field w 10 5))
  | 0x2#10 => finish w 0x00000000#32 (true) (.mul (field w 20 5) (field w 15 5) (field w 10 5))
  | 0x3#10 => finish w 0x00000000#32 (true) (.mulh (field w 20 5) (field w 15 5) (field w 10 5))
  | 0x4#10 => finish w 0x00000000#32 (true) (.mulhu (field w 20 5) (field w 15 5) (field w 10 5))
  | 0x5#10 => finish w 0x00000000#32 (true) (.madd (field w 20 5) (field w 15 5) (field w 10 5))
  | 0x6#10 => finish w 0x00000000#32 (true) (.div (field w 20 5) (field w 15 5) (field w 10 5))
  | 0x7#10 => finish w 0x00000000#32 (true) (.divu (field w 20 5) (field w 15 5) (field w 10 5))
  | 0x8#10 => finish w 0x00000000#32 (true) (.rem (field w 20 5) (field w 15 5) (field w 10 5))
  | 0x9#10 => finish w 0x00000000#32 (true) (.remu (field w 20 5) (field w 15 5) (field w 10 5))
  | 0x10#10 => finish w 0x00000000#32 (true) (.and (field w 20 5) (field w 15 5) (field w 10 5))
  | 0x11#10 => finish w 0x00000000#32 (true) (.or (field w 20 5) (field w 15 5) (field w 10 5))
  | 0x12#10 => finish w 0x00000000#32 (true) (.xor (field w 20 5) (field w 15 5) (field w 10 5))
  | 0x13#10 => finish w 0x00000000#32 (true) (.andn (field w 20 5) (field w 15 5) (field w 10 5))
  | 0x18#10 => finish w 0x00000000#32 (true) (.shl (field w 20 5) (field w 15 5) (field w 10 5))
  | 0x19#10 => finish w 0x00000000#32 (true) (.shr (field w 20 5) (field w 15 5) (field w 10 5))
  | 0x1A#10 => finish w 0x00000000#32 (true) (.sar (field w 20 5) (field w 15 5) (field w 10 5))
  | 0x20#10 => finish w 0x00000000#32 (true) (.slt (field w 20 5) (field w 15 5) (field w 10 5))
  | 0x21#10 => finish w 0x00000000#32 (true) (.sltu (field w 20 5) (field w 15 5) (field w 10 5))
  | 0x22#10 => finish w 0x00000000#32 (true) (.min (field w 20 5) (field w 15 5) (field w 10 5))
  | 0x23#10 => finish w 0x00000000#32 (true) (.max (field w 20 5) (field w 15 5) (field w 10 5))
  | 0x24#10 => finish w 0x00000000#32 (true) (.minu (field w 20 5) (field w 15 5) (field w 10 5))
  | 0x25#10 => finish w 0x00000000#32 (true) (.maxu (field w 20 5) (field w 15 5) (field w 10 5))
  | 0x28#10 => finish w 0x00007C00#32 (true) (.clz (field w 20 5) (field w 15 5))
  | 0x29#10 => finish w 0x00007C00#32 (true) (.popc (field w 20 5) (field w 15 5))
  | _ => .error .unassignedFunction

/-- decodeS: opcode 0x27 (BAR_ARR, BAR_ARR_DROP, BAR_ARR_JOIN). -/
def decodeS_27 (w : Word) : Except DecodeError Instr :=
  match (field w 0 10 : BitVec 10) with
  | 0x0#10 => finish w 0x01F07C00#32 (true) (.barArr (field w 15 5))
  | 0x1#10 => finish w 0x01F07C00#32 (true) (.barArrDrop (field w 15 5))
  | 0x2#10 => finish w 0x01F07C00#32 (true) (.barArrJoin (field w 15 5))
  | _ => .error .unassignedFunction

/-- decodeS: opcode 0x2A (MWAIT, MWAIT_W). -/
def decodeS_2A (w : Word) : Except DecodeError Instr :=
  match (field w 0 10 : BitVec 10) with
  | 0x0#10 => finish w 0x00000000#32 (true) (.mwait (field w 20 5) (field w 15 5) (field w 10 5))
  | 0x1#10 => finish w 0x00000000#32 (true) (.mwaitW (field w 20 5) (field w 15 5) (field w 10 5))
  | _ => .error .unassignedFunction

/-- decodeS: opcode 0x39 (AMO_ADD, AMO_AND, AMO_OR, AMO_XOR, AMO_MIN, AMO_MAX, AMO_MINU, AMO_MAXU, AMO_SWAP, AMO_FADD). -/
def decodeS_39 (w : Word) : Except DecodeError Instr :=
  match (field w 6 4 : BitVec 4) with
  | 0x0#4 => finish w 0x00000003#32 (true) (.amoAdd (field w 20 5) (field w 15 5) (field w 10 5) (field w 5 1) (field w 2 3))
  | 0x1#4 => finish w 0x00000003#32 (true) (.amoAnd (field w 20 5) (field w 15 5) (field w 10 5) (field w 5 1) (field w 2 3))
  | 0x2#4 => finish w 0x00000003#32 (true) (.amoOr (field w 20 5) (field w 15 5) (field w 10 5) (field w 5 1) (field w 2 3))
  | 0x3#4 => finish w 0x00000003#32 (true) (.amoXor (field w 20 5) (field w 15 5) (field w 10 5) (field w 5 1) (field w 2 3))
  | 0x4#4 => finish w 0x00000003#32 (true) (.amoMin (field w 20 5) (field w 15 5) (field w 10 5) (field w 5 1) (field w 2 3))
  | 0x5#4 => finish w 0x00000003#32 (true) (.amoMax (field w 20 5) (field w 15 5) (field w 10 5) (field w 5 1) (field w 2 3))
  | 0x6#4 => finish w 0x00000003#32 (true) (.amoMinu (field w 20 5) (field w 15 5) (field w 10 5) (field w 5 1) (field w 2 3))
  | 0x7#4 => finish w 0x00000003#32 (true) (.amoMaxu (field w 20 5) (field w 15 5) (field w 10 5) (field w 5 1) (field w 2 3))
  | 0x8#4 => finish w 0x00000003#32 (true) (.amoSwap (field w 20 5) (field w 15 5) (field w 10 5) (field w 5 1) (field w 2 3))
  | 0x9#4 => finish w 0x00000003#32 (field w 5 1 == 0) (.amoFadd (field w 20 5) (field w 15 5) (field w 10 5) (field w 2 3))
  | _ => .error .unassignedFunction

/-- decodeS: opcode 0x40 (QPUT_V, QPUT_M, QPUT_X). -/
def decodeS_40 (w : Word) : Except DecodeError Instr :=
  if w &&& 0x01F07FFC#32 != 0 then .error .reservedField else
  match (field w 0 2 : BitVec 2) with
  | 0x0#2 => finish w 0x00000000#32 (true) (.qputV (field w 15 5))
  | 0x1#2 => finish w 0x00000000#32 (true) (.qputM (field w 15 5))
  | 0x2#2 => finish w 0x00000000#32 (true) (.qputX (field w 15 5))
  | _ => .error .reservedValue

/-- decodeS: opcode 0x48 (EPUSH, EPUSH_END). -/
def decodeS_48 (w : Word) : Except DecodeError Instr :=
  match (field w 3 1 : BitVec 1) with
  | 0x0#1 => finish w 0x000FFFF0#32 (true) (.epush (field w 20 5) (field w 0 3))
  | 0x1#1 => finish w 0x000FFFF0#32 (true) (.epushEnd (field w 20 5) (field w 0 3))

/-- decodeS: opcode 0x50 (TLOC_R, TLOC_D). -/
def decodeS_50 (w : Word) : Except DecodeError Instr :=
  if w &&& 0x00001FF0#32 != 0 then .error .reservedField else
  match (field w 13 2 : BitVec 2) with
  | 0x0#2 => finish w 0x00000000#32 (true) (.tlocR (field w 20 5) (field w 15 5) (field w 0 4))
  | 0x1#2 => finish w 0x00000000#32 (true) (.tlocD (field w 20 5) (field w 15 5) (field w 0 4))
  | _ => .error .reservedValue

/-- decodeS: opcode 0x65 (TLBINV_VA, TLBINV_PASID, TLBINV_IPA, TLBINV_PART). -/
def decodeS_65 (w : Word) : Except DecodeError Instr :=
  if w &&& 0x00007FF8#32 != 0 then .error .reservedField else
  match (field w 0 3 : BitVec 3) with
  | 0x0#3 => finish w 0x00000000#32 (true) (.tlbinvVa (field w 20 5) (field w 15 5))
  | 0x1#3 => finish w 0x00000000#32 (true) (.tlbinvPasid (field w 20 5) (field w 15 5))
  | 0x2#3 => finish w 0x00000000#32 (true) (.tlbinvIpa (field w 20 5) (field w 15 5))
  | 0x3#3 => finish w 0x00000000#32 (true) (.tlbinvPart (field w 20 5) (field w 15 5))
  | _ => .error .reservedValue

/-- decodeS: opcode 0x67 (ICINV, ICINV_ALL). -/
def decodeS_67 (w : Word) : Except DecodeError Instr :=
  match (field w 4 1 : BitVec 1) with
  | 0x0#1 => finish w 0x000FFFE0#32 (true) (.icinv (field w 20 5) (field w 0 4))
  | 0x1#1 => finish w 0x000FFFE0#32 (true) (.icinvAll (field w 20 5) (field w 0 4))

/-- Decode of a sequencer word (R33 to R40): opcode, then function, then reserved fields, then reserved values (R27). -/
def decodeS (w : Word) : Except DecodeError Instr :=
  match (field w 25 7 : BitVec 7) with
  | 0x01#7 => decodeS_01 w
  | 0x02#7 => finish w 0x0000001F#32 (true) (.sel (field w 20 5) (field w 15 5) (field w 10 5) (field w 5 5))
  | 0x04#7 => finish w 0x00000000#32 (true) (.addi (field w 20 5) (field w 15 5) (field w 0 15))
  | 0x05#7 => finish w 0x00000000#32 (true) (.andi (field w 20 5) (field w 15 5) (field w 0 15))
  | 0x06#7 => finish w 0x00000000#32 (true) (.ori (field w 20 5) (field w 15 5) (field w 0 15))
  | 0x07#7 => finish w 0x00000000#32 (true) (.xori (field w 20 5) (field w 15 5) (field w 0 15))
  | 0x08#7 => finish w 0x00000000#32 (true) (.slti (field w 20 5) (field w 15 5) (field w 0 15))
  | 0x09#7 => finish w 0x00000000#32 (true) (.sltiu (field w 20 5) (field w 15 5) (field w 0 15))
  | 0x0A#7 => finish w 0x00007FC0#32 (true) (.shli (field w 20 5) (field w 15 5) (field w 0 6))
  | 0x0B#7 => finish w 0x00007FC0#32 (true) (.shri (field w 20 5) (field w 15 5) (field w 0 6))
  | 0x0C#7 => finish w 0x00007FC0#32 (true) (.sari (field w 20 5) (field w 15 5) (field w 0 6))
  | 0x0D#7 => finish w 0x00006000#32 (true) (.bfx (field w 20 5) (field w 15 5) (field w 7 6) (field w 0 7))
  | 0x0E#7 => finish w 0x00006000#32 (true) (.bfi (field w 20 5) (field w 15 5) (field w 7 6) (field w 0 7))
  | 0x10#7 => finish w 0x00000000#32 (true) (.lui (field w 20 5) (field w 0 20))
  | 0x11#7 => finish w 0x00000000#32 (true) (.addpc (field w 20 5) (field w 0 20))
  | 0x12#7 => finish w 0x00000000#32 (true) (.ldr (field w 20 5) (field w 0 20))
  | 0x18#7 => finish w 0x00000000#32 (true) (.bcc (field w 21 4) (field w 16 5) (field w 11 5) (field w 0 11))
  | 0x19#7 => finish w 0x00000000#32 (true) (.j (field w 0 25))
  | 0x1A#7 => finish w 0x00000000#32 (true) (.jl (field w 0 25))
  | 0x1B#7 => finish w 0x01F00000#32 (true) (.jr (field w 15 5) (field w 0 15))
  | 0x1C#7 => finish w 0x00000000#32 (true) (.jlr (field w 20 5) (field w 15 5) (field w 0 15))
  | 0x1D#7 => finish w 0x01F00000#32 (true) (.loop (field w 15 5) (field w 0 15))
  | 0x1E#7 => finish w 0x01F00000#32 (true) (.loopi (field w 10 10) (field w 0 10))
  | 0x1F#7 => finish w 0x01FFFFFF#32 (true) (.rend)
  | 0x20#7 => finish w 0x01FFFFFF#32 (true) (.nop)
  | 0x21#7 => finish w 0x01FFFFFF#32 (true) (.yield)
  | 0x22#7 => finish w 0x000FFFFF#32 (true) (.kread (field w 20 5))
  | 0x23#7 => finish w 0x00007FFF#32 (true) (.pwin (field w 20 5) (field w 15 5))
  | 0x24#7 => finish w 0x01FFFFFC#32 (true) (.tkwait (field w 1 1) (field w 0 1))
  | 0x25#7 => finish w 0x01FFFFFC#32 (true) (.tkpost (field w 1 1) (field w 0 1))
  | 0x26#7 => finish w 0x01F003FF#32 (true) (.barInit (field w 15 5) (field w 10 5))
  | 0x27#7 => decodeS_27 w
  | 0x28#7 => finish w 0x01F07FFF#32 (true) (.barWait (field w 15 5))
  | 0x29#7 => finish w 0x01F00000#32 (field w 12 3 == 6 && field w 10 2 == 0) (.monarm (field w 15 5) (field w 0 10))
  | 0x2A#7 => decodeS_2A w
  | 0x2B#7 => finish w 0x01FF800F#32 (true) (.fence (field w 12 3) (field w 8 4) (field w 4 4))
  | 0x2C#7 => finish w 0x01FFFFFF#32 (true) (.fenceHb)
  | 0x2D#7 => finish w 0x01FFFFFF#32 (true) (.fenceStk)
  | 0x30#7 => finish w 0x00000000#32 (true) (.ld (field w 20 5) (field w 15 5) (field w 12 3) (field w 10 2) (field w 0 10))
  | 0x31#7 => finish w 0x00000000#32 (true) (.ldu (field w 20 5) (field w 15 5) (field w 12 3) (field w 10 2) (field w 0 10))
  | 0x32#7 => finish w 0x00000000#32 (true) (.st (field w 20 5) (field w 15 5) (field w 12 3) (field w 10 2) (field w 0 10))
  | 0x33#7 => finish w 0x01C00000#32 (field w 12 3 == 7 && field w 11 1 == 0) (.ldq (field w 20 2) (field w 15 5) (field w 10 1) (field w 0 10))
  | 0x34#7 => finish w 0x01E00000#32 (field w 12 3 == 7 && field w 11 1 == 0) (.stq (field w 20 1) (field w 15 5) (field w 10 1) (field w 0 10))
  | 0x35#7 => finish w 0x01E00000#32 (field w 12 3 == 6 && field w 10 2 == 0) (.pref (field w 20 1) (field w 15 5) (field w 0 10))
  | 0x36#7 => finish w 0x01C00000#32 (field w 12 3 == 6 && field w 10 2 == 0) (.ipref (field w 20 2) (field w 15 5) (field w 0 10))
  | 0x37#7 => finish w 0x01F00000#32 (field w 12 3 == 6 && field w 10 2 == 0) (.clean (field w 15 5) (field w 0 10))
  | 0x38#7 => finish w 0x01F00000#32 (field w 12 3 == 6 && field w 10 2 == 0) (.invl (field w 15 5) (field w 0 10))
  | 0x39#7 => decodeS_39 w
  | 0x3A#7 => finish w 0x000003C3#32 (true) (.cas (field w 20 5) (field w 15 5) (field w 10 5) (field w 5 1) (field w 2 3))
  | 0x40#7 => decodeS_40 w
  | 0x41#7 => finish w 0x000FFFFF#32 (true) (.qget (field w 20 5))
  | 0x42#7 => finish w 0x00007FF0#32 (true) (.rngset (field w 20 5) (field w 15 5) (field w 0 4))
  | 0x43#7 => finish w 0x000FFFF0#32 (true) (.rngstat (field w 20 5) (field w 0 4))
  | 0x44#7 => finish w 0x000FFFC0#32 (true) (.sdset (field w 20 5) (field w 4 2) (field w 0 4))
  | 0x45#7 => finish w 0x000FFFC0#32 (true) (.sdget (field w 20 5) (field w 4 2) (field w 0 4))
  | 0x48#7 => decodeS_48 w
  | 0x49#7 => finish w 0x000FFFF8#32 (true) (.epop (field w 20 5) (field w 0 3))
  | 0x4A#7 => finish w 0x000FFFF8#32 (true) (.epoll (field w 20 5) (field w 0 3))
  | 0x4B#7 => finish w 0x000FFFF8#32 (true) (.estat (field w 20 5) (field w 0 3))
  | 0x50#7 => decodeS_50 w
  | 0x51#7 => finish w 0x00007FF0#32 (true) (.tsmap (field w 20 5) (field w 15 5) (field w 0 4))
  | 0x52#7 => finish w 0x000FFFFF#32 (true) (.tmesh (field w 20 5))
  | 0x53#7 => finish w 0x00007F00#32 (true) (.reshard (field w 20 5) (field w 15 5) (field w 4 4) (field w 0 4))
  | 0x54#7 => finish w 0x00007FFF#32 (true) (.rstat (field w 20 5) (field w 15 5))
  | 0x55#7 => finish w 0x00007FF0#32 (true) (.smv (field w 20 5) (field w 15 5) (field w 0 4))
  | 0x60#7 => finish w 0x000FF000#32 (true) (.sysr (field w 20 5) (field w 0 12))
  | 0x61#7 => finish w 0x000FF000#32 (true) (.sysw (field w 20 5) (field w 0 12))
  | 0x62#7 => finish w 0x01FF8000#32 (true) (.ecall (field w 0 15))
  | 0x63#7 => finish w 0x01FF8000#32 (true) (.trap (field w 0 15))
  | 0x64#7 => finish w 0x01FFFFFF#32 (true) (.tret)
  | 0x65#7 => decodeS_65 w
  | 0x66#7 => finish w 0x01FFFFFF#32 (true) (.tlbsync)
  | 0x67#7 => decodeS_67 w
  | 0x68#7 => finish w 0x01FFFFFF#32 (true) (.halt)
  | _ => .error .unassignedOpcode

/-- Decode of a vector word (R41 to R44): opcode, then function, then reserved fields, then reserved values (R27). -/
def decodeV (w : Word) : Except DecodeError Instr :=
  match (field w 26 6 : BitVec 6) with
  | 0x01#6 => finish w 0x00000008#32 (true) (.vadd (field w 22 4) (field w 17 5) (field w 12 5) (field w 7 5) (field w 5 2) (field w 4 1) (field w 0 3))
  | 0x02#6 => finish w 0x00000008#32 (true) (.vsub (field w 22 4) (field w 17 5) (field w 12 5) (field w 7 5) (field w 5 2) (field w 4 1) (field w 0 3))
  | 0x03#6 => finish w 0x00000008#32 (true) (.vmul (field w 22 4) (field w 17 5) (field w 12 5) (field w 7 5) (field w 5 2) (field w 4 1) (field w 0 3))
  | 0x04#6 => finish w 0x00000008#32 (true) (.vfma (field w 22 4) (field w 17 5) (field w 12 5) (field w 7 5) (field w 5 2) (field w 4 1) (field w 0 3))
  | 0x05#6 => finish w 0x00000008#32 (true) (.vfms (field w 22 4) (field w 17 5) (field w 12 5) (field w 7 5) (field w 5 2) (field w 4 1) (field w 0 3))
  | 0x06#6 => finish w 0x00000078#32 (true) (.vmin (field w 22 4) (field w 17 5) (field w 12 5) (field w 7 5) (field w 0 3))
  | 0x07#6 => finish w 0x00000078#32 (true) (.vmax (field w 22 4) (field w 17 5) (field w 12 5) (field w 7 5) (field w 0 3))
  | 0x08#6 => finish w 0x00000FFF#32 (true) (.vabs (field w 22 4) (field w 17 5) (field w 12 5))
  | 0x09#6 => finish w 0x00000FFF#32 (true) (.vneg (field w 22 4) (field w 17 5) (field w 12 5))
  | 0x0A#6 => finish w 0x00000FFF#32 (true) (.vfrcp (field w 22 4) (field w 17 5) (field w 12 5))
  | 0x0B#6 => finish w 0x00000FFF#32 (true) (.vfrsq (field w 22 4) (field w 17 5) (field w 12 5))
  | 0x0C#6 => finish w 0x00000FFF#32 (true) (.vfexp2 (field w 22 4) (field w 17 5) (field w 12 5))
  | 0x0D#6 => finish w 0x00000FFF#32 (true) (.vflog2 (field w 22 4) (field w 17 5) (field w 12 5))
  | 0x0E#6 => finish w 0x00000FFF#32 (true) (.vftanh (field w 22 4) (field w 17 5) (field w 12 5))
  | 0x10#6 => finish w 0x00000078#32 (true) (.vcmpeq (field w 22 4) (field w 17 5) (field w 12 5) (field w 7 5) (field w 0 3))
  | 0x11#6 => finish w 0x00000078#32 (true) (.vcmplt (field w 22 4) (field w 17 5) (field w 12 5) (field w 7 5) (field w 0 3))
  | 0x12#6 => finish w 0x00000078#32 (true) (.vcmple (field w 22 4) (field w 17 5) (field w 12 5) (field w 7 5) (field w 0 3))
  | 0x13#6 => finish w 0x00000078#32 (true) (.vsel (field w 22 4) (field w 17 5) (field w 12 5) (field w 7 5) (field w 0 3))
  | 0x14#6 => finish w 0x00000078#32 (true) (.viadd (field w 22 4) (field w 17 5) (field w 12 5) (field w 7 5) (field w 0 3))
  | 0x15#6 => finish w 0x00000078#32 (true) (.visub (field w 22 4) (field w 17 5) (field w 12 5) (field w 7 5) (field w 0 3))
  | 0x16#6 => finish w 0x00000078#32 (true) (.vimul (field w 22 4) (field w 17 5) (field w 12 5) (field w 7 5) (field w 0 3))
  | 0x17#6 => finish w 0x00000078#32 (true) (.vimin (field w 22 4) (field w 17 5) (field w 12 5) (field w 7 5) (field w 0 3))
  | 0x18#6 => finish w 0x00000078#32 (true) (.vimax (field w 22 4) (field w 17 5) (field w 12 5) (field w 7 5) (field w 0 3))
  | 0x19#6 => finish w 0x00000078#32 (true) (.vand (field w 22 4) (field w 17 5) (field w 12 5) (field w 7 5) (field w 0 3))
  | 0x1A#6 => finish w 0x00000078#32 (true) (.vor (field w 22 4) (field w 17 5) (field w 12 5) (field w 7 5) (field w 0 3))
  | 0x1B#6 => finish w 0x00000078#32 (true) (.vxor (field w 22 4) (field w 17 5) (field w 12 5) (field w 7 5) (field w 0 3))
  | 0x1C#6 => finish w 0x00000078#32 (true) (.vshl (field w 22 4) (field w 17 5) (field w 12 5) (field w 7 5) (field w 0 3))
  | 0x1D#6 => finish w 0x00000078#32 (true) (.vshr (field w 22 4) (field w 17 5) (field w 12 5) (field w 7 5) (field w 0 3))
  | 0x1E#6 => finish w 0x00000078#32 (true) (.vsar (field w 22 4) (field w 17 5) (field w 12 5) (field w 7 5) (field w 0 3))
  | 0x20#6 => finish w 0x00000007#32 (true) (.vcvt (field w 22 4) (field w 17 5) (field w 12 5) (field w 7 5) (field w 5 2) (field w 4 1) (field w 3 1))
  | 0x21#6 => finish w 0x00000000#32 (true) (.vqnt (field w 22 4) (field w 17 5) (field w 12 5) (field w 7 5) (field w 5 2) (field w 4 1) (field w 3 1) (field w 0 3))
  | 0x22#6 => finish w 0x00000070#32 (true) (.vdqnt (field w 22 4) (field w 17 5) (field w 12 5) (field w 7 5) (field w 3 1) (field w 0 3))
  | 0x24#6 => finish w 0x00000FFF#32 (true) (.vrsum (field w 22 4) (field w 17 5) (field w 12 5))
  | 0x25#6 => finish w 0x00000FFF#32 (true) (.vrmax (field w 22 4) (field w 17 5) (field w 12 5))
  | 0x26#6 => finish w 0x00000FFF#32 (true) (.vrmin (field w 22 4) (field w 17 5) (field w 12 5))
  | 0x28#6 => finish w 0x00000078#32 (true) (.vperm (field w 22 4) (field w 17 5) (field w 12 5) (field w 7 5) (field w 0 3))
  | 0x29#6 => finish w 0x00000078#32 (true) (.vbcast (field w 22 4) (field w 17 5) (field w 12 5) (field w 7 5) (field w 0 3))
  | 0x2A#6 => finish w 0x00000078#32 (true) (.vrot (field w 22 4) (field w 17 5) (field w 12 5) (field w 7 5) (field w 0 3))
  | 0x30#6 => finish w 0x00010FFF#32 (true) (.vrd (field w 22 4) (field w 17 5) (field w 12 4))
  | 0x31#6 => finish w 0x0001F078#32 (true) (.vmov (field w 22 4) (field w 17 5) (field w 7 5) (field w 0 3))
  | 0x32#6 => finish w 0x00000078#32 (true) (.vext (field w 22 4) (field w 17 5) (field w 12 5) (field w 7 5) (field w 0 3))
  | 0x33#6 => finish w 0x003FF078#32 (true) (.vshape (field w 22 4) (field w 7 5) (field w 0 3))
  | 0x38#6 => finish w 0x0003FC00#32 (true) (.vloop (field w 22 4) (field w 18 4) (field w 0 10))
  | 0x39#6 => finish w 0x00000000#32 (true) (.vbcc (field w 22 4) (field w 18 4) (field w 14 4) (field w 10 4) (field w 0 10))
  | 0x3A#6 => finish w 0x003FFFFF#32 (true) (.vrend (field w 22 4))
  | 0x3B#6 => finish w 0x003FFFFF#32 (true) (.vnop (field w 22 4))
  | 0x3C#6 => finish w 0x00000000#32 (true) (.vcli (field w 22 4) (field w 18 4) (field w 0 18))
  | 0x3D#6 => finish w 0x00000000#32 (true) (.vcadd (field w 22 4) (field w 18 4) (field w 14 4) (field w 0 14))
  | _ => .error .unassignedOpcode

/-- Decode of a matrix word (R45, R46): opcode, then function, then reserved fields, then reserved values (R27). -/
def decodeM (w : Word) : Except DecodeError Instr :=
  match (field w 28 4 : BitVec 4) with
  | 0x01#4 => finish w 0x00000000#32 (true) (.mma (field w 24 4) (field w 22 2) (field w 18 4) (field w 14 4) (field w 13 1) (field w 12 1) (field w 11 1) (field w 10 1) (field w 9 1) (field w 8 1) (field w 0 8))
  | 0x02#4 => finish w 0x00000000#32 (true) (.mmat (field w 24 4) (field w 22 2) (field w 18 4) (field w 14 4) (field w 13 1) (field w 12 1) (field w 11 1) (field w 10 1) (field w 9 1) (field w 8 1) (field w 0 8))
  | 0x03#4 => finish w 0x003FFFFF#32 (true) (.mzero (field w 24 4) (field w 22 2))
  | 0x04#4 => finish w 0x003C3EFF#32 (true) (.mdrain (field w 24 4) (field w 22 2) (field w 14 4) (field w 8 1))
  | 0x05#4 => finish w 0x0003FBFF#32 (true) (.mfill (field w 24 4) (field w 22 2) (field w 18 4) (field w 10 1))
  | 0x06#4 => finish w 0x0033FFFF#32 (true) (.macc (field w 24 4) (field w 22 2) (field w 18 2))
  | 0x07#4 => finish w 0x00FFFFFF#32 (true) (.mstamp (field w 24 4))
  | 0x08#4 => finish w 0x00FFFF00#32 (true) (.mwin (field w 24 4) (field w 0 8))
  | 0x09#4 => finish w 0x000FFC00#32 (true) (.mloop (field w 24 4) (field w 20 4) (field w 0 10))
  | 0x0A#4 => finish w 0x00000000#32 (true) (.mbcc (field w 24 4) (field w 20 4) (field w 16 4) (field w 12 4) (field w 0 12))
  | 0x0B#4 => finish w 0x00FFFFFF#32 (true) (.mrend (field w 24 4))
  | 0x0C#4 => finish w 0x00FFFFFF#32 (true) (.mnop (field w 24 4))
  | _ => .error .unassignedOpcode

/-- decodeX: opcode 0x0E (XWAIT, XWAIT_ALL). -/
def decodeX_0E (w : Word) : Except DecodeError Instr :=
  match (field w 0 1 : BitVec 1) with
  | 0x0#1 => finish w 0x000FFFFE#32 (true) (.xwait (field w 23 4) (field w 20 3))
  | 0x1#1 => finish w 0x007FFFFE#32 (true) (.xwaitAll (field w 23 4))

/-- Decode of a transfer word (R47, R48): opcode, then function, then reserved fields, then reserved values (R27). -/
def decodeX (w : Word) : Except DecodeError Instr :=
  match (field w 27 5 : BitVec 5) with
  | 0x01#5 => finish w 0x0000FFFF#32 (true) (.xtd (field w 23 4) (field w 20 3) (field w 16 4))
  | 0x02#5 => finish w 0x00000000#32 (true) (.xtdi (field w 23 4) (field w 20 3) (field w 16 4) (field w 0 16))
  | 0x03#5 => finish w 0x00000FFF#32 (true) (.xcopy (field w 23 4) (field w 20 3) (field w 16 4) (field w 12 4))
  | 0x04#5 => finish w 0x00000FFF#32 (true) (.xput (field w 23 4) (field w 20 3) (field w 16 4) (field w 12 4))
  | 0x05#5 => finish w 0x00000001#32 (true) (.xcvt (field w 23 4) (field w 20 3) (field w 16 4) (field w 12 4) (field w 7 5) (field w 5 2) (field w 4 1) (field w 3 1) (field w 2 1) (field w 1 1))
  | 0x06#5 => finish w 0x000000FF#32 (true) (.xgath (field w 23 4) (field w 20 3) (field w 16 4) (field w 12 4) (field w 8 4))
  | 0x07#5 => finish w 0x000000FF#32 (true) (.xscat (field w 23 4) (field w 20 3) (field w 16 4) (field w 12 4) (field w 8 4))
  | 0x08#5 => finish w 0x0000FFFF#32 (true) (.xwopen (field w 23 4) (field w 20 3) (field w 16 4))
  | 0x09#5 => finish w 0x00000FFF#32 (true) (.xwadv (field w 23 4) (field w 20 3) (field w 16 4) (field w 12 4))
  | 0x0A#5 => finish w 0x0000000F#32 (true) (.xkvq (field w 23 4) (field w 20 3) (field w 16 4) (field w 12 4) (field w 7 5) (field w 5 2) (field w 4 1))
  | 0x0B#5 => finish w 0x00000FFF#32 (true) (.xfill (field w 23 4) (field w 20 3) (field w 16 4) (field w 12 4))
  | 0x0C#5 => finish w 0x0001FFFF#32 (true) (.xftl (field w 23 4) (field w 20 3) (field w 17 3))
  | 0x0D#5 => finish w 0x00000FFF#32 (true) (.xpeer (field w 23 4) (field w 20 3) (field w 16 4) (field w 12 4))
  | 0x0E#5 => decodeX_0E w
  | 0x0F#5 => finish w 0x0070FFFF#32 (true) (.xqget (field w 23 4) (field w 16 4))
  | 0x10#5 => finish w 0x00700000#32 (true) (.xcli (field w 23 4) (field w 16 4) (field w 0 16))
  | 0x11#5 => finish w 0x00700000#32 (true) (.xcadd (field w 23 4) (field w 16 4) (field w 12 4) (field w 0 12))
  | 0x12#5 => finish w 0x007000FF#32 (true) (.xcmul (field w 23 4) (field w 16 4) (field w 12 4) (field w 8 4))
  | 0x13#5 => finish w 0x0070FC00#32 (true) (.xloop (field w 23 4) (field w 16 4) (field w 0 10))
  | 0x14#5 => finish w 0x00700000#32 (true) (.xbcc (field w 23 4) (field w 16 4) (field w 12 4) (field w 8 4) (field w 0 8))
  | 0x15#5 => finish w 0x007FFFFF#32 (true) (.xrend (field w 23 4))
  | 0x16#5 => finish w 0x007FFFFF#32 (true) (.xnop (field w 23 4))
  | _ => .error .unassignedOpcode

/-- The decoder of each stream. -/
def decode : Stream → Word → Except DecodeError Instr
  | .s => decodeS
  | .x => decodeX
  | .m => decodeM
  | .v => decodeV

/-- The little-endian word of four bytes (R5, R25). -/
def wordOfBytes (b0 b1 b2 b3 : Byte) : Word := b3 ++ b2 ++ b1 ++ b0

/-- The four bytes of a word, the lowest address first (R5, R25). -/
def bytesOfWord (w : Word) : List Byte := [field w 0 8, field w 8 8, field w 16 8, field w 24 8]

/-- Decode the first word of a byte list in a stream, and give the bytes that follow it. -/
def decodeBytes (st : Stream) : List Byte → Except DecodeError (Instr × List Byte)
  | b0 :: b1 :: b2 :: b3 :: rest =>
    match decode st (wordOfBytes b0 b1 b2 b3) with
    | .ok i => .ok (i, rest)
    | .error e => .error e
  | _ => .error .truncated

/-- The stream in which a table word is read: the first of S, V, M and X in which it decodes (the table's rows name
no stream beside their opcode; assumption log 2). -/
def tableStream (w : Word) : Option Stream :=
  if (decodeS w).toOption.isSome then some .s
  else if (decodeV w).toOption.isSome then some .v
  else if (decodeM w).toOption.isSome then some .m
  else if (decodeX w).toOption.isSome then some .x
  else none

/-- What the decoder reads from an instruction whose bits are `w`, in the stream `tableStream` gives. -/
def decodeTableWord (_nbits w : Nat) : Option Instr :=
  let word := BitVec.ofNat 32 w
  match tableStream word with
  | none => none
  | some st =>
    match decodeBytes st (bytesOfWord word) with
    | .ok (i, _) => some i
    | .error _ => none

/-- The word of an instruction, each field in its place (R33 to R48); events have no word. -/
def encode : Instr → Option Word
  | .add gd gs1 gs2 => some (0x1#7 ++ gd ++ gs1 ++ gs2 ++ 0x0#10 : BitVec 32)
  | .sub gd gs1 gs2 => some (0x1#7 ++ gd ++ gs1 ++ gs2 ++ 0x1#10 : BitVec 32)
  | .mul gd gs1 gs2 => some (0x1#7 ++ gd ++ gs1 ++ gs2 ++ 0x2#10 : BitVec 32)
  | .mulh gd gs1 gs2 => some (0x1#7 ++ gd ++ gs1 ++ gs2 ++ 0x3#10 : BitVec 32)
  | .mulhu gd gs1 gs2 => some (0x1#7 ++ gd ++ gs1 ++ gs2 ++ 0x4#10 : BitVec 32)
  | .madd gd gs1 gs2 => some (0x1#7 ++ gd ++ gs1 ++ gs2 ++ 0x5#10 : BitVec 32)
  | .div gd gs1 gs2 => some (0x1#7 ++ gd ++ gs1 ++ gs2 ++ 0x6#10 : BitVec 32)
  | .divu gd gs1 gs2 => some (0x1#7 ++ gd ++ gs1 ++ gs2 ++ 0x7#10 : BitVec 32)
  | .rem gd gs1 gs2 => some (0x1#7 ++ gd ++ gs1 ++ gs2 ++ 0x8#10 : BitVec 32)
  | .remu gd gs1 gs2 => some (0x1#7 ++ gd ++ gs1 ++ gs2 ++ 0x9#10 : BitVec 32)
  | .and gd gs1 gs2 => some (0x1#7 ++ gd ++ gs1 ++ gs2 ++ 0x10#10 : BitVec 32)
  | .or gd gs1 gs2 => some (0x1#7 ++ gd ++ gs1 ++ gs2 ++ 0x11#10 : BitVec 32)
  | .xor gd gs1 gs2 => some (0x1#7 ++ gd ++ gs1 ++ gs2 ++ 0x12#10 : BitVec 32)
  | .andn gd gs1 gs2 => some (0x1#7 ++ gd ++ gs1 ++ gs2 ++ 0x13#10 : BitVec 32)
  | .shl gd gs1 gs2 => some (0x1#7 ++ gd ++ gs1 ++ gs2 ++ 0x18#10 : BitVec 32)
  | .shr gd gs1 gs2 => some (0x1#7 ++ gd ++ gs1 ++ gs2 ++ 0x19#10 : BitVec 32)
  | .sar gd gs1 gs2 => some (0x1#7 ++ gd ++ gs1 ++ gs2 ++ 0x1A#10 : BitVec 32)
  | .slt gd gs1 gs2 => some (0x1#7 ++ gd ++ gs1 ++ gs2 ++ 0x20#10 : BitVec 32)
  | .sltu gd gs1 gs2 => some (0x1#7 ++ gd ++ gs1 ++ gs2 ++ 0x21#10 : BitVec 32)
  | .min gd gs1 gs2 => some (0x1#7 ++ gd ++ gs1 ++ gs2 ++ 0x22#10 : BitVec 32)
  | .max gd gs1 gs2 => some (0x1#7 ++ gd ++ gs1 ++ gs2 ++ 0x23#10 : BitVec 32)
  | .minu gd gs1 gs2 => some (0x1#7 ++ gd ++ gs1 ++ gs2 ++ 0x24#10 : BitVec 32)
  | .maxu gd gs1 gs2 => some (0x1#7 ++ gd ++ gs1 ++ gs2 ++ 0x25#10 : BitVec 32)
  | .clz gd gs1 => some (0x1#7 ++ gd ++ gs1 ++ 0x28#15 : BitVec 32)
  | .popc gd gs1 => some (0x1#7 ++ gd ++ gs1 ++ 0x29#15 : BitVec 32)
  | .sel gd gs1 gs2 gc => some (0x2#7 ++ gd ++ gs1 ++ gs2 ++ gc ++ 0x0#5 : BitVec 32)
  | .addi gd gs1 imm => some (0x4#7 ++ gd ++ gs1 ++ imm : BitVec 32)
  | .andi gd gs1 imm => some (0x5#7 ++ gd ++ gs1 ++ imm : BitVec 32)
  | .ori gd gs1 imm => some (0x6#7 ++ gd ++ gs1 ++ imm : BitVec 32)
  | .xori gd gs1 imm => some (0x7#7 ++ gd ++ gs1 ++ imm : BitVec 32)
  | .slti gd gs1 imm => some (0x8#7 ++ gd ++ gs1 ++ imm : BitVec 32)
  | .sltiu gd gs1 imm => some (0x9#7 ++ gd ++ gs1 ++ imm : BitVec 32)
  | .shli gd gs1 n => some (0xA#7 ++ gd ++ gs1 ++ 0x0#9 ++ n : BitVec 32)
  | .shri gd gs1 n => some (0xB#7 ++ gd ++ gs1 ++ 0x0#9 ++ n : BitVec 32)
  | .sari gd gs1 n => some (0xC#7 ++ gd ++ gs1 ++ 0x0#9 ++ n : BitVec 32)
  | .bfx gd gs1 lsb width => some (0xD#7 ++ gd ++ gs1 ++ 0x0#2 ++ lsb ++ width : BitVec 32)
  | .bfi gd gs1 lsb width => some (0xE#7 ++ gd ++ gs1 ++ 0x0#2 ++ lsb ++ width : BitVec 32)
  | .lui gd imm => some (0x10#7 ++ gd ++ imm : BitVec 32)
  | .addpc gd imm => some (0x11#7 ++ gd ++ imm : BitVec 32)
  | .ldr gd imm => some (0x12#7 ++ gd ++ imm : BitVec 32)
  | .bcc cond gs1 gs2 off => some (0x18#7 ++ cond ++ gs1 ++ gs2 ++ off : BitVec 32)
  | .j off => some (0x19#7 ++ off : BitVec 32)
  | .jl off => some (0x1A#7 ++ off : BitVec 32)
  | .jr gs1 imm => some (0x360#12 ++ gs1 ++ imm : BitVec 32)
  | .jlr gd gs1 imm => some (0x1C#7 ++ gd ++ gs1 ++ imm : BitVec 32)
  | .loop gs1 len => some (0x3A0#12 ++ gs1 ++ len : BitVec 32)
  | .loopi count len => some (0x3C0#12 ++ count ++ len : BitVec 32)
  | .rend => some (0x3E000000#32 : BitVec 32)
  | .nop => some (0x40000000#32 : BitVec 32)
  | .yield => some (0x42000000#32 : BitVec 32)
  | .kread gd => some (0x22#7 ++ gd ++ 0x0#20 : BitVec 32)
  | .pwin gd gs1 => some (0x23#7 ++ gd ++ gs1 ++ 0x0#15 : BitVec 32)
  | .tkwait left right => some (0x12000000#30 ++ left ++ right : BitVec 32)
  | .tkpost left right => some (0x12800000#30 ++ left ++ right : BitVec 32)
  | .barInit gs1 gs2 => some (0x4C0#12 ++ gs1 ++ gs2 ++ 0x0#10 : BitVec 32)
  | .barArr gs1 => some (0x4E0#12 ++ gs1 ++ 0x0#15 : BitVec 32)
  | .barArrDrop gs1 => some (0x4E0#12 ++ gs1 ++ 0x1#15 : BitVec 32)
  | .barArrJoin gs1 => some (0x4E0#12 ++ gs1 ++ 0x2#15 : BitVec 32)
  | .barWait gs1 => some (0x500#12 ++ gs1 ++ 0x0#15 : BitVec 32)
  | .monarm gbase off => some (0x520#12 ++ gbase ++ 0x18#5 ++ off : BitVec 32)
  | .mwait gd gs1 gs2 => some (0x2A#7 ++ gd ++ gs1 ++ gs2 ++ 0x0#10 : BitVec 32)
  | .mwaitW gd gs1 gs2 => some (0x2A#7 ++ gd ++ gs1 ++ gs2 ++ 0x1#10 : BitVec 32)
  | .fence scope before after => some (0xAC00#17 ++ scope ++ before ++ after ++ 0x0#4 : BitVec 32)
  | .fenceHb => some (0x58000000#32 : BitVec 32)
  | .fenceStk => some (0x5A000000#32 : BitVec 32)
  | .ld gd gbase size order off => some (0x30#7 ++ gd ++ gbase ++ size ++ order ++ off : BitVec 32)
  | .ldu gd gbase size order off => some (0x31#7 ++ gd ++ gbase ++ size ++ order ++ off : BitVec 32)
  | .st g gbase size order off => some (0x32#7 ++ g ++ gbase ++ size ++ order ++ off : BitVec 32)
  | .ldq q gbase order off => some (0x198#10 ++ q ++ gbase ++ 0xE#4 ++ order ++ off : BitVec 32)
  | .stq q gbase order off => some (0x340#11 ++ q ++ gbase ++ 0xE#4 ++ order ++ off : BitVec 32)
  | .pref level gbase off => some (0x350#11 ++ level ++ gbase ++ 0x18#5 ++ off : BitVec 32)
  | .ipref target gbase off => some (0x1B0#10 ++ target ++ gbase ++ 0x18#5 ++ off : BitVec 32)
  | .clean gbase off => some (0x6E0#12 ++ gbase ++ 0x18#5 ++ off : BitVec 32)
  | .invl gbase off => some (0x700#12 ++ gbase ++ 0x18#5 ++ off : BitVec 32)
  | .amoAdd gd gs1 gs2 size order => some (0x39#7 ++ gd ++ gs1 ++ gs2 ++ 0x0#4 ++ size ++ order ++ 0x0#2 : BitVec 32)
  | .amoAnd gd gs1 gs2 size order => some (0x39#7 ++ gd ++ gs1 ++ gs2 ++ 0x1#4 ++ size ++ order ++ 0x0#2 : BitVec 32)
  | .amoOr gd gs1 gs2 size order => some (0x39#7 ++ gd ++ gs1 ++ gs2 ++ 0x2#4 ++ size ++ order ++ 0x0#2 : BitVec 32)
  | .amoXor gd gs1 gs2 size order => some (0x39#7 ++ gd ++ gs1 ++ gs2 ++ 0x3#4 ++ size ++ order ++ 0x0#2 : BitVec 32)
  | .amoMin gd gs1 gs2 size order => some (0x39#7 ++ gd ++ gs1 ++ gs2 ++ 0x4#4 ++ size ++ order ++ 0x0#2 : BitVec 32)
  | .amoMax gd gs1 gs2 size order => some (0x39#7 ++ gd ++ gs1 ++ gs2 ++ 0x5#4 ++ size ++ order ++ 0x0#2 : BitVec 32)
  | .amoMinu gd gs1 gs2 size order => some (0x39#7 ++ gd ++ gs1 ++ gs2 ++ 0x6#4 ++ size ++ order ++ 0x0#2 : BitVec 32)
  | .amoMaxu gd gs1 gs2 size order => some (0x39#7 ++ gd ++ gs1 ++ gs2 ++ 0x7#4 ++ size ++ order ++ 0x0#2 : BitVec 32)
  | .amoSwap gd gs1 gs2 size order => some (0x39#7 ++ gd ++ gs1 ++ gs2 ++ 0x8#4 ++ size ++ order ++ 0x0#2 : BitVec 32)
  | .amoFadd gd gs1 gs2 order => some (0x39#7 ++ gd ++ gs1 ++ gs2 ++ 0x12#5 ++ order ++ 0x0#2 : BitVec 32)
  | .cas gd gs1 gs2 size order => some (0x3A#7 ++ gd ++ gs1 ++ gs2 ++ 0x0#4 ++ size ++ order ++ 0x0#2 : BitVec 32)
  | .qputV gs1 => some (0x800#12 ++ gs1 ++ 0x0#15 : BitVec 32)
  | .qputM gs1 => some (0x800#12 ++ gs1 ++ 0x1#15 : BitVec 32)
  | .qputX gs1 => some (0x800#12 ++ gs1 ++ 0x2#15 : BitVec 32)
  | .qget gd => some (0x41#7 ++ gd ++ 0x0#20 : BitVec 32)
  | .rngset ga gb ring => some (0x42#7 ++ ga ++ gb ++ 0x0#11 ++ ring : BitVec 32)
  | .rngstat ga ring => some (0x43#7 ++ ga ++ 0x0#16 ++ ring : BitVec 32)
  | .sdset ga w ring => some (0x44#7 ++ ga ++ 0x0#14 ++ w ++ ring : BitVec 32)
  | .sdget ga w ring => some (0x45#7 ++ ga ++ 0x0#14 ++ w ++ ring : BitVec 32)
  | .epush ga port => some (0x48#7 ++ ga ++ 0x0#17 ++ port : BitVec 32)
  | .epushEnd ga port => some (0x48#7 ++ ga ++ 0x1#17 ++ port : BitVec 32)
  | .epop ga port => some (0x49#7 ++ ga ++ 0x0#17 ++ port : BitVec 32)
  | .epoll ga port => some (0x4A#7 ++ ga ++ 0x0#17 ++ port : BitVec 32)
  | .estat ga port => some (0x4B#7 ++ ga ++ 0x0#17 ++ port : BitVec 32)
  | .tlocR ga gb mp => some (0x50#7 ++ ga ++ gb ++ 0x0#11 ++ mp : BitVec 32)
  | .tlocD ga gb mp => some (0x50#7 ++ ga ++ gb ++ 0x200#11 ++ mp : BitVec 32)
  | .tsmap ga gb mp => some (0x51#7 ++ ga ++ gb ++ 0x0#11 ++ mp : BitVec 32)
  | .tmesh ga => some (0x52#7 ++ ga ++ 0x0#20 : BitVec 32)
  | .reshard ga gb mps mpd => some (0x53#7 ++ ga ++ gb ++ 0x0#7 ++ mps ++ mpd : BitVec 32)
  | .rstat ga gb => some (0x54#7 ++ ga ++ gb ++ 0x0#15 : BitVec 32)
  | .smv ga gb ring => some (0x55#7 ++ ga ++ gb ++ 0x0#11 ++ ring : BitVec 32)
  | .sysr ga num => some (0x60#7 ++ ga ++ 0x0#8 ++ num : BitVec 32)
  | .sysw ga num => some (0x61#7 ++ ga ++ 0x0#8 ++ num : BitVec 32)
  | .ecall n => some (0x18800#17 ++ n : BitVec 32)
  | .trap n => some (0x18C00#17 ++ n : BitVec 32)
  | .tret => some (0xC8000000#32 : BitVec 32)
  | .tlbinvVa ga gb => some (0x65#7 ++ ga ++ gb ++ 0x0#15 : BitVec 32)
  | .tlbinvPasid ga gb => some (0x65#7 ++ ga ++ gb ++ 0x1#15 : BitVec 32)
  | .tlbinvIpa ga gb => some (0x65#7 ++ ga ++ gb ++ 0x2#15 : BitVec 32)
  | .tlbinvPart ga gb => some (0x65#7 ++ ga ++ gb ++ 0x3#15 : BitVec 32)
  | .tlbsync => some (0xCC000000#32 : BitVec 32)
  | .icinv ga mask => some (0x67#7 ++ ga ++ 0x0#16 ++ mask : BitVec 32)
  | .icinvAll ga mask => some (0x67#7 ++ ga ++ 0x1#16 ++ mask : BitVec 32)
  | .halt => some (0xD0000000#32 : BitVec 32)
  | .vadd sync vd vs1 vs2 rnd ovf sopd => some (0x1#6 ++ sync ++ vd ++ vs1 ++ vs2 ++ rnd ++ ovf ++ 0x0#1 ++ sopd : BitVec 32)
  | .vsub sync vd vs1 vs2 rnd ovf sopd => some (0x2#6 ++ sync ++ vd ++ vs1 ++ vs2 ++ rnd ++ ovf ++ 0x0#1 ++ sopd : BitVec 32)
  | .vmul sync vd vs1 vs2 rnd ovf sopd => some (0x3#6 ++ sync ++ vd ++ vs1 ++ vs2 ++ rnd ++ ovf ++ 0x0#1 ++ sopd : BitVec 32)
  | .vfma sync vd vs1 vs2 rnd ovf sopd => some (0x4#6 ++ sync ++ vd ++ vs1 ++ vs2 ++ rnd ++ ovf ++ 0x0#1 ++ sopd : BitVec 32)
  | .vfms sync vd vs1 vs2 rnd ovf sopd => some (0x5#6 ++ sync ++ vd ++ vs1 ++ vs2 ++ rnd ++ ovf ++ 0x0#1 ++ sopd : BitVec 32)
  | .vmin sync vd vs1 vs2 sopd => some (0x6#6 ++ sync ++ vd ++ vs1 ++ vs2 ++ 0x0#4 ++ sopd : BitVec 32)
  | .vmax sync vd vs1 vs2 sopd => some (0x7#6 ++ sync ++ vd ++ vs1 ++ vs2 ++ 0x0#4 ++ sopd : BitVec 32)
  | .vabs sync vd vs1 => some (0x8#6 ++ sync ++ vd ++ vs1 ++ 0x0#12 : BitVec 32)
  | .vneg sync vd vs1 => some (0x9#6 ++ sync ++ vd ++ vs1 ++ 0x0#12 : BitVec 32)
  | .vfrcp sync vd vs1 => some (0xA#6 ++ sync ++ vd ++ vs1 ++ 0x0#12 : BitVec 32)
  | .vfrsq sync vd vs1 => some (0xB#6 ++ sync ++ vd ++ vs1 ++ 0x0#12 : BitVec 32)
  | .vfexp2 sync vd vs1 => some (0xC#6 ++ sync ++ vd ++ vs1 ++ 0x0#12 : BitVec 32)
  | .vflog2 sync vd vs1 => some (0xD#6 ++ sync ++ vd ++ vs1 ++ 0x0#12 : BitVec 32)
  | .vftanh sync vd vs1 => some (0xE#6 ++ sync ++ vd ++ vs1 ++ 0x0#12 : BitVec 32)
  | .vcmpeq sync vd vs1 vs2 sopd => some (0x10#6 ++ sync ++ vd ++ vs1 ++ vs2 ++ 0x0#4 ++ sopd : BitVec 32)
  | .vcmplt sync vd vs1 vs2 sopd => some (0x11#6 ++ sync ++ vd ++ vs1 ++ vs2 ++ 0x0#4 ++ sopd : BitVec 32)
  | .vcmple sync vd vs1 vs2 sopd => some (0x12#6 ++ sync ++ vd ++ vs1 ++ vs2 ++ 0x0#4 ++ sopd : BitVec 32)
  | .vsel sync vd vs1 vs2 sopd => some (0x13#6 ++ sync ++ vd ++ vs1 ++ vs2 ++ 0x0#4 ++ sopd : BitVec 32)
  | .viadd sync vd vs1 vs2 sopd => some (0x14#6 ++ sync ++ vd ++ vs1 ++ vs2 ++ 0x0#4 ++ sopd : BitVec 32)
  | .visub sync vd vs1 vs2 sopd => some (0x15#6 ++ sync ++ vd ++ vs1 ++ vs2 ++ 0x0#4 ++ sopd : BitVec 32)
  | .vimul sync vd vs1 vs2 sopd => some (0x16#6 ++ sync ++ vd ++ vs1 ++ vs2 ++ 0x0#4 ++ sopd : BitVec 32)
  | .vimin sync vd vs1 vs2 sopd => some (0x17#6 ++ sync ++ vd ++ vs1 ++ vs2 ++ 0x0#4 ++ sopd : BitVec 32)
  | .vimax sync vd vs1 vs2 sopd => some (0x18#6 ++ sync ++ vd ++ vs1 ++ vs2 ++ 0x0#4 ++ sopd : BitVec 32)
  | .vand sync vd vs1 vs2 sopd => some (0x19#6 ++ sync ++ vd ++ vs1 ++ vs2 ++ 0x0#4 ++ sopd : BitVec 32)
  | .vor sync vd vs1 vs2 sopd => some (0x1A#6 ++ sync ++ vd ++ vs1 ++ vs2 ++ 0x0#4 ++ sopd : BitVec 32)
  | .vxor sync vd vs1 vs2 sopd => some (0x1B#6 ++ sync ++ vd ++ vs1 ++ vs2 ++ 0x0#4 ++ sopd : BitVec 32)
  | .vshl sync vd vs1 vs2 sopd => some (0x1C#6 ++ sync ++ vd ++ vs1 ++ vs2 ++ 0x0#4 ++ sopd : BitVec 32)
  | .vshr sync vd vs1 vs2 sopd => some (0x1D#6 ++ sync ++ vd ++ vs1 ++ vs2 ++ 0x0#4 ++ sopd : BitVec 32)
  | .vsar sync vd vs1 vs2 sopd => some (0x1E#6 ++ sync ++ vd ++ vs1 ++ vs2 ++ 0x0#4 ++ sopd : BitVec 32)
  | .vcvt sync vd vs1 fmt rnd ovf inf => some (0x20#6 ++ sync ++ vd ++ vs1 ++ fmt ++ rnd ++ ovf ++ inf ++ 0x0#3 : BitVec 32)
  | .vqnt sync vd vs1 vs2 rnd ovf inf sopd => some (0x21#6 ++ sync ++ vd ++ vs1 ++ vs2 ++ rnd ++ ovf ++ inf ++ sopd : BitVec 32)
  | .vdqnt sync vd vs1 vs2 inf sopd => some (0x22#6 ++ sync ++ vd ++ vs1 ++ vs2 ++ 0x0#3 ++ inf ++ sopd : BitVec 32)
  | .vrsum sync vd vs1 => some (0x24#6 ++ sync ++ vd ++ vs1 ++ 0x0#12 : BitVec 32)
  | .vrmax sync vd vs1 => some (0x25#6 ++ sync ++ vd ++ vs1 ++ 0x0#12 : BitVec 32)
  | .vrmin sync vd vs1 => some (0x26#6 ++ sync ++ vd ++ vs1 ++ 0x0#12 : BitVec 32)
  | .vperm sync vd vs1 vs2 sopd => some (0x28#6 ++ sync ++ vd ++ vs1 ++ vs2 ++ 0x0#4 ++ sopd : BitVec 32)
  | .vbcast sync vd vs1 vs2 sopd => some (0x29#6 ++ sync ++ vd ++ vs1 ++ vs2 ++ 0x0#4 ++ sopd : BitVec 32)
  | .vrot sync vd vs1 vs2 sopd => some (0x2A#6 ++ sync ++ vd ++ vs1 ++ vs2 ++ 0x0#4 ++ sopd : BitVec 32)
  | .vrd sync vd ring => some (0x30#6 ++ sync ++ vd ++ 0x0#1 ++ ring ++ 0x0#12 : BitVec 32)
  | .vmov sync vd vs2 sopd => some (0x31#6 ++ sync ++ vd ++ 0x0#5 ++ vs2 ++ 0x0#4 ++ sopd : BitVec 32)
  | .vext sync vd vs1 vs2 sopd => some (0x32#6 ++ sync ++ vd ++ vs1 ++ vs2 ++ 0x0#4 ++ sopd : BitVec 32)
  | .vshape sync vs2 sopd => some (0x33#6 ++ sync ++ 0x0#10 ++ vs2 ++ 0x0#4 ++ sopd : BitVec 32)
  | .vloop sync cn len => some (0x38#6 ++ sync ++ cn ++ 0x0#8 ++ len : BitVec 32)
  | .vbcc sync cond ca cb off => some (0x39#6 ++ sync ++ cond ++ ca ++ cb ++ off : BitVec 32)
  | .vrend sync => some (0x3A#6 ++ sync ++ 0x0#22 : BitVec 32)
  | .vnop sync => some (0x3B#6 ++ sync ++ 0x0#22 : BitVec 32)
  | .vcli sync cd imm => some (0x3C#6 ++ sync ++ cd ++ imm : BitVec 32)
  | .vcadd sync cd ca imm => some (0x3D#6 ++ sync ++ cd ++ ca ++ imm : BitVec 32)
  | .mma sync acc sta stb ta tb ow pa pb last stamp => some (0x1#4 ++ sync ++ acc ++ sta ++ stb ++ ta ++ tb ++ ow ++ pa ++ pb ++ last ++ stamp : BitVec 32)
  | .mmat sync acc sta stb ta tb ow pa pb last stamp => some (0x2#4 ++ sync ++ acc ++ sta ++ stb ++ ta ++ tb ++ ow ++ pa ++ pb ++ last ++ stamp : BitVec 32)
  | .mzero sync acc => some (0x3#4 ++ sync ++ acc ++ 0x0#22 : BitVec 32)
  | .mdrain sync acc ring last => some (0x4#4 ++ sync ++ acc ++ 0x0#4 ++ ring ++ 0x0#5 ++ last ++ 0x0#8 : BitVec 32)
  | .mfill sync acc ring pa => some (0x5#4 ++ sync ++ acc ++ ring ++ 0x0#7 ++ pa ++ 0x0#10 : BitVec 32)
  | .macc sync acc src => some (0x6#4 ++ sync ++ acc ++ 0x0#2 ++ src ++ 0x0#18 : BitVec 32)
  | .mstamp sync => some (0x7#4 ++ sync ++ 0x0#24 : BitVec 32)
  | .mwin sync n => some (0x8#4 ++ sync ++ 0x0#16 ++ n : BitVec 32)
  | .mloop sync cn len => some (0x9#4 ++ sync ++ cn ++ 0x0#10 ++ len : BitVec 32)
  | .mbcc sync cond ca cb off => some (0xA#4 ++ sync ++ cond ++ ca ++ cb ++ off : BitVec 32)
  | .mrend sync => some (0xB#4 ++ sync ++ 0x0#24 : BitVec 32)
  | .mnop sync => some (0xC#4 ++ sync ++ 0x0#24 : BitVec 32)
  | .xtd sync td cb => some (0x1#5 ++ sync ++ td ++ cb ++ 0x0#16 : BitVec 32)
  | .xtdi sync td f imm => some (0x2#5 ++ sync ++ td ++ f ++ imm : BitVec 32)
  | .xcopy sync td ring ci => some (0x3#5 ++ sync ++ td ++ ring ++ ci ++ 0x0#12 : BitVec 32)
  | .xput sync td ring ci => some (0x4#5 ++ sync ++ td ++ ring ++ ci ++ 0x0#12 : BitVec 32)
  | .xcvt sync td ring ci fmt rnd ovf inf tr ts => some (0x5#5 ++ sync ++ td ++ ring ++ ci ++ fmt ++ rnd ++ ovf ++ inf ++ tr ++ ts ++ 0x0#1 : BitVec 32)
  | .xgath sync td ring ci sti => some (0x6#5 ++ sync ++ td ++ ring ++ ci ++ sti ++ 0x0#8 : BitVec 32)
  | .xscat sync td ring ci sti => some (0x7#5 ++ sync ++ td ++ ring ++ ci ++ sti ++ 0x0#8 : BitVec 32)
  | .xwopen sync td ring => some (0x8#5 ++ sync ++ td ++ ring ++ 0x0#16 : BitVec 32)
  | .xwadv sync td ring ci => some (0x9#5 ++ sync ++ td ++ ring ++ ci ++ 0x0#12 : BitVec 32)
  | .xkvq sync td ring ci fmt rnd ovf => some (0xA#5 ++ sync ++ td ++ ring ++ ci ++ fmt ++ rnd ++ ovf ++ 0x0#4 : BitVec 32)
  | .xfill sync td ring ci => some (0xB#5 ++ sync ++ td ++ ring ++ ci ++ 0x0#12 : BitVec 32)
  | .xftl sync td table => some (0xC#5 ++ sync ++ td ++ table ++ 0x0#17 : BitVec 32)
  | .xpeer sync td ring ci => some (0xD#5 ++ sync ++ td ++ ring ++ ci ++ 0x0#12 : BitVec 32)
  | .xwait sync td => some (0xE#5 ++ sync ++ td ++ 0x0#20 : BitVec 32)
  | .xwaitAll sync => some (0xE#5 ++ sync ++ 0x1#23 : BitVec 32)
  | .xqget sync cd => some (0xF#5 ++ sync ++ 0x0#3 ++ cd ++ 0x0#16 : BitVec 32)
  | .xcli sync cd imm => some (0x10#5 ++ sync ++ 0x0#3 ++ cd ++ imm : BitVec 32)
  | .xcadd sync cd ca imm => some (0x11#5 ++ sync ++ 0x0#3 ++ cd ++ ca ++ imm : BitVec 32)
  | .xcmul sync cd ca cb => some (0x12#5 ++ sync ++ 0x0#3 ++ cd ++ ca ++ cb ++ 0x0#8 : BitVec 32)
  | .xloop sync cn len => some (0x13#5 ++ sync ++ 0x0#3 ++ cn ++ 0x0#6 ++ len : BitVec 32)
  | .xbcc sync cond ca cb off => some (0x14#5 ++ sync ++ 0x0#3 ++ cond ++ ca ++ cb ++ off : BitVec 32)
  | .xrend sync => some (0x15#5 ++ sync ++ 0x0#23 : BitVec 32)
  | .xnop sync => some (0x16#5 ++ sync ++ 0x0#23 : BitVec 32)
  | .notify _ _ _ => none
  | .queueMap _ _ _ => none
  | .queueUnmap _ _ => none
  | .commandFetch _ _ => none
  | .nodeDispatch _ => none
  | .startJob _ _ => none
  | .iterationRetirement _ => none
  | .nodeBoundary _ => none
  | .park _ => none
  | .unpark _ => none
  | .stopcore _ => none
  | .savecore _ => none
  | .restorecore _ => none
  | .corestart _ => none
  | .rstore _ => none
  | .msend _ => none
  | .swrite _ => none
  | .stab _ => none
  | .stackSideProduct _ => none
  | .reshardPlan _ => none
  | .reshardDigestTimeout _ _ => none
  | .reshardPiece _ _ => none
  | .ep3ArrivalPush _ _ => none
  | .transferCompletion _ _ => none
  | .stepRetirement _ => none
  | .decodeChunk _ _ _ => none
  | .l2Eviction _ _ => none
  | .scrub _ _ => none
  | .stallFault _ => none
  | .kilnTickBoundary => none
  | .trapEntry _ => none
  | .drainTimeout _ => none
  | .asynchronousRecord _ => none
  | .arpop _ _ => none
  | .stateWindowAccess _ _ _ => none
  | .pbench _ _ _ => none
  | .pnset _ _ _ => none
  | .vfbind _ _ => none
  | .budgetRegisterWrite _ _ _ => none
  | .ntokWrite _ _ => none
  | .scownWrite _ _ _ => none
  | .domcfgWrite _ _ => none
  | .registerWrite _ _ _ => none
  | .keyGen _ => none
  | .keyDerive _ => none
  | .keyImport _ => none
  | .keyExport _ => none
  | .keySweep _ => none
  | .keyRetire _ => none
  | .keyZeroise _ => none
  | .attestationRequest _ => none
  | .retireCore => none
  | .retireBench => none
  | .retireChan => none
  | .retireLink => none
  | .fwupdate => none
  | .ckptBuddy => none
  | .ckptCxl => none
  | .restoreBuddy => none
  | .restoreCxl => none
  | .imageLoader => none
  | .boot => none
  | .readyTimeout => none
  | .thermalAction _ _ => none
  | .dieReset _ => none
  | .pwrite _ => none
  | .pread _ => none
  | .rdata _ => none
  | .patom _ => none
  | .adata _ => none
  | .ack _ => none
  | .nack _ => none
  | .flitRetry _ _ => none
  | .xlatreq _ => none
  | .xlatrsp _ => none
  | .announce _ => none
  | .annack _ => none
  | .ctrl _ => none
  | .requestTimeout _ _ => none
  | .frame _ _ => none
  | .linkAcknowledgement _ _ _ => none
  | .linkDown _ _ => none
  | .linkTraining _ _ => none
  | .rekey _ _ => none
  | .atsInvalidation _ _ _ _ => none
  | .pageRequestGroupClose _ => none
  | .pageRequestResponse _ _ => none
  | .storePerformed _ _ => none
  | .queueEntryFill _ _ => none
  | .softError _ _ _ => none

end Sys2Proof
end

