-- ==== Sys2Proof/Machine/Operands.lean ====
section
/-! DEFINITION. Where operands lie: the cores, dies, partitions and functions of a state, the g and c registers, the wide
and scalar queues, and the rings of the stream descriptors (R20, R34, R299). -/

namespace Sys2Proof.Machine

/-! ### Cores -/

/-- A core by its package number (R11). -/
def State.coreAt (s : State) (k : Nat) : Core := Tab.get (Core.reset k) s.cores k

/-- The state with one core changed. -/
def State.putCore (s : State) (k : Nat) (c : Core) : State := { s with cores := Tab.set s.cores k c }

/-- The number of the core that acts. -/
def State.me (s : State) : Nat := s.turn.1

/-- The core that acts. -/
def State.core (s : State) : Core := s.coreAt s.me

/-- The state with the acting core changed. -/
def State.mapCore (s : State) (f : Core → Core) : State := s.putCore s.me (f s.core)

/-- The die of a core (R11). -/
def dieOf (core : Nat) : Nat := core / 256

/-- A die of the package. -/
def State.die (s : State) (d : Nat) : Die := vget s.dies {} d

/-- The state with one die changed. -/
def State.mapDie (s : State) (d : Nat) (f : Die → Die) : State :=
  { s with dies := vset s.dies d (f (s.die d)) }

/-- A partition. -/
def State.part (s : State) (p : Nat) : Part := vget s.parts {} p

/-- The state with one partition changed. -/
def State.mapPart (s : State) (p : Nat) (f : Part → Part) : State :=
  { s with parts := vset s.parts p (f (s.part p)) }

/-- A function: 0 to 191 the virtual functions, 192 the physical function (R349). -/
def State.fn (s : State) (n : Nat) : Fn := Tab.get {} s.fns n

/-- The state with one function changed. -/
def State.mapFn (s : State) (n : Nat) (f : Fn → Fn) : State := { s with fns := Tab.set s.fns n (f (s.fn n)) }

/-- The number of the physical function. -/
def physFn : Nat := 192

/-- The node number of a die (R13). -/
def State.nodeOf (s : State) (d : Nat) : Nat :=
  s.coords.2.2 * 256 + (2 * s.coords.2.1 + d / 2) * 16 + (2 * s.coords.1 + d % 2)

/-- The die of the package that is a node, if one is (R13). -/
def State.dieOfNode (s : State) (n : Nat) : Option Nat := (List.range 4).find? fun d => s.nodeOf d == n

/-- A fresh free value, and the state that has drawn it (assumption log 3). -/
def State.draw (s : State) (w : Nat) : BitVec w × State := (Config.freeBits s.free w, { s with free := s.free + 1 })

/-! ### Registers -/

/-- Reg of a g register: g0 reads as zero (R34). -/
def Core.readG (c : Core) (r : BitVec 5) : Dword := if r = 0 then 0 else vget c.g 0 r.toNat

/-- A write of a g register: a write to g0 is discarded (R34). -/
def Core.writeG (c : Core) (r : BitVec 5) (x : Dword) : Core :=
  if r = 0 then c else { c with g := vset c.g r.toNat x }

/-- Reg of a c register of X, M or V; S has none. -/
def Core.readC (c : Core) (st : Stream) (r : BitVec 4) : Dword :=
  match st with
  | .x => vget c.cx 0 r.toNat
  | .m => vget c.cm 0 r.toNat
  | .v => vget c.cv 0 r.toNat
  | .s => 0

/-- A write of a c register of X or V; M has no word that writes one (R99). -/
def Core.writeC (c : Core) (st : Stream) (r : BitVec 4) (x : Dword) : Core :=
  match st with
  | .x => { c with cx := vset c.cx r.toNat x }
  | .m => { c with cm := vset c.cm r.toNat x }
  | .v => { c with cv := vset c.cv r.toNat x }
  | .s => c

/-- A stream's program counter. -/
def Core.pcOf (c : Core) (st : Stream) : Dword := vget c.pc 0 st.code

/-- The context register CTX (R351). -/
def Core.ctx (c : Core) : Dword :=
  place c.pasid.toNat 16 ||| place c.vf.toNat 8 ||| place c.part.toNat 4 ||| place c.pl.toNat 0

/-! ### Queues (R20) -/

/-- The entries a wide queue holds. -/
def WideQueue.size (q : WideQueue) : Nat := (q.tail - q.head).toNat

/-- The head entry. -/
def WideQueue.top (q : WideQueue) : BitVec 2048 := vget q.slot 0 (q.head.toNat % 8)

/-- The head entry popped. -/
def WideQueue.pop (q : WideQueue) : WideQueue := { q with head := q.head + 1 }

/-- An entry written at the tail. -/
def WideQueue.push (q : WideQueue) (x : BitVec 2048) : WideQueue :=
  { q with slot := vset q.slot (q.tail.toNat % 8) x, tail := q.tail + 1 }

/-- The entries a scalar queue holds. -/
def ScalarQueue.size (q : ScalarQueue) : Nat := (q.tail - q.head).toNat

/-- The head entry. -/
def ScalarQueue.top (q : ScalarQueue) : Dword := vget q.slot 0 (q.head.toNat % 16)

/-- The head entry popped. -/
def ScalarQueue.pop (q : ScalarQueue) : ScalarQueue := { q with head := q.head + 1 }

/-- An entry written at the tail. -/
def ScalarQueue.push (q : ScalarQueue) (x : Dword) : ScalarQueue :=
  { q with slot := vset q.slot (q.tail.toNat % 16) x, tail := q.tail + 1 }

/-- A wide queue: 0 to 3 lq0 to lq3, 4 and 5 sq0 and sq1. -/
def Core.wide (c : Core) (q : Nat) : WideQueue := vget c.wq {} q

/-- A scalar queue: 0 S→V, 1 V→S, 2 S→M, 3 S→X. -/
def Core.scalar (c : Core) (q : Nat) : ScalarQueue := vget c.sq {} q

/-- A wide queue changed. -/
def Core.setWide (c : Core) (q : Nat) (x : WideQueue) : Core := { c with wq := vset c.wq q x }

/-- A scalar queue changed. -/
def Core.setScalar (c : Core) (q : Nat) (x : ScalarQueue) : Core := { c with sq := vset c.sq q x }

/-! ### Rings (R299) -/

/-- A stream descriptor. -/
def Core.desc (c : Core) (r : Nat) : Desc := vget c.st {} r

/-- A stream descriptor changed. -/
def Core.setDesc (c : Core) (r : Nat) (d : Desc) : Core := { c with st := vset c.st r d }

def Desc.size (d : Desc) : Nat := bits d.w0 52 32
def Desc.base (d : Desc) : Nat := bits d.w0 20 0
def Desc.sstride (d : Desc) : Nat := bits d.w1 31 16
def Desc.block (d : Desc) : Nat := bits d.w1 9 8
def Desc.isFrit (d : Desc) : Bool := bit d.w1 7
def Desc.inf (d : Desc) : Bool := bit d.w1 6
def Desc.fmt (d : Desc) : BitVec 5 := BitVec.ofNat 5 (bits d.w1 4 0)
def Desc.full (d : Desc) : Bool := bit d.w2 63
def Desc.tail (d : Desc) : Nat := bits d.w2 52 32
def Desc.head (d : Desc) : Nat := bits d.w2 20 0
def Desc.rsvd (d : Desc) : Nat := bits d.w3 20 0

/-- Complete bytes of a ring (R299). -/
def Desc.avail (d : Desc) : Nat :=
  if d.full then d.size else if d.size = 0 then 0 else (d.tail + d.size - d.head) % d.size

/-- Room of a ring (R299). -/
def Desc.room (d : Desc) : Nat := d.size - d.avail - d.rsvd

/-- Word 2 from its fields. -/
def Desc.word2 (full : Bool) (tail head : Nat) : Dword :=
  place (if full then 1 else 0) 63 ||| place tail 32 ||| place head 0

/-- The head advanced over popped bytes; FULL is cleared (R299). -/
def Desc.popBytes (d : Desc) (n : Nat) : Desc :=
  if d.size = 0 ∨ n = 0 then d
  else { d with w2 := Desc.word2 false d.tail ((d.head + n) % d.size) }

/-- The tail advanced over completed bytes; FULL is set exactly when the ring is then full (R299). -/
def Desc.completeBytes (d : Desc) (n : Nat) : Desc :=
  if d.size = 0 ∨ n = 0 then d
  else { d with w2 := Desc.word2 (decide (d.avail + n = d.size)) ((d.tail + n) % d.size) d.head }

/-- Bytes reserved, or their reservation released. -/
def Desc.reserve (d : Desc) (n : Nat) : Desc := { d with w3 := place (d.rsvd + n) 0 }
def Desc.release (d : Desc) (n : Nat) : Desc := { d with w3 := place (d.rsvd - n) 0 }

/-- The scratchpad offset of byte `i` of an entry that starts `off` bytes into the ring, wrapping at its end (R236). -/
def Desc.at (d : Desc) (off i : Nat) : Nat := d.base + (off + i) % (max d.size 1)

/-! ### Scratchpad bytes (R16, R23, R86) -/

/-- A byte of a core's scratchpad: what was last written there; an undefined byte where nothing has been written since the
core's job started. -/
def Core.scratchByte (c : Core) (m : List Host.Cell) (core off : Nat) : Byte :=
  match c.seed with
  | none => Memory.read m (Key.scratch core off)
  | some n =>
    if (Tab.get 0 c.known (off / 256)).getLsbD (off % 256) then Memory.read m (Key.scratch core off)
    else (Config.freeBits n (2 ^ 23)).extractLsb' (8 * off) 8

/-- Consecutive bytes of a core's scratchpad. -/
def State.scratchBytes (s : State) (core off n : Nat) : List Byte :=
  (List.range n).map fun i => (s.coreAt core).scratchByte s.mem core (off + i)

/-- The bytes of a row of 256 from `lo`, `n` of them. -/
def rowMask (lo n : Nat) : BitVec 256 := (BitVec.allOnes 256 >>> (256 - n)) <<< lo

/-- Rows of written bytes with a range added. -/
def learnRows : Nat → Tab (BitVec 256) → Nat → Nat → Tab (BitVec 256)
  | 0, t, _, _ => t
  | f + 1, t, off, n =>
    if n = 0 then t
    else
      let k := min n (256 - off % 256)
      learnRows f (Tab.set t (off / 256) (Tab.get 0 t (off / 256) ||| rowMask (off % 256) k)) (off + k) (n - k)

/-- Bytes of a core's scratchpad have been written. -/
def Core.learn (c : Core) (off n : Nat) : Core :=
  if c.seed.isNone then c else { c with known := learnRows (n / 256 + 2) c.known off n }

/-- The bytes of a ring entry. -/
def State.ringBytes (s : State) (core : Nat) (d : Desc) (off n : Nat) : List Byte :=
  (List.range n).map fun i => (s.coreAt core).scratchByte s.mem core (d.at off i)

/-! ### Frit rings and tables (R218, R222, R229) -/

/-- A header field of the Frit entry at `off`: TILE at 0, CLEN at 4. -/
def State.fritHeader (s : State) (k : Nat) (d : Desc) (off at0 : Nat) : Nat :=
  leNat (s.ringBytes k d (off + at0) 4)

/-- The restart markers at a cut: TILE of the head entry of each Frit ring, chunk 0; a ring without an entry keeps its
marker (DESIGN CHOICE, assumption log 52). -/
def State.markers (s : State) (k : Nat) : Vector Dword 16 :=
  Vector.ofFn fun i =>
    let c := s.coreAt k
    let d := c.desc i.val
    if d.isFrit && decide (256 ≤ d.avail) then place (s.fritHeader k d d.head 0) 32 else vget c.marker 0 i.val


/-- The table of a 512-byte image, where R222 accepts it. -/
def FritTable.ofImage (bs : List Byte) : Option FritTable :=
  let w := (List.range 256).map fun s => leNat ((bs.drop (2 * s)).take 2)
  if w.all (fun x => decide (x < 4096)) ∧ w.foldl (· + ·) 0 = 4096 then
    some { freq := BitVec.ofNat 4096 (w.foldr (fun c acc => c + 65536 * acc) 0), valid := true }
  else none

end Sys2Proof.Machine
end

