-- ==== Sys2Proof/Machine/Ops.lean ====
section
/-! DEFINITION. The named operations of a core: tokens, loop stacks, the holds and the retirement of a word, host events,
and taking a trap and returning from one (R19, R97, R391 to R399). -/

namespace Sys2Proof.Machine

/-! ### Tokens (R18, R19, R29) -/

/-- The FIFO that one stream posts into for its neighbour, in the order of TKCNT (R395). -/
def fifo : Stream → Stream → Nat
  | .s, .x => 0
  | .x, .s => 1
  | .x, .m => 2
  | .m, .x => 3
  | .m, .v => 4
  | .v, .m => 5
  | .v, .s => 6
  | .s, .v => 7
  | _, _ => 8

/-- A FIFO's count. -/
def Core.count (c : Core) (f : Nat) : Nat := (vget c.tok 0 f).toNat

/-- A FIFO holds a token that a wait may take: one that was there when the cycle started (R19). -/
def Core.ready (c : Core) (f : Nat) : Bool := decide ((vget c.fresh 0 f).toNat < c.count f)

/-- A FIFO has room for a post: room that was there when the cycle started (R19). -/
def Core.roomy (c : Core) (f : Nat) : Bool := decide (c.count f + (vget c.gone 0 f).toNat < 16)

/-- One token added to a FIFO. -/
def Core.addToken (c : Core) (f : Nat) : Core :=
  { c with tok := vset c.tok f (vget c.tok 0 f + 1), fresh := vset c.fresh f (vget c.fresh 0 f + 1) }

/-- One token taken from a FIFO. -/
def Core.dropToken (c : Core) (f : Nat) : Core :=
  { c with tok := vset c.tok f (vget c.tok 0 f - 1), gone := vset c.gone f (vget c.gone 0 f + 1) }

/-- The FIFOs that a word's wait bits name. -/
def waits (st : Stream) (sync : BitVec 4) : List Nat :=
  (if sync.getLsbD 3 then [fifo st.left st] else []) ++ (if sync.getLsbD 2 then [fifo st.right st] else [])

/-- The FIFOs that post bits name: bit 1 left, bit 0 right. -/
def posts (st : Stream) (p : BitVec 2) : List Nat :=
  (if p.getLsbD 1 then [fifo st st.left] else []) ++ (if p.getLsbD 0 then [fifo st st.right] else [])

/-- Every FIFO waited for holds a token. -/
def Core.tokens (c : Core) (st : Stream) (sync : BitVec 4) : Bool := (waits st sync).all c.ready

/-- Every FIFO posted into has room. -/
def Core.room (c : Core) (st : Stream) (p : BitVec 2) : Bool := (posts st p).all c.roomy

/-- One token taken from each FIFO waited for. -/
def Core.take (c : Core) (st : Stream) (sync : BitVec 4) : Core :=
  (waits st sync).foldl Core.dropToken c

/-- One token added to each FIFO posted into. -/
def Core.post (c : Core) (st : Stream) (p : BitVec 2) : Core :=
  (posts st p).foldl Core.addToken c

/-- The posts of a word at retirement: made at once when there is room for all of them, else owed (R19). -/
def Core.postOrOwe (c : Core) (st : Stream) (p : BitVec 2) : Core :=
  if c.room st p then c.post st p else { c with owed := vset c.owed st.code p }

/-- The post bits of a sync field. -/
def postBits (sync : BitVec 4) : BitVec 2 := sync.extractLsb' 0 2

/-- The FIFOs of a stream whose post is pending since a cut; a handler's words do not wait for them (R393). -/
def Core.pendOf (c : Core) (st : Stream) : List Nat :=
  if c.state = .trapped then [] else [fifo st st.left, fifo st st.right].filter fun f => c.pend.getLsbD f

/-- A stream holds at retirement for posts that its FIFOs have no room for, those pending since a cut too (R19, R393). -/
def Core.owes (c : Core) (st : Stream) : Bool := vget c.owed 0 st.code != 0 || !(c.pendOf st).isEmpty

/-- A stream that owes posts tries to make them; `true` when it owes none any more (R19, R393). -/
def Core.settle (c : Core) (st : Stream) : Core × Bool :=
  let c := (c.pendOf st).foldl
    (fun c f => if c.roomy f then { c.addToken f with pend := c.pend &&& ~~~(1#8 <<< f) } else c) c
  let p := vget c.owed 0 st.code
  if p != 0 then
    if c.room st p then ({ (c.post st p) with owed := vset c.owed st.code 0 }, (c.pendOf st).isEmpty)
    else (c, false)
  else (c, (c.pendOf st).isEmpty)

/-! ### The queues by their number in QSEQ (R20, R395) -/

/-- A queue holds an entry that was there when the cycle started. -/
def Core.readable (c : Core) (q : Nat) : Bool :=
  decide ((vget c.fresh 0 (8 + q)).toNat < if q < 6 then (c.wide q).size else (c.scalar (q - 6)).size)

/-- A queue has room that was there when the cycle started, beside the entries that LDQ has reserved (R289). -/
def Core.writable (c : Core) (q : Nat) : Bool :=
  if q < 6 then decide ((c.wide q).size + (vget c.fills [] q).length + (vget c.gone 0 (8 + q)).toNat < 8)
  else decide ((c.scalar (q - 6)).size + (vget c.gone 0 (8 + q)).toNat < 16)

/-- An entry written to a wide queue, and its head popped. -/
def Core.pushWide (c : Core) (q : Nat) (x : BitVec 2048) : Core :=
  { c.setWide q ((c.wide q).push x) with fresh := vset c.fresh (8 + q) (vget c.fresh 0 (8 + q) + 1) }
def Core.popWide (c : Core) (q : Nat) : Core :=
  { c.setWide q (c.wide q).pop with gone := vset c.gone (8 + q) (vget c.gone 0 (8 + q) + 1) }

/-- An entry written to a scalar queue, and its head popped. -/
def Core.pushScalar (c : Core) (q : Nat) (x : Dword) : Core :=
  { c.setScalar q ((c.scalar q).push x) with fresh := vset c.fresh (14 + q) (vget c.fresh 0 (14 + q) + 1) }
def Core.popScalar (c : Core) (q : Nat) : Core :=
  { c.setScalar q (c.scalar q).pop with gone := vset c.gone (14 + q) (vget c.gone 0 (14 + q) + 1) }

/-- A new cycle: what the last one put in and took out is seen (R19, R20). -/
def Core.newCycle (c : Core) : Core := { c with fresh := Vector.replicate 18 0, gone := Vector.replicate 18 0 }

/-! ### Hardware loops (R96 to R98) -/

/-- The stack a stream uses: S has one for each privilege level (R398). -/
def Core.loopIx (c : Core) (st : Stream) : Nat :=
  match st with
  | .s => min c.pl.toNat 2
  | .x => 3
  | .m => 4
  | .v => 5

/-- A stream's loop stack. -/
def Core.loop (c : Core) (st : Stream) : LoopStack := vget c.loops {} (c.loopIx st)

/-- A stream's loop stack changed. -/
def Core.setLoop (c : Core) (st : Stream) (l : LoopStack) : Core := { c with loops := vset c.loops (c.loopIx st) l }

/-- Entry LS[i]. -/
def LoopStack.get (l : LoopStack) (i : Nat) : LoopEntry := vget l.ent {} i

/-- The innermost entry, LS[d − 1]. -/
def LoopStack.top (l : LoopStack) : LoopEntry := l.get (l.depth.toNat - 1)

/-- InBody(x, i) of R97. -/
def LoopEntry.has (e : LoopEntry) (x : Dword) : Bool := decide (e.first.toNat ≤ x.toNat) && decide (x.toNat < e.past.toNat)

/-- An address whose two low bits are dropped, as a program counter holds it (R25). -/
def wordAligned (x : Dword) : Dword := x &&& ~~~3#64

/-- EndTest(n) of R97; a stack is six deep, so seven tests are enough. A first address the window wrote is
aligned as the PC takes it (R25, assumption log 45). -/
def LoopStack.endTest : Nat → LoopStack → Dword → LoopStack × Dword
  | 0, l, n => (l, n)
  | f + 1, l, n =>
    if l.depth ≠ 0 ∧ n = l.top.past then
      if 1 < l.top.rem.toNat then
        ({ l with ent := vset l.ent (l.depth.toNat - 1) { l.top with rem := l.top.rem - 1 } }, wordAligned l.top.first)
      else LoopStack.endTest f { l with depth := l.depth - 1 } n
    else (l, n)

/-- The pops of Branch(t) at address w (R97). -/
def LoopStack.leave : Nat → LoopStack → Dword → Dword → LoopStack
  | 0, l, _, _ => l
  | f + 1, l, w, t =>
    if l.depth ≠ 0 ∧ l.top.has w ∧ ¬ l.top.has t then LoopStack.leave f { l with depth := l.depth - 1 } w t
    else l

/-- LoopWord(A, count, L) of R97: none where it faults. -/
def LoopStack.start (l : LoopStack) (a count : Dword) (len : Nat) : Option (LoopStack × Dword) :=
  let e := a + 4 + BitVec.ofNat 64 (4 * len)
  if 2 ^ 32 ≤ count.toNat then none
  else if l.depth ≠ 0 ∧ l.top.past.toNat < e.toNat then none
  else if count = 0 then some (l.endTest 7 e)
  else if 6 ≤ l.depth.toNat then none
  else some ({ depth := l.depth + 1, ent := vset l.ent l.depth.toNat ⟨a + 4, e, count⟩ }, a + 4)

/-- How a word leaves the program counter (R97). -/
inductive Ctl where
  /-- Next(). -/
  | next
  /-- Branch(t). -/
  | branch (t : Dword)
  /-- Call(t). -/
  | call (t : Dword)
  /-- A loop word that was accepted: the stack and the address it gave. -/
  | looped (l : LoopStack) (t : Dword)
  /-- A REND word that has arrived: the stream stands at it (R100). -/
  | arrive
  /-- The word changed the program counter itself (TRET, HALT). -/
  | set
  deriving DecidableEq, Repr

/-- The program counter, loop stack and SEQ of a stream after a word (R97, R98, R392). -/
def Core.advance (c : Core) (st : Stream) (k : Ctl) : Core :=
  let w := c.pcOf st
  let step (l : LoopStack) (t : Dword) : Core :=
    { (c.setLoop st l) with
      pc := vset c.pc st.code t
      seq := vset c.seq st.code (vget c.seq 0 st.code + 1)
      hold := vset c.hold st.code .none
      stall := 0 }
  match k with
  | .next => let p := (c.loop st).endTest 7 (w + 4); step p.1 p.2
  | .branch t => step ((c.loop st).leave 7 w t) t
  | .call t => step (c.loop st) t
  | .looped l t => step l t
  | .arrive =>
    { (c.setLoop st { c.loop st with depth := 0 }) with
      arrived := vset c.arrived st.code true
      hold := vset c.hold st.code .rend
      stall := 0 }
  | .set => { c with hold := vset c.hold st.code .none, stall := 0 }

/-! ### Holds (R88, R92) -/

/-- The row of R88 (R398, the stall record). -/
def Hold.row : Hold → Nat
  | .none => 0
  | .waitToken _ => 1
  | .postToken => 2
  | .emptyWide _ => 3
  | .emptyScalar _ => 3
  | .fullWide _ => 4
  | .fullScalar _ => 4
  | .ringShort _ _ => 5
  | .ringFull _ _ => 6
  | .barrier _ => 7
  | .mwait => 8
  | .ep3 => 9
  | .rend => 10
  | .timed _ => 14
  | .device r => r

/-- Whether a party hold of a stream still stands; device holds are not party holds (R88). -/
def Core.partyHeld (c : Core) (st : Stream) : Bool :=
  match vget c.hold .none st.code with
  | .none => false
  | .waitToken sync => !c.tokens st sync
  | .postToken => !(c.settle st).2
  | .emptyWide q => !c.readable q
  | .emptyScalar q => !c.readable (q + 6)
  | .fullWide q => !c.writable q
  | .fullScalar q => !c.writable (q + 6)
  | .ringShort r n => decide ((c.desc r).avail < max n 1)
  | .ringFull r n => decide ((c.desc r).room < max n 1)
  | .barrier k => (vget c.bar {} k).cmp == (vget c.bar {} k).seen
  | .mwait => match c.monitor with | .armed _ _ => true | _ => false
  | .ep3 => (vget c.ports {} 3).results.isEmpty
  | .rend => vget c.arrived false st.code
  | .timed _ => false
  | .device _ => false

/-- Whether a stream is in some hold or at REND, which ends a drain stop for it (R393). -/
def Core.quiet (c : Core) (st : Stream) : Bool :=
  vget c.arrived false st.code || vget c.stopped false st.code || c.partyHeld st ||
    (match vget c.hold .none st.code with | .device _ => true | .timed _ => true | _ => false)

/-- Nothing of the core is outstanding: no request, transfer, step or command (R92). -/
def Core.idle (c : Core) : Bool :=
  c.stores.isEmpty && c.fills.toList.all List.isEmpty && c.xfers.isEmpty && c.steps.isEmpty &&
    c.products.isEmpty && c.waiting == .none && c.xwait == .none && c.fwait.toList.all (· == .none) && c.ahead.isEmpty && c.ports.toList.all fun p => p.fifo.isEmpty && p.active.isEmpty

/-- The memory requests that S and X of a core may have outstanding (R17). -/
def allowance : Nat := 4096

/-- The memory requests that S and X of a core have outstanding: stores, entries that LDQ fills, and the messages of
transfers, of which each in flight has one at least (R17). -/
def Core.outstanding (c : Core) : Nat :=
  c.stores.length + (c.fills.toList.map List.length).sum +
    ((c.xfers.filter fun x => !x.done).map fun x => max 1 x.waits.length).sum

/-- The condition under which the stall counter advances (R92). -/
def Core.stalled (c : Core) : Bool :=
  (c.state == .running || c.state == .rendezvous) && c.pending.isNone && c.idle &&
    ([Stream.s, .x, .m, .v].all c.partyHeld) &&
    !([Stream.s, .x, .m, .v].all fun st => vget c.arrived false st.code && !c.owes st)

/-- A stream found in a hold: nothing else changes. -/
def State.held (s : State) (st : Stream) (h : Hold) : State :=
  s.mapCore fun c => { c with hold := vset c.hold st.code h }

/-- Whether every core of a bench is FREE or OFFLINE; the reserved core of a die, which runs firmware, is OFFLINE in the
sense of R82 (R345). -/
def State.quiescent (s : State) (bench : Nat) : Bool :=
  (List.range 16).all fun i =>
    let c := s.coreAt (16 * bench + i)
    (16 * bench + i) % 256 == 0 || c.state == .free || c.state == .offline

/-! ### Power windows (R110, R128) -/

/-- The token by which a bench holds a window, with N tokens (R110). -/
def tokenOf (n bench w : Nat) : Option Nat := (List.range n).find? fun k => (bench + 16 - w % 16) % 16 == k * 16 / n

/-- The first window after `w` that a bench holds. -/
def nextWindow (n bench w : Nat) : Nat :=
  ((List.range 16).map (· + w + 1)).find? (fun x => (tokenOf n bench x).isSome) |>.getD (w + 16)

/-! ### Words as computations that can hold or trap -/

/-- Why a word does not complete. -/
inductive Stop where
  | hold (h : Hold)
  /-- A hold that keeps what the word has begun: a request sent, a page asked for, a stamp taken. -/
  | keep (h : Hold)
  | trap (t : Trap)
  deriving DecidableEq, Repr

/-- A computation over the state that can stop. -/
abbrev M (α : Type) := ExceptT Stop (StateM State) α

/-- Hold. -/
def M.hold {α : Type} (h : Hold) : M α := throw (.hold h)

/-- Hold, keeping the state reached. -/
def M.keep {α : Type} (h : Hold) : M α := throw (.keep h)

/-- Trap. -/
def M.trap {α : Type} (t : Trap) : M α := throw (.trap t)

/-- Hold unless a condition is met. -/
def M.until (b : Bool) (h : Hold) : M Unit := if b then pure () else M.hold h

/-- Trap unless a condition is met. -/
def M.check (b : Bool) (t : Trap) : M Unit := if b then pure () else M.trap t

/-- The acting core. -/
def M.core : M Core := do return (← get).core

/-- The acting core changed. -/
def M.mapCore (f : Core → Core) : M Unit := modify fun s => s.mapCore f

/-- The results of a computation over a list. Where the items are accesses to the host and one waits, those behind it ask
for their pages as well, so that the requests of one access can share a group (R363). -/
def M.collect {α β : Type} (ofHost : Bool) (f : α → M β) : List α → M (List β)
  | [] => return []
  | x :: rest => do
    match (f x).run.run (← get) with
    | (.ok y, s) => do
      set s
      return y :: (← M.collect ofHost f rest)
    | (.error (.trap t), s) => do
      set s
      M.trap t
    | (.error h, s) => do
      if ofHost then
        set ((M.collect ofHost f rest).run.run s).2
        M.keep (.device 12)
      else
        set s
        throw h

/-- An illegal-operand fault with its detail code (class 0x08, R391). -/
def Trap.operand (detail : Nat) : Trap := { cls := 0x08, sub := BitVec.ofNat 32 detail }

/-- A privilege fault (class 0x02, SUB 0x5; R391, R398). -/
def Trap.privilege : Trap := { cls := 0x02, sub := 5 }

/-- An illegal-operand fault for which the spec states no detail code: the code is a free value (assumption log 12). -/
def M.operandOpen {α : Type} : M α := do
  let (x, s) := (← get).draw 32
  set s
  M.trap { cls := 0x08, sub := x }

/-! ### Engine commands not yet taken (R396, R397) -/

/-- S has pushed a command that its engine has not taken. -/
def Core.untaken (c : Core) : Bool := c.ports.toList.any fun p => !p.fifo.isEmpty || p.part.isSome

/-- Writes logged before the oldest untaken command: a rewind plays none of them back (R397). -/
def Core.logStart (c : Core) : Nat :=
  c.ports.toList.foldl (fun n p => (p.fifo ++ p.part.toList).foldl (fun n k => min n k.logAt) n) c.logged

/-- Room in the log of R397 for the writes of one word, and those writes logged. Entries that no untaken command needs
leave their room, so that the hold of a full log ends when the engine takes the command (assumption log 62). -/
def Core.logRoom (c : Core) (n : Nat) : Bool := !c.untaken || decide (c.logged - c.logStart + n ≤ 64)
def Core.logWrites (c : Core) (n : Nat) : Core := if c.untaken then { c with logged := c.logged + n } else c

/-- The log empties with the last untaken command (R397). -/
def Core.settleLog (c : Core) : Core := if c.untaken then c else { c with logged := 0 }

/-! ### Instruction caches (R17, R432) -/

/-- The 64-byte line that holds an address. -/
def lineOf (va : Dword) : Dword := va &&& ~~~63#64

/-- The sets of a stream's instruction cache: 32 KiB of S and 16 KiB of the others, 4 ways of 64-byte lines (R17). -/
def cacheSets (st : Stream) : Nat := if st = .s then 128 else 64

/-- The set of a line. -/
def cacheSet (st : Stream) (va : Dword) : Nat := va.toNat / 64 % cacheSets st

/-- The line of a stream that holds an address, under the context in which the stream runs; X, M and V run at PL0. -/
def Core.lineAt (c : Core) (st : Stream) (va : Dword) (data : BitVec 512) : FetchLine :=
  { va := lineOf va, data := data, part := c.part, vf := c.vf, pasid := c.pasid, pl := if st == .s then c.pl else 0 }

/-- Two lines are of one address and one context. -/
def FetchLine.same (l m : FetchLine) : Bool := { l with data := 0 } == { m with data := 0 }

/-- The line of a stream's cache that serves a fetch of an address. -/
def Core.cached (c : Core) (st : Stream) (va : Dword) : Option FetchLine :=
  (vget c.icache [] st.code).find? fun l => l.same (c.lineAt st va 0)

/-- A line brought into a stream's cache: the newest of its set, of which four stay. -/
def Core.addLine (c : Core) (st : Stream) (l : FetchLine) : Core :=
  let old := (vget c.icache [] st.code).filter (!·.same l)
  let mine (x : FetchLine) : Bool := cacheSet st x.va == cacheSet st l.va
  { c with icache := vset c.icache st.code (l :: ((old.filter mine).take 3 ++ old.filter fun x => !mine x)) }

/-! ### Links that report up (R13, R135) -/

/-- The die at the other end of an in-package link (R13). -/
def neighbour : Nat → Nat → Option Nat
  | 0, 0 => some 1 | 0, 2 => some 2 | 1, 1 => some 0 | 1, 2 => some 3
  | 2, 0 => some 3 | 2, 3 => some 0 | 3, 1 => some 2 | 3, 3 => some 1
  | _, _ => none

/-- The other direction of an axis. -/
def opposite (port : Nat) : Nat := if port % 2 = 0 then port + 1 else port - 1

/-- A port of a die. -/
def State.link (s : State) (die port : Nat) : Link := vget (s.die die).links {} port

/-- A port of a die changed. -/
def State.mapLink (s : State) (die port : Nat) (f : Link → Link) : State :=
  s.mapDie die fun d => { d with links := vset d.links port (f (vget d.links {} port)) }

/-- Ports that report up (R13). -/
def State.upPorts (s : State) (die : Nat) : List Nat := (List.range 6).filter fun p => (s.link die p).up && !(s.link die p).keywait

/-- Dies of the package reached from some dies over one more up link. -/
def State.spread (s : State) (ds : List Nat) : List Nat :=
  (List.range 4).filter fun e => ds.contains e || ds.any fun d => (s.upPorts d).any fun p => neighbour d p == some e

/-- Whether up links join a die to a node: inside the package, or by any way out of it. -/
def State.joined (s : State) (die node : Nat) : Bool :=
  let ds := s.spread (s.spread (s.spread [die]))
  match s.dieOfNode node with
  | some e => ds.contains e
  | none => ds.any fun d => (s.upPorts d).any fun p => (neighbour d p).isNone

/-! ### Hop distances (R135) -/

/-- Farther than any node of the torus. -/
def farAway : Nat := 99

/-- The node at the other end of a port: that of the neighbouring die, or the peer cabled to it. -/
def State.nextNode (s : State) (die port : Nat) : Option Nat :=
  match neighbour die port with
  | some e => some (s.nodeOf e)
  | none => (s.link die port).peer

/-- The hop distance to a node over a port: 1 to the neighbour itself, else one more than the neighbour has told. -/
def State.hopsVia (s : State) (die node port : Nat) : Nat :=
  if s.nextNode die port = some node then 1
  else 1 + (((s.die die).hops.find? fun h => h.1 == port && h.2.1 == node).map (·.2.2)).getD farAway

/-- The least distance over some ports; every router is at no distance from itself. -/
def State.hopsOver (s : State) (die node : Nat) (ports : List Nat) : Nat :=
  if node = s.nodeOf die then 0 else ports.foldl (fun n p => min n (s.hopsVia die node p)) farAway

/-- A router's hop distance to a node over the links that report up. -/
def State.distance (s : State) (die node : Nat) : Nat := s.hopsOver die node (s.upPorts die)

/-- Whether a die's router has a way to a node (R135). -/
def State.reachable (s : State) (die node : Nat) : Bool := decide (s.distance die node < farAway)

/-! ### Host memory and events (R126, R127, R250) -/

/-- The die of a function's host port: port 0 on D0, port 1 on D2 (R14, R348). -/
def portDie (fn : Nat) : Nat := if fn / 96 = 1 then 2 else 0

/-- The bench whose TLB keeps the translations of a function's queues and events: bench 0 of its port's die (assumption log
40). -/
def portBench (fn : Nat) : Nat := 16 * portDie fn

/-- The partition of a function, with which its TLB entries are tagged (R359). -/
def State.tagOf (s : State) (fn : Nat) : BitVec 4 := BitVec.ofNat 4 (bits (s.fn fn).vfbind 3 0)

/-- A host-half translation serves an access of a function and PASID to a page (R359, R362). -/
def TlbEntry.hostServes (e : TlbEntry) (part : BitVec 4) (fn : Nat) (pasid : Option (BitVec 20)) (va : Nat) (r w : Bool) :
    Bool :=
  e.host && e.part == part && e.vf == fn && (match pasid with | some p => !e.noPasid && e.pasid == p | none => e.noPasid) &&
    e.va.toNat / 4096 == va / 4096 && (!r || e.attr.r1) && (!w || e.attr.w1)

/-- The combined entries of a bench's TLB. -/
def State.benchEntries (s : State) (bench : Nat) : List TlbEntry :=
  (Tab.get [] s.bench bench).filterMap fun b => match b with | .combined e => some e | _ => none

/-- An entry put into a bench's TLB of 8192, which drops its oldest (R359). -/
def State.addBench (s : State) (bench : Nat) (b : BenchEntry) : State :=
  { s with bench := Tab.set s.bench bench ((b :: Tab.get [] s.bench bench).take 8192) }

/-- What the host's tables answer to an ATS request: the host physical address, where they grant the access. -/
def State.granted (s : State) (fn : Nat) (pasid : Option (BitVec 20)) (va : Nat) (write : Bool) : Option Nat :=
  match s.grants.find? fun g => g.fn == fn && g.pasid == pasid && g.page == va / 4096 && (if write then g.w else g.r) with
  | some g => some (g.hpa + va % 4096)
  | none => none

/-- A host-half translation as a TLB keeps it. -/
def hostEntry (part : BitVec 4) (fn : Nat) (pasid : Option (BitVec 20)) (va hpa : Nat) (r w : Bool) : TlbEntry where
  part := part
  vf := fn
  pasid := pasid.getD 0
  va := BitVec.ofNat 64 (va / 4096 * 4096)
  size := 4096
  ipa := none
  node := 0
  dpa := hpa / 4096 * 4096
  host := true
  attr := { r1 := r, w1 := w, x1 := false, u := true, r2 := r, w2 := w, x2 := false, kind := .rc, c := false, am := false
            key := 0, lvl1 := 0, lvl2 := 0 }
  marked := false
  noPasid := pasid.isNone

/-- The host physical address of a host-half address that the device itself accesses: from the TLB that keeps its
translations, else from ATS (R250, R362). -/
def State.ats (s : State) (fn : Nat) (pasid : Option (BitVec 20)) (va : Nat) (write : Bool) : Option Nat :=
  match (s.benchEntries (portBench fn)).find? fun e => e.hostServes (s.tagOf fn) fn pasid va (!write) write with
  | some e => some (e.dpa + va % 4096)
  | none => s.granted fn pasid va write

/-- The translation of an access that the device itself has made is kept (R362). -/
def State.keepAts (s : State) (fn : Nat) (pasid : Option (BitVec 20)) (va : Nat) (write : Bool) : State :=
  if (s.benchEntries (portBench fn)).any fun e => e.hostServes (s.tagOf fn) fn pasid va (!write) write then s
  else match s.granted fn pasid va write with
    | some h => s.addBench (portBench fn) (.combined (hostEntry (s.tagOf fn) fn pasid va h (!write) write))
    | none => s

/-- The translations of a range that the device itself has accessed are kept. -/
def State.keepRange (s : State) (fn : Nat) (pasid : Option (BitVec 20)) (va n : Nat) (write : Bool) : State :=
  (List.range ((va % 4096 + n + 4095) / 4096)).foldl (fun s i => s.keepAts fn pasid (va / 4096 * 4096 + 4096 * i) write) s

/-- Bytes written by the device to host memory, at whichever of them ATS grants. -/
def State.hostWrite (s : State) (fn : Nat) (pasid : Option (BitVec 20)) (va : Nat) (bs : List Byte) : State :=
  let s := (bs.zipIdx).foldl (fun s p =>
    match s.ats fn pasid (va + p.2) true with
    | some h => { s with mem := Memory.write s.mem (Key.host h) p.1 }
    | none => s) s
  s.keepRange fn pasid va bs.length true

/-- Bytes read by the device from host memory; none where ATS does not grant one of them. -/
def State.hostRead (s : State) (fn : Nat) (pasid : Option (BitVec 20)) (va n : Nat) : Option (List Byte) :=
  (List.range n).mapM fun i => (s.ats fn pasid (va + i) false).map fun h => Memory.read s.mem (Key.host h)

/-- Post an event to a function's ring, or count it as overflow (R126, R127, R349). Where the host does not grant the ring's
address, which R126 leaves open, the entry is lost, and EVWIDX advances all the same (DESIGN CHOICE, assumption log 69). -/
def State.event (s : State) (fn code queue info : Nat) : State :=
  let f := s.fn fn
  let n := f.evlog2n.toNat
  if n < 4 ∨ 16 < n ∨ (f.evwidx - f.evridx).toNat = 2 ^ n then
    s.mapFn fn fun f => { f with ovf := true, ovfcnt := if f.ovfcnt = BitVec.allOnes 32 then f.ovfcnt else f.ovfcnt + 1 }
  else
    let entry := leBytes 2 code ++ leBytes 2 queue ++ leBytes 4 info ++ leBytes 8 s.kiln.toNat ++ leBytes 16 0
    (s.hostWrite fn none (f.evbase.toNat + f.evwidx.toNat % 2 ^ n * 32) entry).mapFn fn fun f =>
      { f with evwidx := f.evwidx + 1 }

/-! ### Queues of commands: their descriptors, errors and completions (R111 to R125) -/

/-- The host-half address of a queue's descriptor; it is reached with no PASID (R111, R349). -/
def State.descAt (s : State) (pqn : Nat) : Nat := bits (s.fn (pqn / 64)).qdt 63 12 * 4096 + 64 * (pqn % 64)

/-- `n` bytes of a descriptor, as a number; none where the host does not grant them. -/
def State.descRead (s : State) (pqn off n : Nat) : Option Nat :=
  (s.hostRead (pqn / 64) none (s.descAt pqn + off) n).map leNat

/-- `n` bytes of a descriptor written. -/
def State.descWrite (s : State) (pqn off n v : Nat) : State :=
  s.hostWrite (pqn / 64) none (s.descAt pqn + off) (leBytes n v)

/-- A field of a slot's copy of the descriptor. -/
def QueueSlot.field (q : QueueSlot) (off n : Nat) : Nat := (q.desc.extractLsb' (8 * off) (8 * n)).toNat

/-- The host-half address of the entry at RIDX of a mapped queue (R114). -/
def QueueSlot.entryAt (q : QueueSlot) : Nat := q.field 0 8 + q.ridx.toNat % 2 ^ q.field 8 1 * 256

/-- The PASID of a mapped queue. -/
def QueueSlot.pasid (q : QueueSlot) : BitVec 20 := q.desc.extractLsb' 96 20

/-- The hardware slot of a queue: its die and number. -/
def State.slotOf (s : State) (pqn : Nat) : Option (Nat × Nat) :=
  [0, 1, 2, 3].findSome? fun d => ((s.die d).slots.find? fun p => p.2.pqn == pqn).map fun p => (d, p.1)

/-- A hardware slot. -/
def State.slot (s : State) (die slot : Nat) : Option QueueSlot :=
  ((s.die die).slots.find? fun p => p.1 == slot).map (·.2)

/-- A hardware slot changed. -/
def State.mapSlot (s : State) (die slot : Nat) (f : QueueSlot → QueueSlot) : State :=
  s.mapDie die fun d => { d with slots := d.slots.map fun p => if p.1 = slot then (p.1, f p.2) else p }

/-- Whether a queue is halted: its slot says so and its supervisor has not written STATUS := 0 since; where it has no slot,
HALTED of its descriptor says so (R111, R118). -/
def State.isHalted (s : State) (pqn : Nat) : Bool :=
  let status := s.descRead pqn 0x28 4
  match s.slotOf pqn with
  | some (d, n) => ((s.slot d n).map (·.halted)).getD false && status != some 0
  | none => (status.getD 0) / 256 % 2 == 1

/-- An error code latched, in the order of R118: STATUS and ERRIDX; then what abandons a running node; then the event. The
first error of a halted queue stands. -/
def State.latchWith (s : State) (pqn ridx code : Nat) (abandon : State → State) : State :=
  if s.isHalted pqn then abandon s
  else
    let s := (s.descWrite pqn 0x28 4 (code + 256)).descWrite pqn 0x2C 4 (ridx % 2 ^ 32)
    let s := match s.slotOf pqn with
      | some (d, n) => s.mapSlot d n fun q => { q with halted := true }
      | none => s
    (abandon s).event (pqn / 64) 0x0001 (pqn % 64) code

/-- An error code latched of a command that no node of runs. -/
def State.latch (s : State) (pqn ridx code : Nat) : State := s.latchWith pqn ridx code id

/-- Whether the host grants every byte of a range for writing. -/
def State.hostGrants (s : State) (fn : Nat) (pasid : Option (BitVec 20)) (va n : Nat) : Bool :=
  (List.range n).all fun i => (s.ats fn pasid (va + i) true).isSome

/-- The interrupt of a completed command (R125; what R125 leaves open is assumption log 44). -/
def State.interrupt (s : State) (q : QueueSlot) : State :=
  let fn := q.pqn / 64
  let idesc := q.field 0x30 8
  let vector (s : State) : State := { s with hostOut := s.hostOut ++ [.msix fn (q.field 0x38 2)] }
  if idesc = 0 then vector s
  else if (s.fn fn).atomicOn ∧ s.hostGrants fn none idesc 8 then
    let s := s.keepRange fn none idesc 64 false
    match s.hostRead fn none idesc 64 with
    | none => s.latch q.pqn q.ridx.toNat 0x0A
    | some bs =>
      let s := s.hostWrite fn none idesc (leBytes 8 (leNat (bs.take 8) ||| (1 <<< (q.pqn % 64))))
      if leNat ((bs.drop 8).take 1) % 2 = 1 then s.hostWrite fn none (leNat ((bs.drop 16).take 8)) ((bs.drop 24).take 4)
      else vector s
  else s.latch q.pqn q.ridx.toNat 0x0A

/-- A write index merged by the firmware shadow into the descriptor's WIDX, with the queue marked pending. Where the host
does not grant the descriptor, the shadow holds the index itself (R113). -/
def State.mergeShadow (s : State) (pqn w : Nat) : State :=
  let fn := pqn / 64
  let held := Tab.get 0 (s.fn fn).shadow (pqn % 64)
  match s.descRead pqn 0x10 8 with
  | some old =>
    (s.descWrite pqn 0x10 8 (max old w)).mapFn fn fun f => { f with shadow := Tab.set f.shadow (pqn % 64) held }
  | none => s.mapFn fn fun f =>
      { f with shadow := Tab.set f.shadow (pqn % 64) (BitVec.ofNat 64 (max held.toNat w)) }

/-- A slot's queue unmapped: WIDX, PASS and RIDX are written, then the shadow takes over (R113). -/
def State.unmap (s : State) (die slot : Nat) : State :=
  match s.slot die slot with
  | none => s
  | some q =>
    let s := ((s.descWrite q.pqn 0x20 8 q.pass.toNat).descWrite q.pqn 0x18 8 q.ridx.toNat).mergeShadow q.pqn q.w.toNat
    let s := if q.ridx.toNat < q.w.toNat then s
      else s.mapFn (q.pqn / 64) fun f => { f with shadow := Tab.erase f.shadow (q.pqn % 64) }
    s.mapDie die fun d => { d with slots := Tab.erase d.slots slot }

/-- The command of a slot ends: its record, its interrupt, and RIDX (R114, R124, R125). The queue of a VF that has been
unbound meanwhile is unmapped then (R367). -/
def State.commandDone (s : State) (die slot status : Nat) : State :=
  match s.slot die slot with
  | none => s
  | some q =>
    match q.cmd with
    | none => s
    | some e =>
      let fld (off n : Nat) : Nat := (e.extractLsb' (8 * off) (8 * n)).toNat
      let fn := q.pqn / 64
      let entry := leBytes 8 (fld 8 8) ++ leBytes 2 q.pqn ++ leBytes 2 status ++ leBytes 4 q.nodes ++
        leBytes 8 s.kiln.toNat ++ leBytes 8 0
      let s := if !e.getLsbD 8 then s
        else if s.hostGrants fn (some q.pasid) (fld 0x10 8) 32 then s.hostWrite fn (some q.pasid) (fld 0x10 8) entry
        else s.latch q.pqn q.ridx.toNat 0x0A
      let s := if e.getLsbD 9 then s.interrupt q else s
      let s := s.descWrite q.pqn 0x18 8 (q.ridx + 1).toNat
      let s := s.mapSlot die slot fun q =>
        { q with ridx := q.ridx + 1, cmd := none, runnable := false, park := false, parked := false, saved := [], err := 0, nodes := 0 }
      if (s.fn fn).vfbind.getLsbD 15 ∧ !q.leaving then s else s.unmap die slot

/-- The partition that owns a queue: while it is mapped, the one that owned it when it was mapped. -/
def State.partOfQueue (s : State) (pqn : Nat) : Nat :=
  match (s.slotOf pqn).bind fun p => s.slot p.1 p.2 with
  | some q => q.part
  | none => bits (s.fn (pqn / 64)).vfbind 3 0

/-- A queue error (R118): STATUS, ERRIDX and the event; a running node is abandoned at its boundary, and a command of
which none runs ends at once. -/
def State.queueError (s : State) (pqn code : Nat) : State :=
  match s.slotOf pqn with
  | none => s.latch pqn ((s.descRead pqn 0x18 8).getD 0) code
  | some (d, n) =>
    match s.slot d n with
    | none => s
    | some q =>
      let mine (r : Running) : Bool := r.die == d && r.slot == n
      if (s.part q.part).running.any mine then
        s.latchWith pqn q.ridx.toNat code fun s =>
          (s.mapSlot d n fun q => { q with err := if q.err = 0 then code else q.err }).mapPart q.part fun p =>
            { p with running := p.running.map fun r => { r with abandoned := true } }
      else
        let s := s.latch pqn q.ridx.toNat code
        if q.cmd.isSome then s.commandDone d n code else s

/-- An iteration of a core counts as ended on its die (R81, R85, R403). -/
def State.iterationEnded (s : State) (k : Nat) : State :=
  s.mapPart (s.coreAt k).part.toNat fun p => { p with running := p.running.map fun r =>
    { r with walks := vset r.walks (dieOf k) ((vget r.walks none (dieOf k)).map fun w => { w with retired := w.retired + 1 }) } }

/-- The job of a core is abandoned: its iteration counts as ended, and its queue halts with code 0x08 (R403). -/
def State.jobAbandoned (s : State) (k : Nat) : State :=
  let c := s.coreAt k
  if c.job = 0 then s
  else
    let s := (s.iterationEnded k).putCore k { c with job := 0 }
    match s.jobs.find? fun p => p.1 == c.job with
    | some p => s.queueError p.2 0x08
    | none => s

/-! ### Traps (R391 to R399) -/

/-- The way each class stops the streams (R391). -/
inductive StopKind where
  | immediate | drain | entry
  deriving DecidableEq, Repr

/-- R391, the column Stop. -/
def Trap.stop (t : Trap) : StopKind :=
  if t.cls = 0x03 ∨ t.cls = 0x06 ∨ t.cls = 0x07 then .drain
  else if t.cls = 0x15 ∨ t.cls = 0x16 then .entry
  else .immediate

/-- R391 and R366: the level that handles a trap of a core that runs at `pl`. -/
def Trap.level (t : Trap) (pl : BitVec 2) : BitVec 2 := if t.toPl2 ∨ pl = 1 then 2 else 1

/-- No request, stamp or answer of a word is out. -/
def Waiting.settled : Waiting → Bool
  | .none => true | .page _ _ => true | _ => false

/-- No request of a word is out: what was asked is answered (R266, R279). -/
def Waiting.performed : Waiting → Bool
  | .sc _ _ _ _ => false | .peer _ _ _ => false | _ => true

/-- Every word already issued has been carried to retirement (R286, R393). A store that is sent to a peer is performed at
CORE scope: no access of its die passes it (R140, R266). What X has been answered before its word retires is dropped, since
that word has not issued (R235). -/
def Core.carried (c : Core) : Bool :=
  c.stores.all (fun p => p.sent) && c.fills.toList.all List.isEmpty && c.xfers.all (·.early) && c.steps.isEmpty &&
    c.waiting.settled && c.xwait.performed

/-- No stream issues any more in the stop of a pending trap: in a drain, once every other stream is in a hold or at REND
(R393). -/
def Core.stopEnded (c : Core) (p : Pending) : Bool :=
  match p.trap.stop with
  | .drain => [Stream.s, .x, .m, .v].all fun st => p.stream == some st || c.quiet st
  | _ => true

/-- The stop of a pending trap is complete (R393). -/
def Core.stopDone (c : Core) (p : Pending) : Bool := c.carried && c.stopEnded p

/-- A stop that has ended stays so: the held streams do not issue again while what has issued is carried on (R393). -/
def Core.latch (c : Core) (p : Pending) : Core :=
  if c.stopEnded p then { c with stopped := Vector.replicate 4 true } else c

/-- What is left of the owed posts at a cut: those with room are made, the others become pending (R393). TKCNT has one pending
bit for a FIFO: where two posts of M without room meet at one cut, one token is lost at resumption (DESIGN CHOICE,
assumption log 68). -/
def Core.cutPosts (c : Core) : Core :=
  [Stream.s, .x, .m, .v].foldl (fun c st =>
    let c := (posts st (vget c.owed 0 st.code)).foldl (fun c f =>
      if c.count f < 16 then c.addToken f
      else { c with pend := c.pend ||| (1#8 <<< f) }) c
    { c with owed := vset c.owed st.code 0 }) c

/-- A transfer whose word has not retired dropped, with the ring room that it has taken (R235, R239). -/
def Core.dropEarly (c : Core) : Core :=
  let c' := (c.xfers.filter (·.early)).foldl (fun c x => match x.ring with
    | .fills r _ n => c.setDesc r ((c.desc r).release n)
    | _ => c) c
  { c' with xfers := c.xfers.filter fun x => !x.early, xasked := 0 }

/-- A request of a die changed. -/
def State.mapReq (s : State) (die msgid : Nat) (f : Request → Request) : State :=
  s.mapDie die fun d => { d with reqs := d.reqs.map fun r => if r.msgid = msgid then f r else r }

/-- A range whose flits will never be sent: its request ends, and its entry is freed (assumption log 51). -/
def State.dropRange (s : State) (die : Nat) (r : Request) : State :=
  let s := match s.dieOfNode r.dest.toNat with
    | none => s
    | some d => s.mapDie d fun x => { x with cullet := x.cullet.filter fun c =>
        !(c.src.toNat == s.nodeOf die && c.msgid.toNat == r.msgid && c.range.isSome) }
  s.mapDie die fun d => { d with reqs := d.reqs.filter fun q => q.msgid != r.msgid }

/-- The ranges that a word of X has asked for and will not read: those answered end, and the others do when their answer
comes. -/
def State.dropRanges (s : State) (k : Nat) : State :=
  ((s.die (dieOf k)).reqs.filter fun r => r.owner == .xword k && r.range).foldl (fun s r =>
    if r.asked then s.mapReq (dieOf k) r.msgid fun r => { r with status := 0x02, after := [] }
    else s.dropRange (dieOf k) r) s

/-- The oldest command that no engine has taken. -/
def Core.oldest (c : Core) : Option Command :=
  (c.ports.toList.flatMap fun p => p.fifo ++ p.part.toList).foldl
    (fun o k => match o with | none => some k | some k' => if k.order < k'.order then some k else some k') none

/-- Discard every untaken command; S's g registers and loop stack as they stood before the oldest of them, and S's cut
at its tag (R396, R397). -/
def Core.rewind (c : Core) : Core × Bool :=
  match c.oldest with
  | none => (c, false)
  | some k =>
    let drop := c.ports.toList.flatMap fun p => p.fifo ++ p.part.toList
    let c := drop.foldl (fun c k => match k.rsv with
      | some (r, n) => c.setDesc r ((c.desc r).release n)
      | none => c) c
    ({ (c.setLoop .s k.loops) with
        ports := c.ports.map fun p => { p with fifo := [], part := none }
        g := k.g, pc := vset c.pc 0 k.tagPc, seq := vset c.seq 0 k.tagSeq, logged := 0 }, true)

/-- TKCNT at the cut (R395). -/
def Core.tkcnt (c : Core) : Dword :=
  (List.range 8).foldl (fun x f => x ||| place (c.count f) (5 * f)) 0 ||| place c.pend.toNat 40

/-- QSEQ[q] at the cut (R395). -/
def Core.qseq (c : Core) (q : Nat) : Dword :=
  if q < 6 then place (c.wide q).tail.toNat 16 ||| place (c.wide q).head.toNat 0
  else place (c.scalar (q - 6)).tail.toNat 16 ||| place (c.scalar (q - 6)).head.toNat 0

/-- The cut record (R395). -/
def Core.theCut (c : Core) : Cut where
  pc := c.pc
  seq := Vector.ofFn fun i => place (vget c.seq 0 i.val).toNat 0 ||| place (if vget c.arrived false i.val then 1 else 0) 32
  tkcnt := c.tkcnt
  qseq := Vector.ofFn fun q => c.qseq q.val

/-- TCAUSE (R398). -/
def tcause (cls : BitVec 8) (st : Option Stream) (ppl tpl : BitVec 2) (drain rewound : Bool) (sub : BitVec 32) : Dword :=
  place cls.toNat 48 ||| place (match st with | some st => st.code | none => 15) 44 ||| place ppl.toNat 42 |||
    place tpl.toNat 40 ||| place (if drain then 1 else 0) 39 ||| place (if rewound then 1 else 0) 38 ||| place sub.toNat 0

/-- A monitor after a trap (R107). -/
def Monitor.trigger : Monitor → Monitor
  | .armed l k => .triggered l k
  | m => m

/-- The fault banks written by a trap's syndrome (R365, R366). -/
def Core.record (c : Core) (t : Trap) : Core :=
  match t.syn with
  | none => c
  | some y =>
    let c := if y.bank2 ∨ c.pl ≠ 0 then { c with fsyn2 := y.fsyn, fva2 := y.fva, fipa2 := y.fipa }
      else { c with fsyn1 := y.fsyn, fva1 := y.fva }
    match y.tile with
    | none => c
    | some x => { c with fsyn2 := y.fsyn, fva2 := y.fva, fipa2 := x }

/-- TAKING A TRAP (R398): the cut, the rewind, the cause registers, the level, and S at the handler. -/
def Core.enter (c : Core) (p : Pending) : Core :=
  let ppl := c.pl
  let k := p.trap.level ppl
  let c := c.cutPosts.record p.trap
  let (c, rewound) := c.rewind
  let c := if ppl = 0 then { c with cut := c.theCut, before := c.state, decoded := [] } else { c with tepc2 := c.pcOf .s }
  let c := if p.trap.cls = 0x10 then { c with missKiln := p.since } else c
  let cause := tcause p.trap.cls p.stream ppl k (p.trap.stop == .drain) rewound p.trap.sub
  let regs (v : Vector Dword 6) : Vector Dword 6 :=
    vset (vset (vset (vset v 0 cause) 1 p.trap.detail) 2 p.addr) 3 (if p.trap.noWord then 0 else p.word.setWidth 64)
  let c := if k = 1 then { c with tr1 := regs c.tr1 } else { c with tr2 := regs c.tr2 }
  let c := { c with
    monitor := c.monitor.trigger
    pl := k
    pasid := if k = 1 then 0 else c.pasid
    state := .trapped
    pending := none
    stopped := Vector.replicate 4 false
    waiting := .none
    xwait := .none
    fwait := Vector.replicate 4 .none
    stall := 0 }
  { (c.setLoop .s {}) with
    pc := vset c.pc 0 (vget (if k = 1 then c.tr1 else c.tr2) 0 4)
    arrived := vset c.arrived 0 false
    hold := Vector.replicate 4 .none }

/-- A trap taken, with the restart markers of its cut (R229, R398). -/
def State.takeTrap (s : State) (k : Nat) (c : Core) (p : Pending) : State :=
  (s.dropRanges k).putCore k ((if c.pl = 0 then { c.dropEarly with marker := s.markers k } else c).enter p)

/-- A fault of code at PL2 takes its core out of service (R391): OFFLINE, event 0x0030, the job abandoned (R403). -/
def State.firmwareFault (s : State) (k : Nat) : State :=
  let c := s.coreAt k
  let s := s.putCore k { c with state := .offline, pending := none, waiting := .none }
  (s.event physFn 0x0030 0xFFFF k).jobAbandoned k

/-- A trap raised on a core: taken at once where its stop is already complete, else pending (R391, R393). -/
def State.raise (s : State) (k : Nat) (st : Option Stream) (t : Trap) (addr : Dword) (word : Word) : State :=
  let c := s.coreAt k
  if c.pl = 2 then s.firmwareFault k
  else match c.pending with
    | some _ =>
      match st with
      | some st => s.putCore k { c with stopped := vset c.stopped st.code true }
      | none => s
    | none =>
      let p : Pending := { trap := t, stream := st, addr := addr, word := word, since := s.kiln }
      let c := if st = some .s then { c with waiting := .none } else if st = some .x then { c with xwait := .none } else c
      if c.stopDone p then s.takeTrap k c p else s.putCore k ({ c with pending := some p, stall := 0 }.latch p)

/-! ### The return from a trap (R82, R399, R403) -/

/-- The streams resumed at the cut as it now stands (R399). -/
def Core.resume (c : Core) : Core :=
  { c with
    pc := c.cut.pc
    seq := c.cut.seq.map fun x => x.setWidth 32
    arrived := c.cut.seq.map fun x => x.getLsbD 32
    tok := Vector.ofFn fun f => BitVec.ofNat 5 (bits c.cut.tkcnt (5 * f.val + 4) (5 * f.val))
    pend := BitVec.ofNat 8 (bits c.cut.tkcnt 47 40)
    owed := Vector.replicate 4 0
    wq := Vector.ofFn fun q =>
      let x := vget c.cut.qseq 0 q.val
      { (c.wide q.val) with head := BitVec.ofNat 16 (bits x 15 0), tail := BitVec.ofNat 16 (bits x 31 16) }
    sq := Vector.ofFn fun q =>
      let x := vget c.cut.qseq 0 (q.val + 6)
      { (c.scalar q.val) with head := BitVec.ofNat 16 (bits x 15 0), tail := BitVec.ofNat 16 (bits x 31 16) }
    hold := Vector.replicate 4 .none
    again := some ((vget c.cut.seq 0 2).setWidth 32)
    stopped := Vector.replicate 4 false
    decoded := [], pending := none, waiting := .none, xwait := .none, fwait := Vector.replicate 4 .none, stall := 0 }

/-- The state in which a core stands after TRET: that before the trap, by the cut (R82). -/
def Core.resumed (c : Core) (pl : BitVec 2) : Core :=
  let c := c.resume
  { c with
    pl := pl, pasid := c.jobPasid
    state := if c.state = .trapped then
        (if c.before = .free ∨ c.before = .offline then c.before
         else if c.arrived.toList.any id then .rendezvous else .running)
      else c.state }

/-- The job of a core abandoned by TRET (R403). Stores that have retired are still performed (R288). -/
def State.abandonJob (s : State) (k : Nat) : State :=
  let s := s.jobAbandoned k
  s.putCore k { s.coreAt k with
    state := .free, abandon := false, pl := 0, pending := none, xfers := [], steps := [], waiting := .none
    xwait := .none, decoded := [] }

/-- The word of an instruction, as TWORD records it. -/
def wordOf (i : Instr) : Word := (encode i).getD 0

/-! ### Running one word -/

/-- What a word's computation makes of the state: hold, trap, or retirement with its tokens (R19, R28, R88). -/
def finishWord (i : Instr) (st : Stream) (sync : BitVec 4) (s : State) (r : Except Stop Ctl × State) :
    Host.Outcome State Fault Refusal :=
  match r with
  | (.error (.hold h), _) => .next (s.held st h)
  | (.error (.keep h), s') => .next (s'.held st h)
  | (.error (.trap t), s') => .next (s'.raise s.me (some st) t (s.core.pcOf st) (wordOf i))
  | (.ok k, s') => .next (s'.mapCore fun c => ((c.take st sync).advance st k).postOrOwe st (postBits sync))

/-- A word of M that posts behind steps: words of M retire in order, so its posts wait for theirs (R19, R205). -/
def Core.postBehind (c : Core) (p : BitVec 2) : Core :=
  { c with steps := c.steps ++ [{ acc := 0, ow := false, last := false, sums := 0, rings := [], pops := [], start := 0
                                  posts := p, bare := true }] }

/-- A word of X, M or V: its waits first, then its effect, then its posts (R19, R29). -/
def runWord (i : Instr) (st : Stream) (sync : BitVec 4) (body : M Ctl) (s : State) : Host.Outcome State Fault Refusal :=
  if s.core.tokens st sync then
    if st = .m ∧ postBits sync ≠ 0 ∧ !s.core.steps.isEmpty then
      finishWord i st (sync &&& 0b1100) s ((do
        let k ← body
        M.mapCore fun c => c.postBehind (postBits sync)
        return k : M Ctl).run.run s)
    else finishWord i st sync s (body.run.run s)
  else .next (s.held st (.waitToken sync))

/-- The entries of the log that a write of a g register takes: none for g0 (R34, R397). -/
def gWrite (gd : BitVec 5) : Nat := if gd = 0 then 0 else 1

/-- The entries of the log that the end test after the word at S's program counter takes: one where it loops back
(R97, R397). -/
def Core.loopBack (c : Core) : Nat :=
  if ((c.loop .s).endTest 7 (c.pcOf .s + 4)).2 = c.pcOf .s + 4 then 0 else 1

/-- An S word whose effects lie in the g registers and the loop stack, with the writes it logs (R397). -/
def runReg (i : Instr) (writes : Core → Nat) (body : M Ctl) (s : State) : Host.Outcome State Fault Refusal :=
  if s.core.logRoom (writes s.core) then
    let n := writes s.core
    finishWord i .s 0 s ((do let k ← body; M.mapCore (fun c => c.logWrites n); return k : M Ctl).run.run s)
  else .next (s.held .s (.device 17))

/-- Any other S word: it holds while a command of S is untaken (R397). -/
def runOther (i : Instr) (sync : BitVec 4) (body : M Ctl) (s : State) : Host.Outcome State Fault Refusal :=
  if s.core.untaken then .next (s.held .s (.device 17))
  else if s.core.tokens .s sync then finishWord i .s sync s (body.run.run s)
  else .next (s.held .s (.waitToken sync))

/-- A word that a level below `pl` may not run (R27, order 6). -/
def privileged (i : Instr) (pl : BitVec 2) (s : State) (run : State → Host.Outcome State Fault Refusal) :
    Host.Outcome State Fault Refusal :=
  if s.core.pl.toNat < pl.toNat then finishWord i .s 0 s (.error (.trap Trap.privilege), s) else run s

/-- A word of S that a handler may not run while its core is TRAPPED (R398, detail 0x73). -/
def untrapped (i : Instr) (s : State) (run : State → Host.Outcome State Fault Refusal) :
    Host.Outcome State Fault Refusal :=
  if s.core.state = .trapped then finishWord i .s 0 s (.error (.trap (Trap.operand 0x73)), s) else run s

/-- An S word that computes one g register from the core and goes on (R169 to R180). -/
def runValue (gd : BitVec 5) (f : Core → Dword) (s : State) : Host.Outcome State Fault Refusal :=
  let c := s.core
  let n := gWrite gd + c.loopBack
  if c.logRoom n then .next (s.putCore s.me (((c.logWrites n).writeG gd (f c)).advance .s .next))
  else .next (s.held .s (.device 17))

end Sys2Proof.Machine
end

