-- ==== Sys2Proof/Machine/Cache.lean ====
section
/-! DEFINITION. What stands between a translated access and its bytes: the placing of physical addresses, seal tiles,
L2, the L1s and their coherence, monitors, and reads and writes of one page piece (R253 to R263, R368 to R376, R411). -/

namespace Sys2Proof.Machine

/-! ### The die memory domain (R255 to R257) -/

/-- Data tiles per channel, CHROWS (R256). -/
def chrows : Nat := 777216

/-- The live channels in ascending physical number (R257). -/
def Die.liveList (d : Die) : List Nat := (List.range 64).filter fun c => d.live.getLsbD c

/-- The channel and the byte in it of a device physical address, or none where R257 faults. -/
def Die.placeOf (d : Die) (dpa : Nat) : Option (Nat × Nat) :=
  if 2 ^ 38 ≤ dpa then none
  else if dpa < 2 ^ 37 then
    let t := dpa / 2048
    let l := d.liveList
    if l.length * d.ilrows.toNat ≤ t then none
    else some (l.getD (t % l.length) 0, t / l.length * 2048 + dpa % 2048)
  else
    let c := dpa / 2 ^ 31 % 64
    let off := dpa % 2 ^ 31
    if d.live.getLsbD c && decide (d.ilrows.toNat ≤ off / 2048) && decide (off / 2048 < chrows) then some (c, off)
    else none

/-- Whether every byte of a range within one page has a tile: the tiles of each region of a die are consecutive (R255, R257). -/
def Die.hasBytes (d : Die) (dpa len : Nat) : Bool := (d.placeOf dpa).isSome && (d.placeOf (dpa + (len - 1))).isSome

/-- Whether a device physical address is interleaved (R255). -/
def isIL (dpa : Nat) : Bool := decide (dpa < 2 ^ 37)

/-- The number of a tile in the tables of the package: die, channel, row. -/
def tileKey (die chan row : Nat) : Nat := (die * 64 + chan) * 2 ^ 20 + row

/-- The DPA of a tile of a die, by its channel and row (R255, R257). -/
def Die.dpaOf (d : Die) (chan row : Nat) : Nat :=
  if row < d.ilrows.toNat then (row * d.liveList.length + d.liveList.findIdx (· == chan)) * 2048
  else 2 ^ 37 + chan * 2 ^ 31 + row * 2048

/-! ### Budgets (R129, R130) -/

/-- The counters of a partition on a die changed. -/
def State.mapUsed (s : State) (die part : Nat) (f : Counters → Counters) : State :=
  s.mapDie die fun d => { d with used := vset d.used part (f (vget d.used {} part)) }

/-- Seal-tile accesses of a channel group that a partition's budget admits in a tick; none is unlimited. -/
def State.tileLimit (s : State) (die : Nat) (part : BitVec 4) : Option Nat :=
  let b := bits (vget (s.die die).budget 0 part.toNat) 63 48
  if b = 0xFFFF then none else some b

/-- `n` units charged: those admitted ahead first. An access whose charges pass a budget is not made (`State.refused`). -/
def Counters.charge (u : Counters) (g n : Nat) : Counters :=
  let k := min n (vget u.paid 0 g)
  { u with hbmt := vset u.hbmt g (vget u.hbmt 0 g + (n - k)), paid := vset u.paid g (vget u.paid 0 g - k) }

/-- A seal-tile charge at a channel for a partition. -/
def State.chargeTile (s : State) (die chan : Nat) (part : BitVec 4) (n : Nat) : State :=
  s.mapUsed die part.toNat fun u => u.charge (chan / 8) n

/-- Whether a partition's budget at a channel group can allow `n` units in all, with those admitted ahead. -/
def State.tileRoom (s : State) (die g : Nat) (part : BitVec 4) (n : Nat) : Bool :=
  match s.tileLimit die part with
  | none => true
  | some b =>
    let u := vget (s.die die).used {} part.toNat
    decide (n ≤ vget u.paid 0 g + (b - vget u.hbmt 0 g))

/-- Whether a partition's budget at a channel group admits one more unit. -/
def State.tileBudget (s : State) (die chan : Nat) (part : BitVec 4) : Bool := s.tileRoom die (chan / 8) part 1

/-! ### Seal tiles (R368 to R376) -/

/-- Why the read of a tile, or of on-die storage, fails (R374, R414). -/
inductive ReadErr where
  /-- A seal fault, with the tile's node and DPA. -/
  | seal (reason : Nat) (tile : Nat × Nat)
  | poison
  | ecc
  | exhausted
  deriving DecidableEq, Repr

/-- A computation over the state that a memory error can end; the state stands as the error left it. -/
abbrev R (α : Type) := ExceptT ReadErr (StateM State) α

/-- The key slot of a partition on a die. -/
def State.keySlot (s : State) (die : Nat) (part key : BitVec 4) : KeySlot :=
  Tab.get {} (s.die die).keys (part.toNat * 16 + key.toNat)

/-- A generation as an index. -/
def genIx (g : Bool) : Nat := if g then 1 else 0

/-- Whether errors in a 32-byte granule lie in more than one 16-bit symbol, and so are not corrected (R411). -/
def granuleBad (flips : List Nat) : Bool :=
  match flips with
  | [] => false
  | b :: rest => rest.any fun c => c / 16 != b / 16

/-- Whether errors in 64 bits under SECDED are not corrected (R411). -/
def wordBad (flips : List Nat) : Bool := decide (2 ≤ flips.length)

/-- Whether flipped bits of several 64-bit words, numbered through them, hold an error that SECDED does not correct. -/
def flipsBad (flips : List Nat) : Bool := flips.any fun b => flips.any fun c => b != c && b / 64 == c / 64

/-- The number by which the errors of 8 bytes of a scratchpad or of a cached copy are listed. -/
def wordKey (key : Nat) : Nat := key / 8 + 2 ^ 60

/-- The number by which the errors of a tile's metadata in the carve-out are listed (R368). -/
def metaKey (die chan row : Nat) : Nat := tileKey die chan row + 2 ^ 61

/-- Whether a number of a granule belongs to a tile: its 64 granules of data, and its metadata. -/
def inTile (die chan row k : Nat) : Bool :=
  let g0 := Key.hbm die chan (row * 2048) / 32
  (decide (g0 ≤ k) && decide (k < g0 + 64)) || k == metaKey die chan row

/-- The granules of a tile and its metadata that hold errors. -/
def State.tileFlips (s : State) (die chan row : Nat) : List (Nat × List Nat) := s.ecc.filter fun p => inTile die chan row p.1

/-- An uncorrectable error in a tile or its metadata (R370, R411). -/
def State.tileEcc (s : State) (die chan row : Nat) : Bool := (s.tileFlips die chan row).any fun p => granuleBad p.2

/-- A tile without errors. -/
def State.clearTile (s : State) (die chan row : Nat) : State :=
  { s with ecc := s.ecc.filter fun p => !inTile die chan row p.1 }

/-- The nonce of a device tile under a version (R369). -/
def State.tileNonce (s : State) (die chan row : Nat) (version : BitVec 48) : BitVec 96 :=
  0#9 ++ BitVec.ofNat 12 (s.nodeOf die) ++ BitVec.ofNat 27 ((s.die die).dpaOf chan row / 2048) ++ version

/-- The associated data of a device tile, its byte 0 lowest (R369). -/
def tileAad (part key : BitVec 4) (gen : Bool) : BitVec 64 :=
  0#40 ++ (if gen then 1#8 else 0#8) ++ (part ++ key) ++ 1#8

/-- Verify of R370 on a tile: fails with the fault it raises. A tile that nothing has sealed since power-on answers each
read with an unspecified one of its outcomes (R368, assumption log 9). -/
def verifyTile (die chan row : Nat) (part key : BitVec 4) (any : Bool) : R Unit := do
  let s ← get
  let at0 := (s.nodeOf die, (s.die die).dpaOf chan row)
  if s.tileEcc die chan row then throw .ecc
  match s.tiles.find? fun p => p.1 == tileKey die chan row with
  | none =>
    let (x, s) := s.draw 3
    set s
    match x.toNat with
    | 1 => throw (.seal 1 at0)
    | 2 => throw (.seal 2 at0)
    | 3 => throw (.seal 3 at0)
    | 4 => throw (.seal 4 at0)
    | 5 => throw .poison
    | _ => return ()
  | some (_, t) =>
    if t.flags != 0 then throw (.seal 4 at0)
    if t.poison then throw .poison
    if !any && (t.part != part || t.key != key) then throw (.seal 3 at0)
    if t.zero then return ()
    let k := s.keySlot die t.part t.key
    if !vget k.full false (genIx t.gen) then throw (.seal 2 at0)
    if t.intact && t.keyVal == vget k.val 0 (genIx t.gen) && t.nonce == s.tileNonce die chan row t.version &&
        t.aad == tileAad t.part t.key t.gen then return ()
    else throw (.seal 1 at0)

/-- Seal of R371: the metadata of the tile after a write; refused at exhaustion. A write at PL2 keeps the tile's PART and
KEY (R438). -/
def sealTile (die chan row : Nat) (part key : BitVec 4) (any : Bool) : R Unit := do
  let s ← get
  let old ← match s.tiles.find? fun p => p.1 == tileKey die chan row with
    | some (_, t) => pure t
    | none =>
      let (x, s) := s.draw 49
      set s
      pure { part := part, key := key, gen := x.getLsbD 48, version := x.setWidth 48 }
  let s ← get
  let part := if any then old.part else part
  let key := if any then old.key else key
  let k := s.keySlot die part key
  if old.gen == k.cur && !old.zero && old.version == BitVec.allOnes 48 then throw .exhausted
  let v := if old.gen == k.cur then old.version + 1 else 0
  let t : Tile :=
    { part := part, key := key, gen := k.cur, zero := false, poison := false, version := v
      keyVal := vget k.val 0 (genIx k.cur), intact := true
      nonce := s.tileNonce die chan row v, aad := tileAad part key k.cur }
  set { s.clearTile die chan row with tiles := Tab.set s.tiles (tileKey die chan row) t }

/-- A tile marked poisoned, whatever errors it holds (R376). -/
def State.poisonTile (s : State) (die chan row : Nat) : State :=
  let t : Tile := Tab.get {} s.tiles (tileKey die chan row)
  { s.clearTile die chan row with tiles := Tab.set s.tiles (tileKey die chan row) { t with poison := true } }

/-- What R376 does to a tile whose read part fails. -/
def State.afterBadRead (s : State) (die chan row : Nat) (e : ReadErr) : State :=
  match e with
  | .ecc => s.poisonTile die chan row
  | .seal 1 _ => s.poisonTile die chan row
  | .seal 4 _ => s.poisonTile die chan row
  | _ => s

/-! ### L2 (R260, R261) -/

/-- A block of L2. -/
def State.block (s : State) (die chan row : Nat) : L2Block := Tab.get {} s.l2 (tileKey die chan row)

/-- A block of L2 changed. -/
def State.setBlock (s : State) (die chan row : Nat) (b : L2Block) : State :=
  { s with l2 := Tab.set s.l2 (tileKey die chan row) b }

/-- A fill: the whole tile is read and verified, and every sector is then valid (R261). -/
def l2Fill (die chan row : Nat) (part key : BitVec 4) (any : Bool) : R Unit := do
  modify fun s => s.chargeTile die chan part 1
  verifyTile die chan row part key any
  modify fun s => s.setBlock die chan row { s.block die chan row with
    valid := BitVec.allOnes 16
    version := (s.tiles.find? fun p => p.1 == tileKey die chan row).map (·.2.version) }

/-- A read of a sector (R261). -/
def l2Read (die chan row sec : Nat) (part key : BitVec 4) (any : Bool) : R Unit := do
  if (← get).block die chan row |>.valid.getLsbD sec then return ()
  l2Fill die chan row part key any

/-- What HBM holds in a sector is kept before the sector is first changed above it. -/
def State.saveOld (s : State) (die chan row sec : Nat) : State :=
  let b := s.block die chan row
  if Tab.has b.saved sec then s
  else
    let old := BitVec.ofNat 1024 (leNat (Memory.readN s.mem (Key.hbm die chan (row * 2048 + sec * 128)) 128))
    s.setBlock die chan row { b with saved := Tab.set b.saved sec old }

/-- A sector written, whole or not, by a core's stream (R261). -/
def l2Write (die chan row sec : Nat) (whole : Bool) (part key : BitVec 4) (any : Bool) (ag : Agent) (va : Dword) :
    R Unit := do
  if !whole then l2Read die chan row sec part key any
  modify fun s =>
    let s := s.saveOld die chan row sec
    let b := s.block die chan row
    s.setBlock die chan row { b with
      valid := b.valid ||| (1#16 <<< sec), dirty := b.dirty ||| (1#16 <<< sec)
      core := ag.core, stream := ag.st, pc := ag.pc, va := va, part := part, key := key, job := ag.job, anyOwner := any }

/-! ### The L1s (R258) -/

/-- The cores of a die that have a record, with their L1 state of a line. -/
def State.holders (s : State) (die line : Nat) : List (Nat × Moesi) :=
  s.cores.filterMap fun p =>
    if dieOf p.1 = die then (p.2.l1.find? fun e => e.1 == line).map fun e => (p.1, e.2) else none

/-- The L1 state of a line in a core changed; none is I. -/
def State.setL1 (s : State) (core line : Nat) (st : Option Moesi) : State :=
  let c := s.coreAt core
  s.putCore core { c with l1 := match st with | some x => Tab.set c.l1 line x | none => Tab.erase c.l1 line }

/-- The tile and sector of a line key, which is the memory key of the line's first byte. -/
def lineHome (line : Nat) : Nat × Nat × Nat × Nat :=
  let b := line % 2 ^ 31
  (line / 2 ^ 31 / 64, line / 2 ^ 31 % 64, b / 2048, b % 2048 / 128)

/-- A dirty line written back to its L2 sector. -/
def writeBack (core line : Nat) : R Unit := do
  let (die, chan, row, sec) := lineHome line
  let b := (← get).block die chan row
  l2Write die chan row sec true b.part b.key b.anyOwner { core := core, st := .s, pc := b.pc, job := b.job } b.va

/-- Every copy of a line invalidated, a dirty one written back first (R258). -/
def invalidateLine (die line : Nat) (except : Option Nat) : R Unit := do
  for (k, x) in (← get).holders die line do
    if except != some k then
      if x == .m || x == .o then writeBack k line
      modify fun s => s.setL1 k line none

/-- The lines of an L1: 64 KiB of 128 bytes each (R258). -/
def l1Lines : Nat := 512

/-- A full L1 evicts another line than the one just brought in, the first of its table (assumption log 49). -/
def trimL1 (core line : Nat) : R Unit := do
  let l1 := ((← get).coreAt core).l1
  if l1.length ≤ l1Lines then return ()
  match l1.find? fun e => e.1 != line with
  | none => return ()
  | some e => do
    if e.2 == .m || e.2 == .o then writeBack core e.1
    modify fun s => s.setL1 core e.1 none

/-- A load by S that may allocate: the line is brought into its L1 (R258). -/
def l1Load (core line : Nat) (part key : BitVec 4) (any : Bool) : R Unit := do
  let (die, chan, row, sec) := lineHome line
  let hs := (← get).holders die line
  if hs.any fun h => h.1 == core then return ()
  match hs.find? fun h => h.2 == .m || h.2 == .o with
  | some (k, _) => do
    modify fun s => (s.setL1 k line (some .o)).setL1 core line (some .s)
    trimL1 core line
  | none =>
    l2Read die chan row sec part key any
    match hs.find? fun h => h.2 == .e with
    | some (k, _) => modify fun s => (s.setL1 k line (some .s)).setL1 core line (some .s)
    | none => modify fun s => s.setL1 core line (some (if hs.isEmpty then .e else .s))
    trimL1 core line

/-- A store or atomic by S that may allocate: the line is taken in M (R258). -/
def l1Own (ag : Agent) (line : Nat) (part key : BitVec 4) (any : Bool) (va : Dword) : R Unit := do
  let core := ag.core
  let (die, chan, row, sec) := lineHome line
  let hs := (← get).holders die line
  let dirty := hs.any fun h => h.2 == .m || h.2 == .o
  if !dirty && !(hs.any fun h => h.1 == core) then l2Read die chan row sec part key any
  modify fun s => hs.foldl (fun s h => if h.1 = core then s else s.setL1 h.1 line none) s
  modify fun s =>
    let s := (s.setL1 core line (some .m)).saveOld die chan row sec
    s.setBlock die chan row { s.block die chan row with
      core := core, stream := .s, pc := ag.pc, va := va, part := part, key := key, job := ag.job, anyOwner := any }
  trimL1 core line

/-! ### Ranges -/

/-- The parts of a range of `n` bytes at `a` that lie in one aligned unit of `u` bytes each: address and length. -/
def chunks (u : Nat) : Nat → Nat → Nat → List (Nat × Nat)
  | 0, _, _ => []
  | f + 1, a, n => if n = 0 then [] else
    let k := min n (u - a % u)
    (a, k) :: chunks u f (a + k) (n - k)

/-- A range cut at multiples of `u`. -/
def split (u a n : Nat) : List (Nat × Nat) := chunks u (n / u + 2) a n

/-! ### Monitors (R107) -/

/-- A write to a byte triggers every monitor armed on its 128-byte line, but that of the S stream that wrote. -/
def State.wakeMonitors (s : State) (key : Nat) (writer : Option Nat) : State :=
  { s with cores := s.cores.map fun p =>
      match p.2.monitor with
      | .armed l k => if k / 128 = key / 128 ∧ writer ≠ some p.1 then (p.1, { p.2 with monitor := .triggered l k }) else p
      | _ => p }

/-- A write to every byte of some keys triggers every monitor armed among them (R107). -/
def State.wakeAll (s : State) (hit : Nat → Bool) : State :=
  { s with cores := s.cores.map fun p =>
      match p.2.monitor with
      | .armed l k => if hit k then (p.1, { p.2 with monitor := .triggered l k }) else p
      | _ => p }

/-- Bytes written at consecutive keys, with the monitors they trigger. -/
def State.writeBytes (s : State) (key : Nat) (bs : List Byte) (writer : Option Nat) : State :=
  let s := { s with mem := Memory.writeN s.mem key bs }
  (split 128 key bs.length).foldl (fun s c => s.wakeMonitors c.1 writer) s

/-! ### Asynchronous records, and the eviction of a block (R261, R262, R400) -/

/-- A seal fault's record: the PL1 bank takes the reason and the VA, the PL2 bank also the tile's node and DPA, where the
tile is the accessing partition's own (R374, assumption log 50). -/
def Trap.sealAt (t : Trap) (va : Dword) (node dpa : Nat) : Trap :=
  if t.cls = 0x0C ∧ t.sub.toNat < 16 then
    { t with syn := some {
        fsyn := place t.sub.toNat 24, fva := va, fipa := 0, bank2 := false
        tile := if t.sub = 3 then none else some (place node 48 ||| place dpa 0) } }
  else t

/-- The trap that a failed read raises precisely at a word of S (R285, R374, R391). -/
def ReadErr.toTrap (e : ReadErr) (va : Dword) : Trap :=
  match e with
  | .seal r t => ({ cls := 0x0C, sub := BitVec.ofNat 32 r } : Trap).sealAt va t.1 t.2
  | .poison => { cls := 0x0D }
  | .ecc => { cls := 0x0E }
  | .exhausted => { cls := 0x0C, sub := 0x20 }

/-- KIND and CODE of the asynchronous record of a failed access (R400). -/
def ReadErr.kindCode : ReadErr → Nat × Nat
  | .seal r _ => (1, r)
  | .poison => (1, 0x10)
  | .ecc => (1, 0x11)
  | .exhausted => (2, 0x20)

/-- An asynchronous record queued at a core; the ninth and later are counted and lost (R400). -/
def State.async (s : State) (core : Nat) (r : Record) : State :=
  let c := s.coreAt core
  if c.records.length < 8 then s.putCore core { c with records := c.records ++ [r] }
  else s.putCore core { c with recOvf := if c.recOvf = BitVec.allOnes 32 then c.recOvf else c.recOvf + 1 }

/-- ARSYN (R400). -/
def arsyn (kind code stream port : Nat) : Dword := place kind 56 ||| place code 48 ||| place stream 44 ||| place port 40

/-- The record of an access of a word that had retired (R262, R400). -/
def State.memRecord (s : State) (ag : Agent) (va : Dword) (e : ReadErr) : State :=
  let kc := e.kindCode
  s.async ag.core { syn := arsyn kc.1 kc.2 (if ag.st == .s then 0 else 1) 0, addr := ag.pc, det := va
                    job := ag.job }

/-- The keys of the 8-byte words of a tile's cached copy. -/
def copyKeys (die chan row : Nat) : Nat × Nat := (wordKey (Key.hbm die chan (row * 2048)), 256)

/-- A dirty copy of a tile holds an uncorrectable error (R413). -/
def State.copyBad (s : State) (die chan row : Nat) : Bool :=
  let (k, n) := copyKeys die chan row
  s.ecc.any fun p => decide (k ≤ p.1) && decide (p.1 < k + n) && wordBad p.2

/-- Evict an L2 block: its dirty sectors are resealed, or discarded where that fails (R261, R262, R413). -/
def State.evict (s : State) (die chan row : Nat) : State :=
  let back : R Unit := (List.range 16).forM fun sec => invalidateLine die (Key.hbm die chan (row * 2048 + sec * 128)) none
  let s := match back.run.run s with | (_, s) => s
  let b := s.block die chan row
  let (k0, n0) := copyKeys die chan row
  let gone (s : State) : State := { s with
    l2 := Tab.erase s.l2 (tileKey die chan row)
    ecc := s.ecc.filter fun p => !(decide (k0 ≤ p.1) && decide (p.1 < k0 + n0)) }
  if b.dirty = 0 then gone s
  else
    let ag : Agent := { core := b.core, st := b.stream, pc := b.pc, job := b.job }
    let work : R Unit := do
      if s.copyBad die chan row then throw .ecc
      if b.valid != BitVec.allOnes 16 then
        modify fun s => s.chargeTile die chan b.part 1
        verifyTile die chan row b.part b.key b.anyOwner
      modify fun s => s.chargeTile die chan b.part 1
      sealTile die chan row b.part b.key b.anyOwner
    let undo (s : State) : State := b.saved.foldl (fun s p =>
      { s with mem := Memory.writeN s.mem (Key.hbm die chan (row * 2048 + p.1 * 128)) (leBytes 128 p.2.toNat) }) s
    match work.run.run s with
    | (.ok _, s) => gone s
    | (.error e, s) =>
      let poisoned (s : State) : Bool := (Tab.get {} s.tiles (tileKey die chan row)).poison
      let was := poisoned s
      let s := ((undo s).afterBadRead die chan row e).memRecord ag b.va e
      gone (if was ∨ !poisoned s then s else s.event physFn 0x0041 0xFFFF (chan + 256 * die))

/-- The tiles of a range of a die's HBM poisoned where a byte of an element that its source could not read has landed, what
the caches hold of them written back first (R413). -/
def State.poisonBytes (s : State) (p : Piece) (bad : List Bool) : State :=
  let d := match p.place with | .hbm n => (s.dieOfNode n).getD 0 | _ => 0
  (bad.zipIdx).foldl (fun s b =>
    if b.1 then
      match (s.die d).placeOf (p.addr + b.2) with
      | some (chan, at0) => (s.evict d chan (at0 / 2048)).poisonTile d chan (at0 / 2048)
      | none => s
    else s) s

/-- The blocks of an L2 slice: 1.5 MiB of 2 KiB each (R15). -/
def sliceBlocks : Nat := 768

/-- Whether the eviction of a block is free of seal-tile accesses, or its partition's budget admits them now. -/
def State.evictable (s : State) (die chan row : Nat) : Bool :=
  let b := s.block die chan row
  s.tileRoom die (chan / 8) b.part 2 || (b.dirty == 0 && (List.range 16).all fun sec =>
    (s.holders die (Key.hbm die chan (row * 2048 + sec * 128))).all fun h => h.2 == .e || h.2 == .s)

/-- A full slice evicts the first other block of its table that the budgets let it evict, and where there is none, the
block just brought in, so that no partition waits for the budget of another (R130; assumption log 49). -/
def State.trimL2 (s : State) (die chan row : Nat) : State :=
  let k := tileKey die chan row
  let slice := s.l2.filter fun p => p.1 / 2 ^ 20 == k / 2 ^ 20
  if slice.length ≤ sliceBlocks then s
  else match slice.find? fun p => p.1 != k && s.evictable die chan (p.1 % 2 ^ 20) with
    | some p => s.evict die chan (p.1 % 2 ^ 20)
    | none => s.evict die chan row

/-! ### One piece -/

/-- The die of the package a piece lies in. -/
def Piece.die (p : Piece) (s : State) : Nat :=
  match p.place with
  | .hbm n => (s.dieOfNode n).getD 0
  | _ => 0

/-- Whether a piece lies in another die's domain (R15). -/
def Piece.peer (p : Piece) (s : State) (die : Nat) : Bool :=
  match p.place with
  | .hbm n => n != s.nodeOf die
  | _ => false

/-- The offset of each piece in the bytes of its access, with the piece. -/
def offsets (ps : List Piece) : List (Nat × Piece) :=
  (ps.foldl (fun (acc : Nat × List (Nat × Piece)) p => (acc.1 + p.len, acc.2 ++ [(acc.1, p)])) (0, [])).2

/-- The parts of pieces from byte `off`, `n` bytes. -/
def cutPieces : List Piece → Nat → Nat → List Piece
  | [], _, _ => []
  | p :: rest, off, n =>
    if n = 0 then []
    else if p.len ≤ off then cutPieces rest (off - p.len) n
    else
      let k := min n (p.len - off)
      { p with va := p.va + BitVec.ofNat 64 off, addr := p.addr + off, len := k } :: cutPieces rest 0 (n - k)

/-- Whether a word of scratchpad, a register or a queue entry holds an uncorrectable error (R413). -/
def State.wordsBad (s : State) (key n : Nat) : Bool :=
  (split 8 key n).any fun c => wordBad (Tab.get [] s.ecc (wordKey c.1))

/-- The bytes of a core's scratchpad as an access reads them; a word with an uncorrectable error traps (R413). -/
def readScratch (core off n : Nat) : R (List Byte) := do
  if (← get).wordsBad (Key.scratch core off) n then throw .ecc
  return (← get).scratchBytes core off n

/-- The bytes of a piece, with the cache and seal effects of reading them (R253, R258, R261, R263). A dirty copy that holds
an uncorrectable error is read by no one (R285, R413). -/
def readPiece (ag : Agent) (p : Piece) : R (List Byte) := do
  match p.place with
  | .scratch c => readScratch c p.addr p.len
  | .host _ => return Memory.readN (← get).mem (Key.host p.addr) p.len
  | .hbm _ =>
    let d := p.die (← get)
    let mut out := []
    for (a, n) in split (if isIL p.addr && !p.am then 128 else 2048) p.addr p.len do
      match ((← get).die d).placeOf a with
      | none => pure ()
      | some (chan, b) =>
        if isIL p.addr && !p.am then
          let line := Key.hbm d chan (b / 128 * 128)
          if p.l1 && ag.st == .s then l1Load ag.core line p.part p.key p.anyOwner
          else if ((← get).holders d line).any fun h => h.2 == .m || h.2 == .o then pure ()
          else l2Read d chan (b / 2048) (b % 2048 / 128) p.part p.key p.anyOwner
          modify fun s => s.trimL2 d chan (b / 2048)
          if (← get).wordsBad (Key.hbm d chan b) n then throw .ecc
        else
          modify fun s => s.chargeTile d chan p.part 1
          verifyTile d chan (b / 2048) p.part p.key p.anyOwner
        out := out ++ Memory.readN (← get).mem (Key.hbm d chan b) n
    return out

/-- Words of eight bytes written whole lose their errors (R413). -/
def State.clearWords (s : State) (key n : Nat) : State :=
  { s with ecc := (split 8 key n).foldl (fun e x => if x.2 = 8 then Tab.erase e (wordKey x.1) else e) s.ecc }

/-- The writer of a piece, for the monitors: only S's own writes leave its own monitor alone. -/
def Agent.writer (ag : Agent) : Option Nat := if ag.st == .s then some ag.core else none

/-- Bytes of a core's scratchpad written: each word of eight bytes written whole loses its error (R413). -/
def State.scratchWrite (s : State) (core off : Nat) (bs : List Byte) (writer : Option Nat) : State :=
  let s := (s.writeBytes (Key.scratch core off) bs writer).clearWords (Key.scratch core off) bs.length
  if (s.coreAt core).seed.isNone then s else s.putCore core ((s.coreAt core).learn off bs.length)

/-- An entry of a ring written by the core's own X or M, which wraps at the ring's end (R236). -/
def State.ringStore (s : State) (core : Nat) (d : Desc) (off : Nat) (bs : List Byte) : State :=
  let n := d.size - off
  (s.scratchWrite core (d.base + off) (bs.take n) none).scratchWrite core d.base (bs.drop n) none

/-- The bytes of a ring entry; none where a word of them holds an uncorrectable error (R413). -/
def State.ringLoad (s : State) (core : Nat) (d : Desc) (off n : Nat) : Option (List Byte) :=
  let k := min n (d.size - off)
  if s.wordsBad (Key.scratch core (d.base + off)) k || s.wordsBad (Key.scratch core d.base) (n - k) then none
  else some (s.ringBytes core d off n)

/-- The same as part of a word, which takes the precise trap of class 0x0E. -/
def readRing (ring off n : Nat) : M (List Byte) := do
  let s ← get
  match s.ringLoad s.me (s.core.desc ring) off n with
  | some bs => return bs
  | none => M.trap { cls := 0x0E }

/-- The bytes of a piece written, with the cache and seal effects of the write (R253, R258, R261, R263, R376). -/
def writePiece (ag : Agent) (p : Piece) (bs : List Byte) : R Unit := do
  match p.place with
  | .scratch c => modify fun s => s.scratchWrite c p.addr bs ag.writer
  | .host _ => modify fun s => s.writeBytes (Key.host p.addr) bs ag.writer
  | .hbm _ =>
    let d := p.die (← get)
    for (a, n) in split (if isIL p.addr && !p.am then 128 else 2048) p.addr p.len do
      match ((← get).die d).placeOf a with
      | none => pure ()
      | some (chan, b) =>
        let row := b / 2048
        let here := (bs.drop (a - p.addr)).take n
        if isIL p.addr && !p.am then
          let line := Key.hbm d chan (b / 128 * 128)
          if p.l1 && ag.st == .s then l1Own ag line p.part p.key p.anyOwner p.va
          else
            invalidateLine d line none
            l2Write d chan row (b % 2048 / 128) (n == 128) p.part p.key p.anyOwner ag p.va
          modify fun s => s.trimL2 d chan row
        else
          modify fun s => s.chargeTile d chan p.part (if n = 2048 then 1 else 2)
          if n != 2048 then
            tryCatch (verifyTile d chan row p.part p.key p.anyOwner) fun e => do
              modify fun s => s.afterBadRead d chan row e
              throw e
          sealTile d chan row p.part p.key p.anyOwner
        modify fun s => (s.writeBytes (Key.hbm d chan b) here ag.writer).clearWords (Key.hbm d chan b) here.length

/-! ### Admission (R130) -/

/-- How an access uses its bytes. -/
inductive Use where
  | read | write | modify
  deriving DecidableEq, Repr

/-- Seal-tile accesses: the die, the channel group, the partition and how many. -/
abbrev Units := Nat × Nat × BitVec 4 × Nat

/-- Whether a sector of a cached tile is to be filled for an access. -/
def State.mustFill (s : State) (d chan b n : Nat) (p : Piece) (u : Use) : Bool :=
  !(s.block d chan (b / 2048)).valid.getLsbD (b % 2048 / 128) && !(u == .write && n == 128 && !p.l1) &&
    (s.holders d (Key.hbm d chan (b / 128 * 128))).isEmpty

/-- The seal-tile accesses that a piece needs: a fill is one, a read-merge-reseal two (R130, R261, R263). -/
def State.unitsOf (s : State) (p : Piece) (u : Use) : List Units :=
  match p.place with
  | .hbm n =>
    match s.dieOfNode n with
    | none => []
    | some d => (split 2048 p.addr p.len).filterMap fun c =>
        match (s.die d).placeOf c.1 with
        | none => none
        | some (chan, b) =>
          let k : Nat :=
            if isIL p.addr && !p.am then (if (split 128 b c.2).any fun x => s.mustFill d chan x.1 x.2 p u then 1 else 0)
            else if u == .read || (u == .write && c.2 == 2048) then 1 else 2
          if k = 0 then none else some (d, chan / 8, p.part, k)
  | _ => []

/-- What a list of units asks of one channel group for one partition. -/
def unitSum (us : List Units) (x : Units) : Nat :=
  (us.filter fun y => y.1 == x.1 && y.2.1 == x.2.1 && y.2.2.1 == x.2.2.1).foldl (fun n y => n + y.2.2.2) 0

/-- The number of an agent among those whose accesses a budget can hold: a core's streams 0 to 3, its pending stores,
transfers, products and SC access, its engine ports from 8 on, its reserved queue entries; flits that land on a die; a die's
key command; its reshards; the service command; and what else happens. -/
def holdNo (core a : Nat) : Nat := core * 16 + a
def holdFlits (die : Nat) : Nat := 2 ^ 20 + die
def holdKeys (die : Nat) : Nat := 2 ^ 21 + die
def holdPieces (die : Nat) : Nat := 2 ^ 22 + die
def holdService : Nat := 2 ^ 23
def holdOther : Nat := 2 ^ 24

/-- Whether an agent that a budget held still has an access to make. -/
def State.stillHeld (s : State) (x : Nat) : Bool :=
  let c := s.coreAt (x / 16)
  if holdOther ≤ x then false
  else if holdService ≤ x then s.service.busy.isSome
  else if 2 ^ 22 ≤ x then !(s.die (x - 2 ^ 22)).reshards.isEmpty
  else if 2 ^ 21 ≤ x then (s.die (x - 2 ^ 21)).keycmd.isSome
  else if 2 ^ 20 ≤ x then !s.net.isEmpty
  else match x % 16 with
    | 4 => !c.stores.isEmpty
    | 5 => !c.xfers.isEmpty
    | 6 => !c.products.isEmpty
    | 7 => (match c.waiting with | .sc _ _ _ _ => true | _ => false)
    | 13 => c.fills.toList.any fun l => !l.isEmpty
    | a => if a < 4 then vget c.hold .none a == .device 15 else !(vget c.ports {} (a - 8)).fifo.isEmpty

/-- Nothing that a die holds under a number was held before an agent. -/
def State.firstOf (s : State) (die list who : Nat) : Bool :=
  match (s.die die).heldBy.find? fun p => p.1 == list && (p.2 == who || s.stillHeld p.2) with
  | none => true
  | some p => p.2 == who

/-- No access of the partition that a budget of the die holds was held before that of an agent. -/
def State.firstHeld (s : State) (die : Nat) (part : BitVec 4) (who : Nat) : Bool := s.firstOf die part.toNat who

/-- Whether the budgets allow every unit of an access now, with those admitted ahead for it. -/
def State.admitsUnits (s : State) (who : Nat) (us : List Units) : Bool :=
  us.all fun x => s.firstHeld x.1 x.2.2.1 who && s.tileRoom x.1 x.2.1 x.2.2.1 (unitSum us x)

/-- Whether the budgets allow an access of an agent now. -/
def State.admits (s : State) (who : Nat) (ps : List Piece) (u : Use) : Bool :=
  s.admitsUnits who (ps.flatMap fun p => s.unitsOf p u)

/-- Units of an access that waits, admitted ahead as far as the tick's budget goes. -/
def Counters.ahead (u : Counters) (limit : Option Nat) (g n : Nat) : Counters :=
  match limit with
  | none => u
  | some b =>
    let m := min (n - vget u.paid 0 g) (b - vget u.hbmt 0 g)
    { u with hbmt := vset u.hbmt g (vget u.hbmt 0 g + m), paid := vset u.paid g (vget u.paid 0 g + m) }

/-- An access that the budgets do not allow whole: its agent waits in the order of its partition, and once it is first the
units that the tick still admits are admitted. -/
def State.holdUnits (s : State) (who : Nat) (us : List Units) : State :=
  us.foldl (fun s x =>
    let d := s.die x.1
    let s := if d.heldBy.contains (x.2.2.1.toNat, who) then s
      else s.mapDie x.1 fun d => { d with heldBy := (d.heldBy.filter fun p => s.stillHeld p.2) ++ [(x.2.2.1.toNat, who)] }
    if s.firstHeld x.1 x.2.2.1 who then
      s.mapUsed x.1 x.2.2.1.toNat fun u => u.ahead (s.tileLimit x.1 x.2.2.1) x.2.1 (unitSum us x)
    else s) s

/-- An agent whose access has been admitted no longer waits. -/
def State.leaveHeld (s : State) (who : Nat) : State :=
  if s.dies.toList.any fun d => d.heldBy.any fun p => p.2 == who then
    { s with dies := s.dies.map fun d => { d with heldBy := d.heldBy.filter fun p => p.2 != who } }
  else s

/-- The state in which an access of an agent is made, or else, the state in which it waits. -/
def State.admitUnits (s : State) (who : Nat) (us : List Units) : Except State State :=
  if s.admitsUnits who us then .ok (s.leaveHeld who) else .error (s.holdUnits who us)

/-- The seal-tile accesses by which a state stands over a budget that an earlier one kept, or that an agent makes before
those that were held before its own: with these, what leads from the one to the other is not to happen yet (R130). -/
def State.refused (s t : State) (who : Nat) : List Units :=
  (List.range 4).flatMap fun d => (List.range 16).flatMap fun p =>
    let part := BitVec.ofNat 4 p
    match s.tileLimit d part with
    | none => []
    | some b =>
      let u := vget (s.die d).used {} p
      let v := vget (t.die d).used {} p
      (List.range 8).filterMap fun g =>
        let need := vget v.hbmt 0 g - vget u.hbmt 0 g + (vget u.paid 0 g - vget v.paid 0 g)
        if need != 0 && (decide (b < vget v.hbmt 0 g) || !s.firstHeld d part who) then some (d, g, part, need) else none

/-- Whether every budget admits what leads from a state to another. -/
def State.affords (s t : State) (who : Nat) : Bool := (s.refused t who).isEmpty

/-- The same for the pieces of an access. -/
def State.allow (s : State) (who : Nat) (ps : List Piece) (u : Use) : Except State State :=
  s.admitUnits who (ps.flatMap fun p => s.unitsOf p u)

/-- A word of a stream whose access the budgets do not allow holds (R88, R130); what its walks have read stands. -/
def M.budgeted (st : Stream) (ps : List Piece) (u : Use) : M Unit := do
  let s ← get
  match s.allow (holdNo s.me st.code) ps u with
  | .ok s => set s
  | .error s => do set s; M.keep (.device 15)

/-- A memory computation as part of a word: its errors are the word's traps. -/
def liftR {α : Type} (va : Dword) (r : R α) : M α := do
  match r.run.run (← get) with
  | (.ok a, s) => set s; return a
  | (.error e, s) => set s; M.trap (e.toTrap va)

/-- A write by a word that has retired: an error reaches the writer as a record (R262, R375). -/
def State.lateWrite (s : State) (ag : Agent) (p : Piece) (bs : List Byte) : State :=
  match (writePiece ag p bs).run.run s with
  | (.ok _, s) => s
  | (.error e, s) => s.memRecord ag p.va e

end Sys2Proof.Machine
end

