-- ==== Sys2Proof/Machine/Num.lean ====
section
/-! DEFINITION. Number formats, rounding and the order of sums (R30, R32, R141 to R166): every code decodes to an exact
value, and every result is one exact value rounded once. -/

namespace Sys2Proof.Machine

/-! ### Formats (R30, R142 to R149) -/

/-- The element formats. -/
inductive Fmt where
  | fp32 | bf16 | i8 | i4 | i32 | i64 | b4p2
  | b8 (p : Nat)
  | b8u (p : Nat)
  deriving DecidableEq, Repr

/-- The format of a code; none for the reserved codes (R30). -/
def Fmt.ofCode (c : BitVec 5) : Option Fmt :=
  match c.toNat with
  | 0x00 => some .fp32
  | 0x01 => some .bf16
  | 0x02 => some .i8
  | 0x03 => some .i4
  | 0x04 => some .i32
  | 0x05 => some .i64
  | 0x06 => some .b4p2
  | n => if 0x08 ≤ n ∧ n ≤ 0x0E then some (.b8 (n - 7)) else if 0x10 ≤ n ∧ n ≤ 0x16 then some (.b8u (n - 15)) else none

/-- Bits of one element (R150). -/
def Fmt.width : Fmt → Nat
  | .fp32 => 32 | .bf16 => 16 | .i8 => 8 | .i4 => 4 | .i32 => 32 | .i64 => 64 | .b4p2 => 4 | .b8 _ => 8 | .b8u _ => 8

/-- An integer format (R149). -/
def Fmt.isInt : Fmt → Bool
  | .i8 => true | .i4 => true | .i32 => true | .i64 => true | _ => false

/-- FP32 or BF16, which keep the sign of zero and always have infinities. -/
def Fmt.isWide : Fmt → Bool
  | .fp32 => true | .bf16 => true | _ => false

/-- An unsigned binary8pPu format. -/
def Fmt.isUnsigned : Fmt → Bool
  | .b8u _ => true | _ => false

/-- The width of the trailing significand. -/
def Fmt.trail : Fmt → Nat
  | .fp32 => 23 | .bf16 => 7 | .b4p2 => 1 | .b8 p => p - 1 | .b8u p => p - 1 | _ => 0

/-- The exponent bias. -/
def Fmt.bias : Fmt → Nat
  | .fp32 => 127 | .bf16 => 127 | .b4p2 => 2 | .b8 p => 2 ^ (7 - p) | .b8u p => 2 ^ (8 - p) | _ => 0

/-- The exponent of the smallest normal. -/
def Fmt.emin (f : Fmt) : Int := 1 - (f.bias : Int)

/-- The code of NaN as produced (R143, R144, R146, R148). INT8 and INT4 have none; where R243 asks for theirs it is 0 (DESIGN
CHOICE, assumption log 58). -/
def Fmt.nan : Fmt → Nat
  | .fp32 => 0x7FC00000 | .bf16 => 0x7FC0 | .b4p2 => 0x8 | .b8 _ => 0x80 | .b8u _ => 0xFF | _ => 0

/-- HasInf(F, inf) of R153. -/
def Fmt.hasInf (f : Fmt) (inf : Bool) : Bool :=
  match f with
  | .fp32 => true | .bf16 => true | .b8 _ => inf | .b8u _ => inf | _ => false

/-- The magnitude code of MaxFinite(F, inf) (R143, R145, R147, R148). -/
def Fmt.maxCode (f : Fmt) (inf : Bool) : Nat :=
  match f with
  | .fp32 => 0x7F7FFFFF
  | .bf16 => 0x7F7F
  | .b4p2 => 0x7
  | .b8 _ => if inf then 0x7E else 0x7F
  | .b8u _ => if inf then 0xFD else 0xFE
  | _ => 0

/-- The magnitude code of infinity. -/
def Fmt.infCode : Fmt → Nat
  | .fp32 => 0x7F800000 | .bf16 => 0x7F80 | .b8 _ => 0x7F | .b8u _ => 0xFE | _ => 0

/-! ### Values (R141) -/

/-- A value: ± mant × 2^exp, an infinity, or NaN. Zero keeps a sign. -/
inductive Num where
  | fin (neg : Bool) (mant : Nat) (exp : Int)
  | inf (neg : Bool)
  | nan
  deriving DecidableEq, Repr

/-- An integer as a value. -/
def Num.ofInt (i : Int) : Num := .fin (decide (i < 0)) i.natAbs 0

/-- Two's complement (R149). -/
def signedOf (w c : Nat) : Int := if 2 ^ (w - 1) ≤ c then (c : Int) - 2 ^ w else c

/-- The value of a sign, an exponent field and a trailing field (R142, R144, R146, R148). -/
def Fmt.value (f : Fmt) (neg : Bool) (mag : Nat) : Num :=
  let e := mag / 2 ^ f.trail
  let t := mag % 2 ^ f.trail
  if e = 0 then .fin neg t (f.emin - f.trail)
  else .fin neg (2 ^ f.trail + t) ((e : Int) - f.bias - f.trail)

/-- Decode(c, F, inf) of R154. -/
def Fmt.decode (f : Fmt) (inf : Bool) (c : Nat) : Num :=
  match f with
  | .i8 => .ofInt (signedOf 8 c)
  | .i4 => .ofInt (signedOf 4 c)
  | .i32 => .ofInt (signedOf 32 c)
  | .i64 => .ofInt (signedOf 64 c)
  | .fp32 =>
    let neg := decide (2 ^ 31 ≤ c)
    let m := c % 2 ^ 31
    if m = 0x7F800000 then .inf neg else if 0x7F800000 < m then .nan else f.value neg m
  | .bf16 =>
    let neg := decide (2 ^ 15 ≤ c)
    let m := c % 2 ^ 15
    if m = 0x7F80 then .inf neg else if 0x7F80 < m then .nan else f.value neg m
  | .b4p2 => if c = 8 then .nan else f.value (decide (8 ≤ c)) (c % 8)
  | .b8 _ =>
    if c = 0x80 then .nan
    else if inf ∧ c % 128 = 0x7F then .inf (decide (128 ≤ c))
    else f.value (decide (128 ≤ c)) (c % 128)
  | .b8u _ => if c = 0xFF then .nan else if inf ∧ c = 0xFE then .inf false else f.value false c

/-! ### Rounding (R152 to R155) -/

/-- The rounding modes (R32). -/
inductive Rnd where
  | rne | rtz | rup | rdn
  deriving DecidableEq, Repr

/-- The mode of a rounding field (R32). -/
def Rnd.ofCode (c : BitVec 2) : Rnd :=
  match c.toNat with
  | 0 => .rne | 1 => .rtz | 2 => .rup | _ => .rdn

/-- Whether a magnitude between `n` and `n + 1` units goes up: `rem` of `one`, in a mode, `even` telling that `n` is the
choice on a tie (R152). -/
def Rnd.up (r : Rnd) (neg : Bool) (even : Bool) (rem one : Nat) : Bool :=
  match r with
  | .rne => decide (one < 2 * rem) || (decide (2 * rem = one) && !even)
  | .rtz => false
  | .rup => decide (rem ≠ 0) && !neg
  | .rdn => decide (rem ≠ 0) && neg

/-- The magnitude code, its exponent field unbounded, of RoundToGrid(x, F, rnd) for x = ± m × 2^q, m ≠ 0 (R152). The
code counts grid values upwards from zero, so a carry out of the significand raises the exponent field by itself. -/
def Fmt.gridCode (f : Fmt) (r : Rnd) (neg : Bool) (m : Nat) (q : Int) : Nat :=
  let k : Int := (Nat.log2 m : Int) + q
  let u : Int := max k f.emin - f.trail
  let base : Nat := if k < f.emin then 0 else ((k - f.emin).toNat) * 2 ^ f.trail
  let n := if u ≤ q then m * 2 ^ (q - u).toNat else m / 2 ^ (u - q).toNat
  let one := 2 ^ (u - q).toNat
  let rem := if u ≤ q then 0 else m % one
  let code := base + n
  if r.up neg (decide (code % 2 = 0)) rem one then code + 1 else code

/-- ToInt(x, F, rnd) of R155, as a code of `w` bits. -/
def toIntCode (w : Nat) (r : Rnd) (x : Num) : Nat :=
  let clamp (i : Int) : Nat :=
    let i := max (-(2 ^ (w - 1) : Int)) (min i (2 ^ (w - 1) - 1))
    (i % 2 ^ w).toNat
  match x with
  | .nan => 0
  | .inf neg => if neg then clamp (-(2 ^ (w - 1) : Int)) else clamp (2 ^ (w - 1))
  | .fin neg m q =>
    let one := 2 ^ (-q).toNat
    let n := if 0 ≤ q then m * 2 ^ (min q 128).toNat else m / one
    let rem := if 0 ≤ q then 0 else m % one
    let n := if r.up neg (decide (n % 2 = 0)) rem one then n + 1 else n
    clamp (if neg then -(n : Int) else n)

/-- A sign put on a magnitude code. -/
def Fmt.signed (f : Fmt) (neg : Bool) (mag : Nat) : Nat := if neg then 2 ^ (f.width - 1) + mag else mag

/-- Overflow(F, s, rnd, ovf, inf) of R153; `ovf` is true for OVFSPEC. -/
def Fmt.overflow (f : Fmt) (neg : Bool) (r : Rnd) (ovf inf : Bool) : Nat :=
  if !ovf then f.signed neg (f.maxCode inf)
  else if f.isWide then
    if r == .rne || (r == .rup && !neg) || (r == .rdn && neg) then f.signed neg f.infCode
    else f.signed neg (f.maxCode inf)
  else if f.hasInf inf then f.signed neg f.infCode
  else f.nan

/-- Round(x, F, rnd, ovf, inf) of R153. -/
def Fmt.round (f : Fmt) (r : Rnd) (ovf inf : Bool) (x : Num) : Nat :=
  if f.isInt then toIntCode f.width r x
  else match x with
  | .nan => f.nan
  | .inf neg =>
    if f.isUnsigned && neg then (if ovf then f.nan else 0)
    else if f.hasInf inf then f.signed neg f.infCode
    else f.overflow neg r ovf inf
  | .fin neg m q =>
    let code := if m = 0 then 0 else f.gridCode r neg m q
    if code = 0 then (if f.isWide then f.signed neg 0 else 0)
    else if f.isUnsigned && neg then (if ovf then f.nan else 0)
    else if f.maxCode inf < code then f.overflow neg r ovf inf
    else f.signed neg code

/-! ### Exact arithmetic (R160) -/

/-- The negative of a value. -/
def Num.neg : Num → Num
  | .fin n m q => .fin (!n) m q
  | .inf n => .inf (!n)
  | .nan => .nan

/-- The exact product; 0 × Inf is NaN (R159). -/
def Num.mul : Num → Num → Num
  | .fin n m q, .fin n' m' q' => .fin (n ^^ n') (m * m') (q + q')
  | .fin n m _, .inf n' => if m = 0 then .nan else .inf (n ^^ n')
  | .inf n, .fin n' m' _ => if m' = 0 then .nan else .inf (n ^^ n')
  | .inf n, .inf n' => .inf (n ^^ n')
  | .nan, _ => .nan
  | _, .nan => .nan

/-- The exact quotient (R240, R243): a value that is no dyadic fraction is given as one that every format rounds alike,
between two neighbours of at least 128 bits. -/
def Num.div : Num → Num → Num
  | .fin n m q, .fin n' m' q' =>
    if m' = 0 then (if m = 0 then .nan else .inf (n ^^ n'))
    else
      let k := Nat.log2 m' + 128
      let x := m * 2 ^ k
      .fin (n ^^ n') (2 * (x / m') + if x % m' = 0 then 0 else 1) (q - q' - k - 1)
  | .fin n _ _, .inf n' => .fin (n ^^ n') 0 0
  | .inf n, .fin n' _ _ => .inf (n ^^ n')
  | .inf _, .inf _ => .nan
  | .nan, _ => .nan
  | _, .nan => .nan

/-- MaxFinite(F, 0) as a value; of INT8 and INT4, for which R153 names none and R243 uses it, 127 and 7 (DESIGN CHOICE,
assumption log 58). -/
def Fmt.maxFinite (f : Fmt) : Num :=
  if f.isInt then .ofInt (2 ^ (f.width - 1) - 1) else f.decode false (f.maxCode false)

/-- The exact sum, with the sign of a zero sum (R160). -/
def Num.add (r : Rnd) : Num → Num → Num
  | .fin n m q, .fin n' m' q' =>
    let e := min q q'
    let a : Int := (m * 2 ^ (q - e).toNat : Nat)
    let b : Int := (m' * 2 ^ (q' - e).toNat : Nat)
    let t := (if n then -a else a) + (if n' then -b else b)
    if t = 0 then .fin ((n && n') || (n != n' && r == .rdn)) 0 e
    else .fin (decide (t < 0)) t.natAbs e
  | .fin _ _ _, .inf n => .inf n
  | .inf n, .fin _ _ _ => .inf n
  | .inf n, .inf n' => if n = n' then .inf n else .nan
  | .nan, _ => .nan
  | _, .nan => .nan

/-- RoundF32(x) of R154. -/
def roundF32 (x : Num) : Nat := Fmt.fp32.round .rne true true x

/-- RoundBF16(x) of R154. -/
def roundBF16 (x : Num) : Nat := Fmt.bf16.round .rne true true x

/-- A sum of two FP32 codes, rounded once by RNE. -/
def addF32 (a b : Nat) : Nat := roundF32 ((Fmt.fp32.decode true a).add .rne (Fmt.fp32.decode true b))

/-- The B′ of R159 from a code and a BF16 scale, as a BF16 code. -/
def dequant (f : Fmt) (inf : Bool) (c sc : Nat) : Nat :=
  roundBF16 ((f.decode inf c).mul (Fmt.bf16.decode true sc))

/-- One level of a sum tree: neighbours added, an odd last one passed on (R161, R163). -/
def pairUp (add : Nat → Nat → Nat) : List Nat → List Nat
  | a :: b :: rest => add a b :: pairUp add rest
  | rest => rest

/-- A sum tree in lane order (R163); `fuel` levels are enough for 2^fuel lanes. -/
def treeSum (add : Nat → Nat → Nat) : Nat → List Nat → Nat
  | 0, l => l.headD 0
  | f + 1, l => match l with
    | [] => 0
    | [a] => a
    | l => treeSum add f (pairUp add l)

/-- The first level of R161: exact pair sums of exact products, one rounding each. -/
def pairProducts : List (Num × Num) → List Nat
  | p :: q :: rest => roundF32 ((p.1.mul p.2).add .rne (q.1.mul q.2)) :: pairProducts rest
  | [p] => [roundF32 (p.1.mul p.2)]
  | [] => []

/-- s5 of R161 from the 32 pairs of an output element. -/
def stepSum (ps : List (Num × Num)) : Nat := treeSum addF32 5 (pairProducts ps)

end Sys2Proof.Machine
end

