-- ==== Sys2Proof/Machine/Access.lean ====
section
/-! DEFINITION. What an access does at its point: the operations of the atomics, and a read, write or read-modify-write of
one piece in the memory of this package or of its host (R253, R254, R263, R293 to R296). -/

namespace Sys2Proof.Machine

/-- The code of an atomic in func10[9:6] of AMO (R38). CAS has a major opcode of its own. -/
def AmoOp.code : AmoOp → Nat
  | .add => 0 | .and => 1 | .or => 2 | .xor => 3 | .min => 4 | .max => 5 | .minu => 6 | .maxu => 7 | .swap => 8
  | .fadd => 9 | .cas => 10

/-- The atomic of a code. -/
def AmoOp.ofCode (n : Nat) : AmoOp :=
  match n with
  | 0 => .add | 1 => .and | 2 => .or | 3 => .xor | 4 => .min | 5 => .max | 6 => .minu | 7 => .maxu | 8 => .swap
  | 9 => .fadd | _ => .cas

/-- What an atomic of `n` bytes writes over the old value; none where it writes nothing (R294, R295). -/
def AmoOp.apply (op : AmoOp) (n old : Nat) (x y : Dword) : Option Nat :=
  let w := 8 * n
  let b := x.toNat % 2 ^ w
  match op with
  | .add => some ((old + b) % 2 ^ w)
  | .and => some (old &&& b)
  | .or => some (old ||| b)
  | .xor => some (old ^^^ b)
  | .min => some (if signedOf w old ≤ signedOf w b then old else b)
  | .max => some (if signedOf w old ≤ signedOf w b then b else old)
  | .minu => some (if old ≤ b then old else b)
  | .maxu => some (if old ≤ b then b else old)
  | .swap => some b
  | .fadd => some (addF32 old b)
  | .cas => if old = y.toNat % 2 ^ w then some b else none

/-- The raw bytes of a piece, with no effect on caches or seals. -/
def Piece.raw (p : Piece) (s : State) : List Byte :=
  match p.place with
  | .scratch c => s.scratchBytes c p.addr p.len
  | .host _ => Memory.readN s.mem (Key.host p.addr) p.len
  | .hbm _ =>
    (split 2048 p.addr p.len).flatMap fun c =>
      match (s.die (p.die s)).placeOf c.1 with
      | some (chan, b) => Memory.readN s.mem (Key.hbm (p.die s) chan b) c.2
      | none => []

/-- Whether a piece goes straight to its channel, past L2 (R253, R263). -/
def Piece.direct (p : Piece) : Bool :=
  match p.place with
  | .hbm _ => !isIL p.addr || p.am
  | _ => true

/-- The place of an atomic on a cached tile made ready before it reads: S's own L1 takes the line in M, or every L1 copy is
written back and invalidated and the home slice serves it (R258, R293). -/
def takeLine (ag : Agent) (p : Piece) : R Unit := do
  let d := p.die (← get)
  match ((← get).die d).placeOf p.addr with
  | none => return ()
  | some (chan, b) =>
    let line := Key.hbm d chan (b / 128 * 128)
    if p.l1 && ag.st == .s then
      if !((← get).holders d line).any fun h => h == (ag.core, .m) then
        l1Own ag line p.part p.key p.anyOwner p.va
    else invalidateLine d line none

/-- An atomic on a piece: the old bytes (R293 to R295). -/
def modifyPiece (ag : Agent) (p : Piece) (op : AmoOp) (n : Nat) (x y : Dword) : R (List Byte) := do
  match p.place with
  | .scratch c =>
    let old ← readScratch c p.addr p.len
    match op.apply n (leNat old) x y with
    | none => return old
    | some v => writePiece ag p (leBytes n v); return old
  | _ =>
    if !p.direct then takeLine ag p
    let old := p.raw (← get)
    match op.apply n (leNat old) x y with
    | none => readPiece ag p
    | some v =>
      if !p.direct then
        let _ ← readPiece ag p
      writePiece ag p (leBytes n v)
      return old

/-- How an access uses its bytes, for the budgets. -/
def Doing.use : Doing → Use
  | .read => .read
  | .write _ => .write
  | .modify _ _ _ _ => .modify

/-- One access at its point. -/
def performPiece (ag : Agent) (p : Piece) (d : Doing) : R (List Byte) := do
  match d with
  | .read => readPiece ag p
  | .write bs => writePiece ag p bs; return []
  | .modify op n x y => modifyPiece ag p op n x y

/-- The trap of a status that an answer from a peer brings to an S word: a physical-address fault at the home is one of stage
2, which firmware of the partition receives (R414, R418, R138, R366). -/
def peerTrap (status cause : BitVec 8) (va : Dword) (fault : Dword × Dword) : Option Trap :=
  if status = 0 then none
  else if status = 0x01 then some { cls := 0x0D, sub := 1 }
  else if status = 0x02 then
    some { cls := 0x06, toPl2 := true, syn := some { fsyn := fault.1, fva := va, fipa := fault.2, bank2 := true } }
  else if status = 0x0A then some { cls := 0x0D, sub := 2 }
  else if cause = 0x10 then some { cls := 0x0D }
  else if cause = 0x11 then some { cls := 0x0E }
  else some { cls := 0x0C, sub := cause.setWidth 32 }

/-- The cause that an answer carries for a memory error at the home. -/
def ReadErr.cause : ReadErr → BitVec 8
  | .seal r _ => BitVec.ofNat 8 r
  | .poison => 0x10
  | .ecc => 0x11
  | .exhausted => 0x20

/-- The SC accesses of the package that have taken a stamp, the earliest first; dies break ties (R282). -/
def State.stamped (s : State) : List (Nat × Dword × Dword × List Piece × Doing) :=
  let all := s.cores.filterMap fun p => match p.2.waiting with
    | .sc pc t ps d => some (p.1, pc, t, ps, d)
    | _ => none
  sortBy (fun a b => decide (a.2.2.1.toNat * 4 + dieOf a.1 ≤ b.2.2.1.toNat * 4 + dieOf b.1)) all

/-- An SC access applied at its point (R281). -/
def State.applySc (s : State) (k : Nat) (pc : Dword) (ps : List Piece) (d : Doing) : State :=
  let ag : Agent := { core := k, st := .s, pc := pc, job := (s.coreAt k).job }
  let work : R (List (List Byte)) := ps.mapM fun p => performPiece ag p d
  let answer (s : State) (bad : Option Trap) (got : List (List Byte)) : State :=
    let c := s.coreAt k
    s.putCore k { c with waiting := .answered pc bad got }
  let va := (ps.map (·.va)).headD 0
  match s.allow (holdNo k 7) ps d.use with
  | .error s => s
  | .ok s =>
    let (r, t) := work.run.run s
    if !s.affords t (holdNo k 7) then s.holdUnits (holdNo k 7) (s.refused t (holdNo k 7))
    else match r, d with
      | .ok got, _ => answer t none got
      | .error e, .write _ => answer (t.memRecord ag va e) none []
      | .error e, _ => answer t (some (e.toTrap va)) []

/-- Every SC access whose stamp lies 192 cycles back, in the total order of R282. -/
def State.scDue (s : State) (now : Nat) : State :=
  s.stamped.foldl (fun s a => if a.2.2.1.toNat + 192 ≤ now then s.applySc a.1 a.2.1 a.2.2.2.1 a.2.2.2.2 else s) s

end Sys2Proof.Machine
end

