-- ==== Sys2Proof/Machine/Frit.lean ====
section
/-! DEFINITION. Frit-coded weights (R217 to R230): tables, the decoding of a chunk, the entries of a Frit ring, and the
chunks decoded ahead of the matrix engine. -/

namespace Sys2Proof.Machine

/-! ### Tables (R221, R222) -/

/-- F[s] of a table. -/
def FritTable.f (t : FritTable) (s : Nat) : Nat := (t.freq.extractLsb' (16 * s) 12).toNat

/-- The symbols of a table with their CUM and F, symbols of frequency 0 left out. -/
def FritTable.ranges (t : FritTable) : List (Nat × Nat × Nat) :=
  ((List.range 256).foldl (fun (a : Nat × List (Nat × Nat × Nat)) s =>
    if t.f s = 0 then a else (a.1 + t.f s, (s, a.1, t.f s) :: a.2)) (0, [])).2.reverse

/-! ### Chunks (R219, R220, R224) -/

/-- What a chunk decodes to: 1024 symbols, a fault of R226 with the TBL of its header (none where the header was not
read), or, under frequencies that do not sum to 4096, nothing that the spec defines. -/
inductive Chunk where
  | symbols (l : List Nat)
  | bad (reason : Nat) (tbl : Option Nat)
  | undefined
  deriving DecidableEq, Repr

/-- `n` bytes of an entry from offset `e`, the entry given as one little-endian number. -/
def entryField (x e n : Nat) : Nat := (x >>> (8 * e)) % 2 ^ (8 * n)

/-- Bytes read until the state is at least 2^23: a step leaves it at least 2^11, so two bytes are enough. -/
def renorm (x last : Nat) : Nat → Nat → Nat → Option (Nat × Nat)
  | 0, st, p => some (st, p)
  | k + 1, st, p =>
    if 2 ^ 23 ≤ st then some (st, p)
    else if last ≤ p then none
    else renorm x last k (st * 256 + entryField x p 1) (p + 1)

/-- The symbols of a coded chunk: state `st`, next byte `p`, and the symbols so far, last first. -/
def decodeSymbols (x last : Nat) (ranges : List (Nat × Nat × Nat)) (tbl : Nat) :
    Nat → Nat → Nat → List Nat → Chunk
  | 0, st, _, acc => if st = 2 ^ 23 then .symbols acc.reverse else .bad 3 (some tbl)
  | k + 1, st, p, acc =>
    let slot := st % 4096
    match ranges.find? fun r => decide (slot < r.2.1 + r.2.2) with
    | none => .undefined
    | some (s, cum, f) =>
      match renorm x last 2 (f * (st / 4096) + slot - cum) p with
      | none => .bad 2 (some tbl)
      | some (st, p) => decodeSymbols x last ranges tbl k st p (s :: acc)

/-- DecodeChunk of R224: the entry as a number, the offset of the chunk's header, and the end of the coded bytes. -/
def decodeChunk (tables : Nat → FritTable) (w4 : Bool) (x e fin : Nat) : Chunk :=
  if fin < e + 4 then .bad 2 none
  else
    let h := entryField x e 4
    let len := h % 2 ^ 16
    let tbl := h / 2 ^ 16 % 8
    let raw := h / 2 ^ 20 % 2 = 1
    if h / 2 ^ 21 ≠ 0 ∨ (h / 2 ^ 19 % 2 = 1) ≠ (w4 = true) ∨ len < 8 ∨ 2048 < len then .bad 1 (some tbl)
    else if raw ∧ (tbl ≠ 0 ∨ len ≠ 4 + (if w4 then 512 else 1024)) then .bad 1 (some tbl)
    else if fin < e + len then .bad 2 (some tbl)
    else if raw then
      let w := if w4 then 4 else 8
      let y := x >>> (8 * (e + 4))
      .symbols ((List.range 1024).map fun i => (y >>> (w * i)) % 2 ^ w)
    else
      let t := tables tbl
      if !t.valid then .bad 4 (some tbl)
      else if w4 ∧ t.ranges.any (fun r => decide (16 ≤ r.1)) then .bad 5 (some tbl)
      else
        let st := entryField x (e + 4) 4
        if st < 2 ^ 23 ∨ 2 ^ 31 ≤ st then .bad 3 (some tbl)
        else decodeSymbols x (e + len) t.ranges tbl 1024 st (e + 8) []

/-- The detail word of R228. -/
def fritDetail (tile offset chunk tbl stream site reason : Nat) : Dword :=
  place tile 32 ||| place offset 20 ||| place chunk 19 ||| place tbl 16 ||| place stream 12 ||| place site 4 |||
    place reason 0

/-! ### Entries of a ring (R202, R203, R218) -/

/-- Scales per column in an entry: 2 for blocks of 16, else 1. -/
def Desc.scales (d : Desc) : Nat := if d.block = 0 then 2 else 1

/-- A multiple of `n` at or above `x`. -/
def roundUp (x n : Nat) : Nat := (x + n - 1) / n * n

/-- The bytes from the first scale to the end of the last. -/
def Desc.scaleBytes (d : Desc) : Nat := (64 * d.scales - 1) * d.sstride + 2

/-- SR of R244. -/
def Desc.scaleRegion (d : Desc) : Nat := roundUp d.scaleBytes 8

/-- Where the scale region of a Frit entry starts. -/
def fritScales (clen : Nat) : Nat := roundUp (8 + clen) 8

/-- The length of a Frit entry. -/
def Desc.fritLen (d : Desc) (clen : Nat) : Nat :=
  if d.sstride = 0 then roundUp (8 + clen) 256 else roundUp (fritScales clen + d.scaleRegion) 256

/-- C of R202: the code bytes of a fixed B entry. -/
def codeBytes (f : Fmt) : Nat := 256 * f.width

/-- E of R202. -/
def Desc.fixedLen (d : Desc) (f : Fmt) : Nat :=
  if d.sstride = 0 then codeBytes f else roundUp (codeBytes f + d.scaleBytes) 256

/-- The length of the Frit entry at `off`, where `avail` complete bytes hold it. -/
def State.fritEntry (s : State) (k : Nat) (d : Desc) (off avail : Nat) : Option Nat :=
  if avail < 256 then none
  else
    let n := d.fritLen (s.fritHeader k d off 4)
    if n ≤ avail then some n else none

/-! ### Decoding ahead (R223, R225, R227) -/

/-- The chunk of an entry that has been decoded, if it has. -/
def Core.chunk (c : Core) (ring entry n : Nat) : Option Decoded :=
  c.decoded.find? fun d => d.ring == ring && d.entry == entry && d.chunk == n

/-- A lane decodes a chunk of the complete entry at `off` of a ring; chunk 1 after chunk 0. A TBL that no rule gives and
symbols that no rule gives are free values, the TBL one of the entry's bytes, so that the same entry raises the same
detail again (R227). -/
def State.decodeInto (s : State) (k ring off len n : Nat) : State :=
  let c := s.coreAt k
  let d := c.desc ring
  let x := leNat (s.ringBytes k d off len)
  let clen := s.fritHeader k d off 4
  let e := if n = 0 then 8 else 8 + entryField x 8 2
  let w4 := (Fmt.ofCode d.fmt).any fun f => f.width == 4
  let put (s : State) (y : Option (BitVec 8192)) (detail : Dword) : State :=
    let c := s.coreAt k
    s.putCore k { c with decoded := c.decoded ++ [{ ring := ring, entry := off, chunk := n, born := s.kiln, syms := y, detail := detail }] }
  match decodeChunk (fun t => vget c.frit {} t) w4 x e (8 + clen) with
  | .symbols l => put s (some (BitVec.ofNat 8192 (l.foldr (fun c acc => c + 256 * acc) 0))) 0
  | .undefined =>
    let (y, s) := s.draw 8192
    put s (some (if w4 then y &&& BitVec.ofNat 8192 ((List.range 1024).foldl (fun a _ => 15 + 256 * a) 0) else y)) 0
  | .bad reason tbl =>
    put s none (fritDetail (s.fritHeader k d off 0) e n (tbl.getD (Config.unreadTable x).toNat) ring 0 reason)

/-- The symbols of the complete Frit entry at `off`: none while a chunk of it is not decoded, and the state then has the
next chunk decoded. A malformed chunk is the word's trap (R227). A step that re-reads an entry under PB = 0 takes the
symbols decoded first, also where software has reloaded the table against its duty and R223 allows either (DESIGN CHOICE,
assumption log 55). -/
def tileSymbols (ring off len : Nat) : M (Option (List Nat)) := do
  let s ← get
  let syms (y : BitVec 8192) : List Nat := (List.range 1024).map fun i => (y.extractLsb' (8 * i) 8).toNat
  match s.core.chunk ring off 0 with
  | none => do
    discard (readRing ring off len)
    set (s.decodeInto s.me ring off len 0)
    return none
  | some d0 =>
    match d0.syms with
    | none => M.trap { cls := 0x0F, detail := d0.detail }
    | some y0 =>
      match s.core.chunk ring off 1 with
      | none => do
        set (s.decodeInto s.me ring off len 1)
        return none
      | some d1 =>
        match d1.syms with
        | none => M.trap { cls := 0x0F, detail := d1.detail }
        | some y1 => return some (syms y0 ++ syms y1)

/-- The offset and length of entry `n` from the head of a Frit ring, where it is complete. -/
def State.entryAt (s : State) (k : Nat) (d : Desc) : Nat → Nat → Nat → Option (Nat × Nat)
  | 0, off, avail => (s.fritEntry k d off avail).map fun len => (off, len)
  | n + 1, off, avail =>
    match s.fritEntry k d off avail with
    | some len => s.entryAt k d n ((off + len) % max d.size 1) (avail - len)
    | none => none

/-- The detail of the first chunk of an entry that failed, where its lane started it before a cycle (R227). -/
def Core.failedBefore (c : Core) (ring entry t : Nat) : Option Dword :=
  let bad (d : Decoded) : Option Dword := if d.syms.isNone && decide (d.born.toNat < t) then some d.detail else none
  match c.chunk ring entry 0 with
  | none => none
  | some d0 => if d0.syms.isNone then bad d0 else (c.chunk ring entry 1).bind bad

/-- Every chunk of a ring before a chunk of the entry `n` from its head has been started, or cannot be (R225). -/
def State.startedTo (s : State) (k ring : Nat) (d : Desc) (n : Nat) : Bool :=
  let c := s.coreAt k
  (List.range n).all fun i => match s.entryAt k d i d.head d.avail with
    | none => false
    | some (off, _) => match c.chunk ring off 0 with
      | none => false
      | some d0 => d0.syms.isNone || (c.chunk ring off 1).isSome

/-- DECODE_CHUNK (R223, R225): a lane decodes the chunk of that number, counted from the head of a Frit ring, at most
eight tiles ahead and in chunk order. -/
def execDecodeChunk (core ring chunk : Nat) (s : State) : Host.Outcome State Fault Refusal :=
  if 1024 ≤ core ∨ 16 ≤ ring then .fault .noSuchUnit
  else
    let c := s.coreAt core
    let d := c.desc ring
    if !d.isFrit ∨ 16 ≤ chunk then .next s
    else match s.entryAt core d (chunk / 2) d.head d.avail with
    | none => .next s
    | some (off, len) =>
      let ready := chunk % 2 = 0 ∨ ((c.chunk ring off 0).any fun x => x.syms.isSome)
      if (c.chunk ring off (chunk % 2)).isSome ∨ ¬ ready ∨ !s.startedTo core ring d (chunk / 2) ∨ (s.ringLoad core d off len).isNone then .next s
      else .next (s.decodeInto core ring off len (chunk % 2))

end Sys2Proof.Machine
end

