-- ==== Sys2Proof/Machine/Fabric.lean ====
section
/-! DEFINITION. Messages between dies: node sets and fabric identifiers, forming and injecting flits, requests, and what
the end of a request does for the one that waits for it (R129 to R140, R264, R302, R346, R347, R400). -/

namespace Sys2Proof.Machine

/-! ### Node sets and identifiers (R13, R346, R347) -/

/-- The home die of a partition: the lowest on which it owns a bench (R113). -/
def State.homeDie (s : State) (part : Nat) : Option Nat :=
  (List.range 4).find? fun d => bits (s.part part).pbench (16 * d + 15) (16 * d) != 0

/-- Whether a partition's node set holds a node. -/
def State.inNodeSet (s : State) (part node : Nat) : Bool :=
  let r := (s.part part).pnset
  let ok (c o e n : Nat) : Bool := decide ((c + n - o % (max n 1)) % (max n 1) ≤ e) && decide (c < n)
  r.getLsbD 0 && ok (node % 16) (bits r 27 24) (bits r 15 12) s.torus.1 &&
    ok (node / 16 % 16) (bits r 31 28) (bits r 19 16) s.torus.2.1 &&
    ok (node / 256) (bits r 35 32) (bits r 23 20) s.torus.2.2

/-- The fabric partition identifier of a partition. -/
def State.fpid (s : State) (part : Nat) : BitVec 12 := BitVec.ofNat 12 (bits (s.part part).pnset 47 36)

/-- The partition that owns a bench on a die and carries an identifier (R347). -/
def State.partOf (s : State) (die : Nat) (fpid : BitVec 12) : Option Nat :=
  (List.range 16).find? fun p => (s.part p).pnset.getLsbD 0 && s.fpid p == fpid &&
    bits (s.part p).pbench (16 * die + 15) (16 * die) != 0

/-- Flits dropped at a die are counted for event 0x0051 (R416, R421). -/
def State.dropFlit (s : State) : State := { s with drops := s.drops + 1 }

/-! ### Flits (R131, R132) -/

/-- KIND codes of R132. -/
def kPWRITE : BitVec 4 := 1
def kPREAD : BitVec 4 := 2
def kRDATA : BitVec 4 := 3
def kPATOM : BitVec 4 := 4
def kADATA : BitVec 4 := 5
def kACK : BitVec 4 := 6
def kNACK : BitVec 4 := 7
def kXLATREQ : BitVec 4 := 8
def kXLATRSP : BitVec 4 := 9
def kANNOUNCE : BitVec 4 := 10
def kANNACK : BitVec 4 := 11
def kCTRL : BitVec 4 := 12

/-- The capped kinds (R132). -/
def capped (k : BitVec 4) : Bool := k == kPWRITE || k == kPREAD || k == kPATOM || k == kXLATREQ || k == kCTRL

/-- The functions of a CTRL message: payload word 0. The spec gives no codes; these are the model's (assumption log 22). -/
def ctrlBoundary : Nat := 1
def ctrlDigest : Nat := 2
def ctrlTlbinv : Nat := 3
def ctrlTlbsync : Nat := 4
def ctrlRouting : Nat := 5

/-- A routing update, which belongs to no partition and is answered by nothing (R130, R132). -/
def Flit.routing (f : Flit) : Bool := f.kind == kCTRL && bits (vget f.data 0 0) 7 0 == ctrlRouting

/-- A flit of the routers themselves: no partition's, and taken whatever the incarnation of its source (R130, R417). -/
def Flit.ofRouters (f : Flit) : Bool := f.kind == kANNOUNCE || f.kind == kANNACK || f.routing

/-- A capped flit: routing updates are not (R132). -/
def Flit.capped (f : Flit) : Bool := Machine.capped f.kind && !f.routing

/-- STAMP of a flit injected now. -/
def State.stamp (s : State) : BitVec 24 := BitVec.ofNat 24 (bits s.kiln 39 16)

/-- Eight payload words from a list. -/
def payload (ws : List Dword) : Vector Dword 8 := Vector.ofFn fun i => ws.getD i.val 0

/-- A flit of a die with a header made of its fields. -/
def State.flit (s : State) (die : Nat) (dest : BitVec 12) (fpid : BitVec 12) (kind : BitVec 4) (msgid seq : Nat)
    (last : Bool) (addr : Nat) (ws : List Dword) : Flit where
  dest := dest
  src := BitVec.ofNat 12 (s.nodeOf die)
  inc := (s.die die).inc
  stamp := s.stamp
  fpid := fpid
  msgid := BitVec.ofNat 10 msgid
  seq := BitVec.ofNat 6 seq
  last := last
  kind := kind
  nwm1 := BitVec.ofNat 3 (ws.length - 1)
  retry := false
  xl := false
  addr := BitVec.ofNat 35 addr
  data := payload ws

/-- The header of a flit as two words, bits [63:0] and [127:64] (R131). -/
def Flit.header (f : Flit) : Dword × Dword :=
  (place f.msgid.toNat 54 ||| place f.seq.toNat 48 ||| place (if f.last then 1 else 0) 47 ||| place f.kind.toNat 43 |||
      place f.nwm1.toNat 40 ||| place (if f.retry then 1 else 0) 39 ||| place (if f.xl then 1 else 0) 38 |||
      place f.addr.toNat 0,
    place f.dest.toNat 52 ||| place f.src.toNat 40 ||| place f.inc.toNat 36 ||| place f.stamp.toNat 12 |||
      place f.fpid.toNat 0)

/-! ### Injection (R130, R134, R137) -/

/-- A flit that the partition of a running node has injected (R122). -/
def Running.addFlit (r : Running) : Running := { r with flits := r.flits + 1 }

/-- The charges of a flit that a die injects: FLIT of its partition, and F of the partition's running node (R122, R130). -/
def State.chargeFlit (s : State) (die : Nat) (f : Flit) : State :=
  match (List.range 16).find? fun p => (s.part p).pnset.getLsbD 0 && s.fpid p == f.fpid with
  | none => s
  | some p =>
    if f.ofRouters then s
    else
      (s.mapUsed die p fun u => { u with flit := u.flit + 1 }).mapPart p fun p =>
        { p with running := p.running.map Running.addFlit }

/-- A flit lost at a router: its source, or the destination of an answer, is told by a NACK with reason LOST (R135,
R138); a die that has left reset keeps it until that node has acknowledged (R417). -/
def State.lost (s : State) (die : Nat) (f : Flit) : State :=
  if f.ofRouters then s
  else
    let told := if f.capped then f.src else f.dest
    if s.reachable die told.toNat then
      let nack := s.flit die told f.fpid kNACK f.msgid.toNat f.seq.toNat f.last (2 + 4 * f.seq.toNat)
        [f.header.1, f.header.2]
      if (s.die die).unknown.contains told.toNat then s.mapDie die fun d => { d with delayed := d.delayed ++ [nack] }
      else { s with net := s.net ++ [{ nack with spot := .candidate die }] }
    else s

/-- An uncapped flit put among the injection candidates of a die; one to a node that no way leads to is lost at once. -/
def State.inject (s : State) (die : Nat) (f : Flit) : State :=
  if s.reachable die f.dest.toNat then { s with net := s.net ++ [{ f with spot := .candidate die }] } else s.lost die f

/-- An uncapped flit is formed at once (R130, R132), but to a node that has not acknowledged this die's announce (R417). -/
def State.answer (s : State) (die : Nat) (f : Flit) : State :=
  if (s.die die).unknown.contains f.dest.toNat ∧ !f.ofRouters then s.mapDie die fun d => { d with delayed := d.delayed ++ [f] }
  else s.inject die f

/-- Whether a die may inject a capped flit now (R130, R137). -/
def State.mayInject (s : State) (die : Nat) (f : Flit) : Bool :=
  decide ((s.die die).capf < 512) && !(s.die die).unknown.contains f.dest.toNat &&
    match (List.range 16).find? fun p => (s.part p).pnset.getLsbD 0 && s.fpid p == f.fpid with
    | none => true
    | some p =>
      let b := bits (vget (s.die die).budget 0 p) 47 32
      b == 0xFFFF || decide ((vget (s.die die).used {} p).flit < b)

/-- A request of a die, by its message identifier. -/
def State.reqOf (s : State) (die msgid : Nat) : Option Request := (s.die die).reqs.find? fun r => r.msgid == msgid

/-- What the injection of a flit counts: FLIT and F; and of a capped one CAPF, while its die waits for it no longer (R122,
R130, R137, R138). -/
def State.injected (s : State) (die : Nat) (f : Flit) : State :=
  let s := s.chargeFlit die f
  if f.capped then
    (s.mapDie die fun d => { d with capf := d.capf + 1, formed := d.formed.erase f }).mapReq die f.msgid.toNat fun r =>
      { r with lastSent := s.kiln }
  else { s with net := s.net.erase f }

/-- The throttle level of a die (R137). -/
def Die.throttle (d : Die) : Nat :=
  let c := if 480 ≤ d.capf then 3 else if 384 ≤ d.capf then 2 else if 256 ≤ d.capf then 1 else 0
  max c d.dfrLevel

/-- A refused flit of a request is among the candidates of its die again (R137, R139). -/
def State.retryFlit (s : State) (die msgid : Nat) (x : Dword × Flit) : State :=
  (s.mapReq die msgid fun r => { r with retry := r.retry.erase x, flits := r.flits ++ [x.2] }).mapDie die fun d =>
    { d with formed := d.formed ++ [x.2] }

/-- The capped candidates of a die in their order: the retries that are due, then the new flits, request by request in the
order the requests were made (R137). -/
def Die.offers (d : Die) : List Flit × List Flit :=
  (d.formed.filter (·.retry),
    d.reqs.flatMap fun r => d.formed.filter fun f => !f.retry && f.msgid.toNat == r.msgid)

/-! ### Routing updates (R135) -/

/-- The nodes that a die's router can have a distance to: those of the package, the peers cabled to it, and those that it
has been told of. -/
def State.routed (s : State) (die : Nat) : List Nat :=
  (([0, 1, 2, 3].map s.nodeOf) ++ ((List.range 6).filterMap fun p => s.nextNode die p) ++
    (s.die die).hops.map (·.2.1)).eraseDups

/-- What a router tells a neighbour of a node: its distance over every port but the neighbour's own, so that no two routers
send flits for a node to each other (assumption log 14). -/
def State.toldOf (s : State) (die port node : Nat) : Nat := s.hopsOver die node ((s.upPorts die).filter (· != port))

/-- The routing updates that a die sends once links or distances differ from those of an earlier state. -/
def State.rerouteDie (s old : State) (die : Nat) : State :=
  (s.upPorts die).foldl (fun s p => match s.nextNode die p with
    | none => s
    | some m => ((s.routed die).filter (· != m)).foldl (fun s n =>
      let d := s.toldOf die p n
      if (if (old.upPorts die).contains p then old.toldOf die p n else farAway) = d then s
      else s.inject die (s.flit die (BitVec.ofNat 12 m) 0 kCTRL 0 0 true 0
        [place ctrlRouting 0, place n 0, place d 0])) s) s

/-- Links have changed or a router has been told something: every router that holds other distances tells its neighbours. -/
def State.reroute (s old : State) : State := [0, 1, 2, 3].foldl (fun s d => s.rerouteDie old d) s

/-- A die's announces to nodes (R417). -/
def State.announceTo (s : State) (die : Nat) (ns : List Nat) : State :=
  ns.foldl (fun s n => s.inject die (s.flit die (BitVec.ofNat 12 n) 0 kANNOUNCE 0 0 true (s.die die).inc.toNat [0])) s

/-- The announces that a new way lets through. -/
def State.announceAfter (s old : State) : State :=
  [0, 1, 2, 3].foldl (fun s d => s.announceTo d ((s.die d).unknown.filter fun n => s.reachable d n && !old.reachable d n)) s

/-- A routing update taken by a die: the distance that the neighbour has told, for every port that leads to it. -/
def State.takeRoute (s : State) (die : Nat) (f : Flit) : State :=
  let node := bits (vget f.data 0 1) 11 0
  let d := min farAway (bits (vget f.data 0 2) 11 0)
  let ports := (List.range 6).filter fun p => s.nextNode die p == some f.src.toNat
  let t := s.mapDie die fun x => { x with hops :=
    (x.hops.filter fun h => !(ports.contains h.1 && h.2.1 == node)) ++
      (if d < farAway then ports.map fun p => (p, node, d) else []) }
  (t.reroute s).announceAfter s

/-! ### The cullet table (R133) -/

/-- Flits performed. -/
def Cullet.count (c : Cullet) : Nat := ((List.range 64).filter fun i => c.bitmap.getLsbD i).length

/-- Every flit of the message has been performed. -/
def Cullet.whole (c : Cullet) : Bool := c.total == some c.count

/-! ### Requests -/

/-- The lowest message identifier no request of a die holds. -/
def Die.freeMsg (d : Die) : Option Nat :=
  (List.range (d.reqs.length + 1)).find? fun n => decide (n < 1024) && !d.reqs.any fun r => r.msgid == n

/-- The first and the number of 8-byte words that a range covers. -/
def wordsOf (addr len : Nat) : Nat × Nat := (addr / 8, (addr + len + 7) / 8 - addr / 8)

/-- The flits of a read of a range: at most eight words each (R132). -/
def State.readFlits (s : State) (die : Nat) (dest fpid : BitVec 12) (key : BitVec 4) (am xl : Bool) (msgid addr len : Nat) :
    List Flit :=
  let (w0, n) := wordsOf addr len
  let k := (n + 7) / 8
  (List.range k).map fun i =>
    let m := min 8 (n - 8 * i)
    let size := if len = 1 then 0 else if len = 2 then 1 else if len = 4 then 2 else 3
    let head : Dword := if len < 8 then place (addr % 8) 0 ||| place size 3 else 0
    { s.flit die dest fpid kPREAD msgid i (i + 1 == k) (w0 + 8 * i) (head :: List.replicate (m - 1) 0) with
      key := key, am := am, xl := xl }

/-- What a peer write carries beside its bytes: only the low nibble of its last byte is written (R233), and the bytes
of elements that were read with an uncorrectable error (R413). -/
structure Late where
  low : Bool := false
  bad : List Bool := []
  deriving DecidableEq, Repr

/-- The flits of a write of a range (R132). -/
def State.writeFlits (s : State) (die : Nat) (dest fpid : BitVec 12) (key : BitVec 4) (am xl : Bool) (msgid addr : Nat)
    (bs : List Byte) (late : Late) (ag : Option Agent := none) (va : Dword := 0) : List Flit :=
  let (w0, n) := wordsOf addr bs.length
  let k := (n + 7) / 8
  let byteAt (a : Nat) : Byte := if a < addr then 0 else bs.getD (a - addr) 0
  (List.range k).map fun i =>
    let m := min 8 (n - 8 * i)
    let ws := (List.range m).map fun j =>
      BitVec.ofNat 64 (leNat ((List.range 8).map fun b => byteAt (8 * (w0 + 8 * i + j) + b)))
    let en := (List.range (8 * m)).foldl (fun e b =>
      let a := 8 * (w0 + 8 * i) + b
      if addr ≤ a ∧ a < addr + bs.length then e ||| (1#64 <<< b) else e) 0#64
    let wrong := (List.range (8 * m)).foldl (fun e b =>
      let a := 8 * (w0 + 8 * i) + b
      if addr ≤ a ∧ late.bad.getD (a - addr) false then e ||| (1#64 <<< b) else e) 0#64
    { s.flit die dest fpid kPWRITE msgid i (i + 1 == k) (w0 + 8 * i) ws with
      key := key, am := am, xl := xl, enable := en, low := late.low && i + 1 == k, bad := wrong
      sender := ag, va := va + BitVec.ofNat 64 (8 * (w0 + 8 * i)) - BitVec.ofNat 64 addr }

/-- A request made and its flits put among the die's candidates. -/
def State.send (s : State) (die : Nat) (r : Request) : State :=
  (s.mapDie die fun d => { d with reqs := d.reqs ++ [{ r with born := s.kiln }], formed := d.formed ++ r.flits })

/-- The bytes at its node that a request is known to cover. -/
def Request.covered (r : Request) : List (Nat × Nat) := if r.range then r.covers else [(r.addr, r.len)]

/-- A write of this source, not yet acknowledged, to some of the bytes of a later access to the same node (R140); which bytes
a range covers that its node has not translated is not known, and may be any. -/
def Request.blocks (r : Request) (dest : BitVec 12) (cs : List (Nat × Nat)) : Bool :=
  r.kind == kPWRITE && r.dest == dest && ((r.range && r.asked && r.status == 0) || r.covered.any fun x => cs.any fun y =>
    decide (x.1 < y.1 + y.2) && decide (y.1 < x.1 + x.2))

/-- Bytes of a node that an unacknowledged write of this die covers (R140). -/
def State.unacked (s : State) (die : Nat) (dest : BitVec 12) (addr len : Nat) : Bool :=
  (s.die die).reqs.any fun r => r.blocks dest [(addr, len)]

/-- The ranges of at most 64 flits into which a range is cut. -/
def messages (addr len : Nat) : List (Nat × Nat) :=
  let a := addr % 8
  (List.range ((a + len + 4095) / 4096)).map fun i =>
    let first := max addr (addr - a + 4096 * i)
    (first, min (addr + len) (addr - a + 4096 * (i + 1)) - first)

/-- The node a peer piece lies in. -/
def Piece.node (p : Piece) : BitVec 12 :=
  match p.place with
  | .hbm n => BitVec.ofNat 12 n
  | _ => 0

/-- A peer piece read by messages of at most 64 flits: their identifiers, or none where a message must wait (R140). -/
def State.readPeer (s : State) (die : Nat) (owner : Owner) (p : Piece) : Option (List Nat × State) :=
  if s.unacked die p.node p.addr p.len then none
  else (messages p.addr p.len).foldlM (fun (acc : List Nat × State) c =>
    match (acc.2.die die).freeMsg with
    | none => none
    | some id =>
      let fs := acc.2.readFlits die p.node (acc.2.fpid p.part.toNat) p.key p.am false id c.1 c.2
      some (acc.1 ++ [id], acc.2.send die { msgid := id, dest := p.node, owner := owner, kind := kPREAD, part := p.part
                                            addr := c.1, len := c.2, va := p.va, fault := p.fault, flits := fs })) ([], s)

/-- A peer piece written by messages of at most 64 flits. -/
def State.writePeer (s : State) (die : Nat) (owner : Owner) (p : Piece) (bs : List Byte)
    (late : Late := {}) (ag : Option Agent := none) : Option (List Nat × State) :=
  if s.unacked die p.node p.addr p.len then none
  else (messages p.addr p.len).foldlM (fun (acc : List Nat × State) c =>
    match (acc.2.die die).freeMsg with
    | none => none
    | some id =>
      let here := (bs.drop (c.1 - p.addr)).take c.2
      let final := c.1 + c.2 == p.addr + p.len
      let fs := acc.2.writeFlits die p.node (acc.2.fpid p.part.toNat) p.key p.am false id c.1 here
        { low := late.low && final, bad := (late.bad.drop (c.1 - p.addr)).take c.2 } ag (p.va + BitVec.ofNat 64 (c.1 - p.addr))
      some (acc.1 ++ [id], acc.2.send die { msgid := id, dest := p.node, owner := owner, kind := kPWRITE, part := p.part
                                            addr := c.1, len := c.2, va := p.va, flits := fs })) ([], s)

/-- An atomic at a peer: one PATOM flit with func10 of R38; that of a CAS has a third word, the comparand, which tells it
from an AMO (R132; DEDUCED, assumption log 21). -/
def State.atomPeer (s : State) (die : Nat) (owner : Owner) (p : Piece) (op : AmoOp) (n : Nat) (order : BitVec 3)
    (x y : Dword) (ag : Option Agent := none) : Option (Nat × State) :=
  if s.unacked die p.node p.addr p.len then none
  else match (s.die die).freeMsg with
  | none => none
  | some id =>
    let func : Dword := place (if op == .cas then 0 else op.code) 6 ||| place (if n = 8 then 1 else 0) 5 |||
      place order.toNat 2
    let words := if op == .cas then [func, x, y] else [func, x]
    let f := { s.flit die p.node (s.fpid p.part.toNat) kPATOM id 0 true (p.addr / 8) words with
               key := p.key, am := p.am, enable := place (p.addr % 8) 1, sender := ag, va := p.va }
    some (id, s.send die { msgid := id, dest := p.node, owner := owner, kind := kPATOM, part := p.part
                           addr := p.addr, len := p.len, va := p.va, fault := p.fault, flits := [f] })

/-- The XLATREQ of a range (R132). -/
def State.xlatFlit (s : State) (die msgid : Nat) (g : Range) : Flit :=
  s.flit die g.dest (s.fpid g.part.toNat) kXLATREQ msgid 0 true 0
    [g.va, place (g.len - 1) 0 ||| place (if g.write then 1 else 0) 12 ||| place g.dcore 13 ||| place g.tag 21 |||
        place g.action 37 ||| place g.vf 40, place g.pasid.toNat 0 ||| place g.score 20]

/-- A range of a VA at its node, among the byte numbers by which R140 compares accesses: above every DPA. -/
def Range.bytes (g : Range) : Nat × Nat :=
  (2 ^ 64 * (1 + (g.part.toNat * 2 ^ 8 + g.vf) * 2 ^ 20 + g.pasid.toNat) + g.va.toNat, g.len)

/-- A range of at most 4096 bytes asked for; `after` makes its flits from its identifier. With a status that its source
has found, its destination is asked for its own checks alone (R439, assumption log 51). -/
def State.askRange (s : State) (die : Nat) (owner : Owner) (g : Range) (after : Nat → List Flit)
    (status : BitVec 8 := 0) : Option (Nat × State) :=
  match (s.die die).freeMsg with
  | none => none
  | some id => some (id, s.send die
      { msgid := id, dest := g.dest, owner := owner, kind := if g.write then kPWRITE else kPREAD, part := g.part
        addr := 0, len := g.len, va := g.va, flits := [s.xlatFlit die id g], after := after id
        range := true, covers := [g.bytes], asked := true, status := status })

/-- The flits of a translated range, read or written (R133). -/
def State.rangeReads (s : State) (die : Nat) (g : Range) (id : Nat) : List Flit :=
  s.readFlits die g.dest (s.fpid g.part.toNat) 0 false true id 0 g.len
def State.rangeWrites (s : State) (die : Nat) (g : Range) (ag : Agent) (bs : List Byte) (id : Nat) : List Flit :=
  s.writeFlits die g.dest (s.fpid g.part.toNat) 0 false true id 0 bs {} (some ag)

/-- What the transfers in flight are writing at peers, but one transfer of a core (R237). -/
def State.landing (s : State) (core n : Nat) : List Piece :=
  s.cores.flatMap fun p => (p.2.xfers.zipIdx.filter fun x => x.1.sent && !x.1.done && !(p.1 == core && x.2 == n)).flatMap fun x =>
    x.1.outs.flatMap (·.pieces)

/-- Whether pieces hold a byte of another list of pieces. -/
def piecesMeet (ps qs : List Piece) : Bool := ps.any fun p => qs.any fun q =>
  p.place == q.place && decide (p.addr < q.addr + q.len) && decide (q.addr < p.addr + p.len)

/-- A read of a transfer's range does not see what another transfer in flight writes (R237). -/
def State.unsettled (s : State) (r : Request) : Bool :=
  r.kind == kPREAD && r.covered.any fun c => (s.landing 1024 0).any fun q =>
    q.place == .hbm r.dest.toNat && decide (c.1 < q.addr + q.len) && decide (q.addr < c.1 + c.2)

/-- The flits of translated ranges put among the candidates, once no earlier write to their bytes is out (R140). -/
def State.startReady (s : State) (die : Nat) : State :=
  let reqs := (s.die die).reqs
  reqs.foldl (fun s r =>
    if r.ready && !s.unsettled r && !(reqs.takeWhile fun q => q.msgid != r.msgid).any fun q => q.blocks r.dest r.covered then
      (s.mapReq die r.msgid fun r => { r with flits := r.after, after := [], ready := false }).mapDie die fun d =>
        { d with formed := d.formed ++ r.after }
    else s) s

/-- A translated range that may send its flits, their answers now awaited by another owner. -/
def State.startRange (s : State) (die msgid : Nat) (owner : Owner) : State :=
  (s.mapReq die msgid fun r => { r with flits := [], owner := owner, ready := true }).startReady die

/-- The entry that a range has at a die of this package. -/
def State.rangeEntry (s : State) (die : Nat) (r : Request) : Option Cullet :=
  (s.dieOfNode r.dest.toNat).bind fun d => (s.die d).cullet.find? fun c =>
    c.src.toNat == s.nodeOf die && c.msgid.toNat == r.msgid && c.range.isSome

/-! ### The end of a command (R302, R400) -/

/-- The result element of a command. -/
def resultOf (status : BitVec 8) (header : Dword) (info : Nat) : Dword :=
  place status.toNat 56 ||| place (bits header 63 56) 48 ||| place (bits header 47 32) 32 ||| place (info % 2 ^ 32) 0

/-- A command ends: its result is pushed where RES asks for one; else an error is reported as a record. -/
def State.endCommand (s : State) (k port : Nat) (header pc : Dword) (job : Nat) (status : BitVec 8) (info : Nat) : State :=
  if header.getLsbD 31 then
    let c := s.coreAt k
    let p := vget c.ports {} port
    s.putCore k { c with ports := vset c.ports port { p with results := p.results ++ [resultOf status header info] } }
  else if status = 0 then s
  else s.async k { syn := arsyn 3 status.toNat 0 port, addr := pc, det := place (bits header 47 32) 0, job := job }

/-- The number of a stack-side table. -/
def stackTable (chan part t : Nat) : Nat := (chan * 16 + part) * 8 + t

/-- The bytes of an image whose pieces at peers have come; the others are read here. -/
def imageBytes (ag : Agent) : List Piece → List (List Byte) → R (List Byte)
  | [], _ => return []
  | p :: rest, got => do
    if p.peer (← get) (dieOf ag.core) then return got.headD [] ++ (← imageBytes ag rest (got.drop 1))
    let bs ← readPiece ag p
    return bs ++ (← imageBytes ag rest got)

/-- A table image loaded into a stack-side unit: the STATUS of STAB (R222, R307). -/
def State.loadTable (s : State) (die key : Nat) (image : R (List Byte)) : BitVec 8 × State :=
  match image.run.run s with
  | (.error _, s) => (0x06, s)
  | (.ok bs, s) =>
    match FritTable.ofImage bs with
    | none => (0x09, s)
    | some t => (0, s.mapDie die fun d => { d with stackTables := Tab.set d.stackTables key t })

/-- A message of a taken command has ended, `unsent` of its flits never sent: the command ends with its last message
(R305). -/
def State.engineDone (s : State) (k port id : Nat) (status : BitVec 8) (unsent : Nat) (bs : List Byte) : State :=
  let c := s.coreAt k
  let p := vget c.ports {} port
  match p.active.find? fun a => a.waits.contains id with
  | none => s
  | some a =>
    let a' := { a with waits := a.waits.erase id, status := if a.status = 0 then status else a.status
                       count := a.count - unsent, got := a.got ++ [(id, bs)] }
    let rest := p.active.filter (· != a)
    if a'.waits.isEmpty then
      let s := s.putCore k { c with ports := vset c.ports port { p with active := rest } }
      let done : BitVec 8 × State := match a'.stab with
        | some (key, ps) =>
          if a'.status = 0 then
            s.loadTable (dieOf k) key (imageBytes { core := k, st := .x, pc := a.pc, job := a.job } ps
              (a'.ids.map fun i => Tab.get [] a'.got i))
          else (a'.status, s)
        | none => (a'.status, s)
      done.2.endCommand k port a'.header a'.pc a'.job done.1 a'.count
    else s.putCore k { c with ports := vset c.ports port { p with active := a' :: rest } }

/-! ### The end of a request -/

/-- The bytes that a read has brought. -/
def Request.bytes (r : Request) : List Byte :=
  let (_, n) := wordsOf r.addr r.len
  (((List.range n).flatMap fun i => leBytes 8 (Tab.get 0 r.words i).toNat).drop (r.addr % 8)).take r.len

/-- CODE of the memory-error record of a failed peer write (R138, R418). -/
def Request.code (r : Request) : Nat := if r.status = 0x0A then 0x0A else if r.cause = 0 then 0x10 else r.cause.toNat

/-- KIND of the memory-error record of a failed peer write: 2 where its seal was exhausted (R375, R400). -/
def Request.recordKind (r : Request) : Nat := if r.code = 0x20 then 2 else 1

/-- The answer to a read of a transfer noted at the one that waits under its number. -/
def answerAsk (id : Nat) (bs : List Byte) : List (Nat × Option (List Byte)) → List (Nat × Option (List Byte))
  | [] => []
  | a :: rest => if a.1 = id ∧ a.2.isNone then (id, some bs) :: rest else a :: answerAsk id bs rest

/-- A part of a transfer has been answered by a peer: its bytes, or its failure (R235, R418). -/
def State.xferAnswered (s : State) (k id : Nat) (r : Request) : State :=
  let c := s.coreAt k
  s.putCore k { c with xfers := c.xfers.map fun x =>
    if x.waits.contains id then
      { x with waits := x.waits.erase id
               asks := if r.kind == kPREAD then answerAsk id r.bytes x.asks else x.asks
               bad := if r.status = 0 ∨ x.bad.isSome then x.bad else some (r.recordKind, r.code, r.va) }
    else x }

/-- The trap of a word whose access at a peer failed, with the record of a seal fault, which names the tile (R374). -/
def Request.trap (r : Request) : Option Trap :=
  (peerTrap r.status r.cause r.va r.fault).map fun t => t.sealAt r.va r.dest.toNat (r.addr / 2048 * 2048)

/-! ### Accesses at peers of walks and of the system engine (R264) -/

/-- An access of a core at a peer, for one agent of it. -/
def Remote.is (r : Remote) (who : Nat) (use : Errand) (p : Piece) : Bool :=
  r.who == who && r.use == use && p.place == .hbm r.node && r.addr == p.addr

/-- The answers of an access, once all have come. -/
def Remote.answers (r : Remote) : Option (List Reply) := r.asks.mapM (·.2)

/-- The access of an agent that is out or answered. -/
def State.errand (s : State) (core who : Nat) (use : Errand) (p : Piece) : Option Remote :=
  (s.coreAt core).remote.find? (·.is who use p)

/-- An access sent, where it may go; one that is out stands. -/
def State.sendErrand (s : State) (core who : Nat) (use : Errand) (p : Piece) (send : State → Option (List Nat × State)) : State :=
  if (s.errand core who use p).isSome then s
  else match send s with
    | none => s
    | some (ids, s) =>
      let c := s.coreAt core
      s.putCore core { c with remote := c.remote ++ [
        { who := who, node := p.node.toNat, addr := p.addr, use := use, asks := ids.map (·, none) }] }

/-- What an agent's accesses have brought is used, and the agent begins afresh. -/
def State.dropErrands (s : State) (core who : Nat) : State :=
  let c := s.coreAt core
  s.putCore core { c with remote := c.remote.filter fun r => r.who != who || (r.use == .swap && r.answers.isNone) }

/-- The accesses of an agent at peers, each sent as it may go: their answers once all have come. -/
def State.errands (s : State) (core who : Nat) (use : Errand) (ps : List (Piece × (State → Option (List Nat × State)))) :
    Option (List (List Reply)) × State :=
  let s := ps.foldl (fun s p => s.sendErrand core who use p.1 p.2) s
  (ps.mapM fun p => (s.errand core who use p.1).bind (·.answers), s)

/-- The first STATUS among answers that is not 0. -/
def statusOf (l : List (List Reply)) : Option (BitVec 8) := (l.flatten.find? fun r => r.status != 0).map (·.status)

/-- The bytes of pieces for an engine, those at peers by requests: none while their answers are out, or the STATUS. -/
def State.fetchAll (s : State) (who : Nat) (ag : Agent) (ps : List Piece) : Except (Option (BitVec 8)) (List Byte) × State :=
  let die := dieOf ag.core
  match s.errands ag.core who .read ((ps.filter (·.peer s die)).map fun p => (p, fun s => s.readPeer die (.remote ag.core) p)) with
  | (none, s) => (.error none, s)
  | (some l, s) =>
    match statusOf l with
    | some status => (.error (some status), s)
    | none => match (imageBytes ag ps (l.map fun x => x.flatMap (·.bytes))).run.run s with
      | (.ok bs, s) => (.ok bs, s)
      | (.error _, s) => (.error (some 0x06), s)

/-- Bytes written to pieces for an engine, those at peers by requests, then the others: none while acknowledgements are out,
or the STATUS. -/
def State.storeAll (s : State) (who : Nat) (ag : Agent) (ps : List Piece) (bs : List Byte) : Option (BitVec 8) × State :=
  let die := dieOf ag.core
  let far := (offsets ps).filter fun o => o.2.peer s die
  match s.errands ag.core who .write (far.map fun o =>
      (o.2, fun s => s.writePeer die (.remote ag.core) o.2 ((bs.drop o.1).take o.2.len) {} (some ag))) with
  | (none, s) => (none, s)
  | (some l, s) =>
    match statusOf l with
    | some status => (some status, s)
    | none =>
      let near := (offsets ps).filter fun o => !o.2.peer s die
      match (near.forM fun o => writePiece ag o.2 ((bs.drop o.1).take o.2.len) : R Unit).run.run s with
      | (.ok _, s) => (some 0, s)
      | (.error _, s) => (some 0x06, s)

/-- The answer to an access of a walk or of ep4; that of a swap of AF ends it, and the walk reads the entry again (R357). -/
def State.remoteCame (s : State) (k : Nat) (r : Request) : State :=
  let c := s.coreAt k
  let reply : Reply := { status := r.status, trap := r.trap, bytes := r.bytes }
  let mine (x : Remote) : Bool := x.asks.any fun a => a.1 == r.msgid && a.2.isNone
  let answer (a : Nat × Option Reply) : Nat × Option Reply := if a.1 = r.msgid ∧ a.2.isNone then (a.1, some reply) else a
  let kept := c.remote.filter fun x => !(x.use == .swap && mine x)
  s.putCore k { c with remote := kept.map fun x => { x with asks := x.asks.map answer } }

/-- The answer to a prefetch: the line is brought in, unless an error allocates nothing (R291). -/
def State.aheadCame (s : State) (k : Nat) (r : Request) : State :=
  let c := s.coreAt k
  let rest := { c with ahead := c.ahead.filter fun a => a.id != r.msgid }
  match c.ahead.find? fun a => a.id == r.msgid with
  | some a => s.putCore k (if r.status = 0 then rest.addLine a.st { a.line with data := BitVec.ofNat 512 (leNat r.bytes) } else rest)
  | none => s

/-- A die's reshard to a destination changed. -/
def State.mapReshard (s : State) (die part dst : Nat) (f : Reshard → Reshard) : State :=
  s.mapDie die fun d => { d with reshards := d.reshards.map fun r =>
    if r.part = part ∧ r.dst = dst ∧ !r.closed then f r else r }

/-- A reshard that ends before its pieces have landed: nothing more of it is sent or lands (R321, R418). -/
def Reshard.ended (r : Reshard) (status : BitVec 8) : Reshard :=
  if r.arrived then r
  else { r with planned := true, untold := [], pieces := [], parts := [], out := [], status := if r.status = 0 then status else r.status }

/-- A die ends its reshard with a STATUS, and every other die of the package that took it with 0x07 (R321). -/
def State.endReshard (s : State) (die part dst : Nat) (status : BitVec 8) : State :=
  [0, 1, 2, 3].foldl (fun s d => s.mapReshard d part dst fun r => r.ended (if d = die then status else 0x07)) s

/-- A part of a piece has been acknowledged, or has failed: the piece then ends at its node. LINK-LOST and PEER-RESET are
errors of the node that sent it too (R138, R324, R418; assumption log 35). -/
def State.partDone (s : State) (die part dst n : Nat) (r : Request) : State :=
  let lost := r.status = 0x01 ∨ r.status = 0x0A
  let s := s.mapReshard die part dst fun x =>
    { x with out := x.out.filter fun o => o.1 != r.msgid
             status := if x.status = 0 ∧ lost then r.status else x.status }
  match s.dieOfNode r.dest.toNat with
  | some d => s.mapReshard d part dst fun x => { x with pieces := x.pieces.map fun p =>
      if p.number = n ∧ p.status = 0 then { p with status := r.status } else p }
  | none => s

/-- What the end of a request does for the one that waits for it. -/
def State.finish (s : State) (die : Nat) (r : Request) : State :=
  let unsent := r.after.length + ((s.die die).formed.filter fun f => f.msgid.toNat == r.msgid).length
  let s := s.mapDie die fun d => { d with reqs := d.reqs.filter fun q => q.msgid != r.msgid
                                          formed := d.formed.filter fun f => f.msgid.toNat != r.msgid }
  let s := s.startReady die
  match r.owner with
  | .sword k =>
    let c := s.coreAt k
    match c.waiting with
    | .peer pc ids got =>
      if ids.contains r.msgid then
        s.putCore k { c with waiting := .answered pc r.trap (got ++ [r.bytes]) }
      else s
    | _ => s
  | .fetch k st =>
    let c := s.coreAt k
    match vget c.fwait .none st.code with
    | .peer pc ids got =>
      if ids.contains r.msgid then
        s.putCore k { c with fwait := vset c.fwait st.code (.answered pc r.trap (got ++ [r.bytes])) }
      else s
    | _ => s
  | .store k =>
    let c := s.coreAt k
    let hit := c.stores.find? fun p => p.waits.contains r.msgid
    let stores := (c.stores.map fun p => { p with waits := p.waits.erase r.msgid }).filter fun p =>
      !(p.sent && p.waits.isEmpty)
    let s := s.putCore k { c with stores := stores }
    match hit with
    | some p =>
      if r.status = 0 then s
      else s.async k { syn := arsyn r.recordKind r.code 0 0, addr := p.pc, det := r.va, job := p.job }
    | none => s
  | .engine k port => s.engineDone k port r.msgid r.status unsent r.bytes
  | .xfer k => s.xferAnswered k r.msgid r
  | .xword k =>
    let c := s.coreAt k
    match c.xwait with
    | .peer pc ids got =>
      if !ids.contains r.msgid then s
      else if !r.asked then
        s.putCore k { c with xwait := .answered pc r.trap (got ++ [r.bytes]) }
      else s.putCore k { c with xwait := .answered pc (some (peerXlat r.status)) got }
    | _ => s
  | .ahead k => s.aheadCame k r
  | .remote k => s.remoteCame k r
  | .piece part dst n => s.partDone die part dst n r
  | .digest part dst => if r.status = 0 then s else s.endReshard die part dst r.status
  | .ctrl _ => s
  | .inval k => let c := s.coreAt k; s.putCore k { c with invals := c.invals.erase r.msgid }
where
  /-- The fault of X on a range that another node could not translate (R239, R366). -/
  peerXlat (status : BitVec 8) : Trap :=
    if status = 0x03 then { cls := 0x07 } else if status = 0x02 then { cls := 0x06 }
    else { cls := 0x0D, sub := if status = 0x0A then 2 else 1 }

/-- Capped flits of a request answered: CAPF falls by them (R137). -/
def State.returned (s : State) (die n : Nat) : State := s.mapDie die fun d => { d with capf := d.capf - n }

end Sys2Proof.Machine
end

