-- ==== Sys2Proof/Machine/Xlat.lean ====
section
/-! DEFINITION. Address translation: regions, the scratchpad window, the two-stage walk, the translation caches, ATS and
page requests, and the faults they record (R248 to R253, R352 to R366, R438). -/

namespace Sys2Proof.Machine

/-- Who translates: the core and stream, the AGENT code, the access, and the context (R351, R365). -/
structure Req where
  core : Nat
  st : Stream
  agent : Nat
  acc : Acc
  pl : BitVec 2
  part : BitVec 4
  vf : Nat
  pasid : BitVec 20
  die : Nat
  second : Bool := false
  /-- A prefetch, which sets no accessed bit and asks for no page (R252, R357). -/
  pref : Bool := false
  /-- The walk of a fetch that may still fail, which sets no accessed bit (R433). -/
  dry : Bool := false
  deriving DecidableEq, Repr

/-- ACC codes (R365). -/
def Acc.code : Acc → Nat
  | .load => 0
  | .store => 1
  | .atomic => 2
  | .fetch => 3
  | .xread => 4
  | .xwrite => 5
  | .smvRead => 6

/-- FSYN (R365). -/
def Req.fsyn (q : Req) (cause stage : Nat) (walk : Bool) (level wlevel : Nat) : Dword :=
  place q.agent 28 ||| place cause 24 ||| place stage 22 ||| place (if walk then 1 else 0) 21 ||| place level 18 |||
    place wlevel 15 ||| place (if q.second then 1 else 0) 14 ||| place q.acc.code 11 ||| place q.pl.toNat 9

/-- A fault of an access, with its record; a failing fetch is class 0x03 whatever failed (R391, R433). -/
def Req.fault (q : Req) (cls : BitVec 8) (va : Dword) (cause stage : Nat) (walk : Bool := false) (level : Nat := 0)
    (wlevel : Nat := 0) (ipa : Nat := 0) : Trap where
  cls := if q.acc == .fetch then 0x03 else cls
  toPl2 := stage == 2
  noWord := q.acc == .fetch
  syn := some { fsyn := q.fsyn cause stage walk level wlevel, fva := va, fipa := place ipa 0, bank2 := stage == 2 }

/-- The address fault of R248, R249 and R438. -/
def Req.address (q : Req) (va : Dword) : Trap := q.fault 0x04 va 4 0

/-- What an access requires of the permission bits R, W, X (R252). -/
def Acc.allowed (a : Acc) (r w x : Bool) : Bool :=
  match a with
  | .load => r
  | .xread => r
  | .smvRead => r
  | .store => w
  | .xwrite => w
  | .atomic => r && w
  | .fetch => x

/-- The level of U a fetch or an access at a privilege level requires (R252). -/
def Req.userOk (q : Req) (u : Bool) : Bool :=
  if q.pl = 0 then u else if q.acc == .fetch then !u else true

/-- The stronger of two kinds (R251). -/
def Kind.stronger : Kind → Kind → Kind
  | .so, _ => .so
  | _, .so => .so
  | .rc, _ => .rc
  | _, .rc => .rc
  | _, _ => .uo

/-- KIND of a leaf (R353); 3 is refused before. -/
def Kind.ofCode (n : Nat) : Kind := if n = 2 then .so else if n = 1 then .rc else .uo

/-! ### Tables -/

/-- Where a walk finds an entry: a node and an address in its domain, the owner of the tile (stage-2 tables are read under
whatever owner their tile has, R438), and the fault of an address that names no tile (R354). -/
structure EntryAt where
  node : Nat
  dpa : Nat
  part : BitVec 4
  key : BitVec 4
  anyOwner : Bool
  absent : Trap
  deriving DecidableEq, Repr

/-- The piece by which a walk for an address reads or updates an entry, outside the L1s. -/
def EntryAt.piece (a : EntryAt) (va : Dword) : Piece where
  va := va
  place := .hbm a.node
  addr := a.dpa
  len := 8
  kind := .rc
  l1 := false
  am := false
  part := a.part
  key := a.key
  anyOwner := a.anyOwner

/-- The agent of a walk's accesses. -/
def Req.walker (q : Req) : Agent := { core := q.core, st := .x, pc := 0 }

/-- One entry read as a whole (R358): on the walker's own die at its point, elsewhere by a request to its node (R264). A walk
waits for the answer, and while its own update of the entry is out; a prefetch goes no further (assumption log 15). -/
def readEntry (q : Req) (va : Dword) (a : EntryAt) : M Dword := do
  let s ← get
  let p := a.piece va
  if ((s.dieOfNode a.node).any fun d => ((s.die d).placeOf a.dpa).isNone) then M.trap a.absent
  if !p.peer s q.die then
    let bs ← liftR va (readPiece q.walker p)
    return BitVec.ofNat 64 (leNat bs)
  if q.pref || (s.errand q.core q.agent .swap p).isSome then M.hold (.device 12)
  match s.errands q.core q.agent .read [(p, fun s => s.readPeer q.die (.remote q.core) p)] with
  | (some [[r]], s) => do
    set s
    match r.trap with
    | none => return BitVec.ofNat 64 (leNat r.bytes)
    | some t => M.trap (if r.status = 0x02 then a.absent else t)
  | (_, s) => do
    set s
    M.keep (.device 12)

/-- AF set in an entry that still holds what the walk read, by a compare-and-swap at its point; at a peer the walk reads the
entry again once that is answered, which is the restart of a swap that has failed (R357). -/
def setAccessed (q : Req) (va : Dword) (a : EntryAt) (ent : Dword) : M Unit := do
  if ent.getLsbD 3 || q.dry then return ()
  if q.pref then M.trap { cls := 0x06 }
  let s ← get
  let p := a.piece va
  if !p.peer s q.die then liftR 0 (writePiece q.walker p (leBytes 8 (ent ||| 8).toNat))
  else do
    set ((s.dropErrands q.core q.agent).sendErrand q.core q.agent .swap p fun s =>
      (s.atomPeer q.die (.remote q.core) p .cas 8 0 (ent ||| 8) ent (some q.walker)).map fun x => ([x.1], x.2))
    M.keep (.device 12)

/-- What the checks of R354 find in an entry of a stage. -/
inductive EntryIs where
  | invalid
  | malformed
  | table (next : Nat)
  | leaf (base : Nat)
  deriving DecidableEq, Repr

/-- An entry at a level, its reserved bits given by the stage (R353, R354). -/
def entryIs (stage level : Nat) (e : Dword) : EntryIs :=
  if !e.getLsbD 0 then .invalid
  else if level < 3 ∧ e.getLsbD 1 then
    if e &&& 0xFFFF00000000FFFC#64 = 0 then .table (bits e 47 16 * 65536) else .malformed
  else if level < 2 then .malformed
  else if level = 3 ∧ !e.getLsbD 1 then .malformed
  else if e &&& (if stage = 1 then 0x00FF00000000F804#64 else 0x000000000000F014#64) ≠ 0 then .malformed
  else if bits e 9 8 = 3 then .malformed
  else if level = 2 ∧ bits e 28 16 ≠ 0 then .malformed
  else .leaf (bits e 47 16 * 65536)

/-- The result of stage 2: node, physical address, the leaf and its level. -/
structure Stage2 where
  node : Nat
  dpa : Nat
  ent : Dword
  level : Nat
  deriving DecidableEq, Repr

/-- The index of an IPA at a level of stage 2 (R352). -/
def ipaIndex (ipa level : Nat) : Nat :=
  if level = 1 then ipa / 2 ^ 42 % 64 else if level = 2 then ipa / 2 ^ 29 % 8192 else ipa / 2 ^ 16 % 8192

/-- Stage2(ipa, walk, wlevel) of R356, from a table at a level. -/
def stage2From (q : Req) (va : Dword) (ipa : Nat) (walk : Bool) (wlevel : Nat) : Nat → Nat → Nat → M Stage2
  | 0, _, _ => M.trap (q.fault 0x06 va 2 2 walk 3 wlevel ipa)
  | f + 1, level, t => do
    let a : EntryAt := { node := (← get).nodeOf q.die, dpa := t + 8 * ipaIndex ipa level, part := 0, key := 0
                         anyOwner := true, absent := q.fault 0x06 va 5 2 walk level wlevel ipa }
    let e ← readEntry q va a
    match entryIs 2 level e with
    | .invalid => M.trap (q.fault 0x06 va 0 2 walk level wlevel ipa)
    | .malformed => M.trap (q.fault 0x06 va 2 2 walk level wlevel ipa)
    | .table next => stage2From q va ipa walk wlevel f (level + 1) next
    | .leaf base =>
      let ok := if walk then e.getLsbD 5 else q.acc.allowed (e.getLsbD 5) (e.getLsbD 6) (e.getLsbD 7)
      if !ok then M.trap (q.fault 0x07 va 1 2 walk level wlevel ipa)
      setAccessed q va a e
      let size := if level = 2 then 2 ^ 29 else 65536
      modify fun s => s.addBench (q.core / 16) (.stage2 q.part (ipa - ipa % size) size (bits e 63 52) base e level false)
      return { node := bits e 63 52, dpa := base + ipa % size, ent := e, level := level }

/-- The stage-2 page of an IPA that the bench's TLB holds (R359). -/
def State.stage2Find (s : State) (q : Req) (ipa : Nat) : Option Stage2 :=
  (Tab.get [] s.bench (q.core / 16)).findSome? fun b => match b with
    | .stage2 part i size node dpa ent level _ =>
      if part = q.part ∧ i ≤ ipa ∧ ipa < i + size then
        some { node := node, dpa := dpa + (ipa - i), ent := ent, level := level }
      else none
    | _ => none

/-- Stage2(ipa, walk, wlevel) of R356, from the bench's TLB where that holds the page. -/
def stage2 (q : Req) (va : Dword) (ipa : Nat) (walk : Bool) (wlevel : Nat) : M Stage2 := do
  match (← get).stage2Find q ipa with
  | some w => do
    let ok := if walk then w.ent.getLsbD 5 else q.acc.allowed (w.ent.getLsbD 5) (w.ent.getLsbD 6) (w.ent.getLsbD 7)
    if !ok then M.trap (q.fault 0x07 va 1 2 walk w.level wlevel ipa)
    return w
  | none => pure ()
  let root := vget ((← get).die q.die).ps2root 0 q.part.toNat
  if !root.getLsbD 0 then M.trap (q.fault 0x06 va 0 2 walk 1 wlevel ipa)
  stage2From q va ipa walk wlevel 3 1 (bits root 47 16 * 65536)

/-- The stage-1 entry at an IPA, reached through stage 2 (R352, R356); an entry at no tile is a physical-address fault of
that stage 2 (R354). -/
def tableEntry (q : Req) (va : Dword) (ipa wlevel : Nat) : M EntryAt := do
  let w ← stage2 q va ipa true wlevel
  return { node := w.node, dpa := w.dpa, part := q.part, key := BitVec.ofNat 4 (bits w.ent 51 48), anyOwner := false
           absent := q.fault 0x06 va 5 2 true w.level wlevel ipa }

/-- The index of a VA at a level of stage 1 (R352). -/
def vaIndex (va : Dword) (level : Nat) : Nat :=
  if level = 0 then bits va 55 55 else if level = 1 then bits va 54 42 else if level = 2 then bits va 41 29 else bits va 28 16

/-- The VA bits above the index of a stage-1 table, by which the table is known (R352, R359). -/
def tableTag (va : Dword) (level : Nat) : Nat :=
  va.toNat / 2 ^ (if level = 0 then 56 else if level = 1 then 55 else if level = 2 then 42 else 29)

/-- A stage-1 table that a walk has reached is kept by the bench's TLB (R359). -/
def State.addTable (s : State) (q : Req) (va : Dword) (level ipa : Nat) : State :=
  s.addBench (q.core / 16) (.table q.part q.vf q.pasid level (tableTag va level) ipa false)

/-- The stage-1 table nearest to the leaf of a VA that the bench's TLB holds: its level and its IPA. -/
def State.tableFind (s : State) (q : Req) (va : Dword) : Option (Nat × Nat) :=
  [3, 2, 1, 0].findSome? fun l => (Tab.get [] s.bench (q.core / 16)).findSome? fun b => match b with
    | .table part vf pasid level tag ipa _ =>
      if part = q.part ∧ vf = q.vf ∧ pasid = q.pasid ∧ level = l ∧ tag = tableTag va l then some (l, ipa) else none
    | _ => none

/-- Stage 1 of Walk(VA, access) of R356: the leaf, its level and the IPA of the address. -/
def stage1From (q : Req) (va : Dword) : Nat → Nat → Nat → M (Dword × Nat × Nat)
  | 0, _, _ => M.trap (q.fault 0x06 va 2 1 false 3)
  | f + 1, level, t => do
    let ipa := t + 8 * vaIndex va level
    let a ← tableEntry q va ipa level
    let e ← readEntry q va a
    match entryIs 1 level e with
    | .invalid => M.trap (q.fault 0x06 va 0 1 false level)
    | .malformed => M.trap (q.fault 0x06 va 2 1 false level)
    | .table next => do
      modify fun s => s.addTable q va (level + 1) next
      stage1From q va f (level + 1) next
    | .leaf base =>
      if !(q.acc.allowed (e.getLsbD 5) (e.getLsbD 6) (e.getLsbD 7) && q.userOk (e.getLsbD 4)) then
        M.trap (q.fault 0x07 va 1 1 false level)
      setAccessed q va a e
      return (e, level, base + va.toNat % (if level = 2 then 2 ^ 29 else 65536))

/-- The stage-1 root of a context (R355). -/
def contextRoot (q : Req) (va : Dword) : M Nat := do
  let ctb := ((← get).fn q.vf).s1ctb
  if q.pasid.toNat ≥ 4096 ∨ !ctb.getLsbD 0 then M.trap (q.fault 0x06 va 3 1 false 7)
  let ipa := bits ctb 47 16 * 65536 + 16 * (q.pasid.toNat % 4096)
  let a ← tableEntry q va ipa 7
  let w0 ← readEntry q va a
  let w1 ← readEntry q va { a with dpa := a.dpa + 8 }
  if !w0.getLsbD 0 then M.trap (q.fault 0x06 va 3 1 false 7)
  if w0 &&& 0xFFFF00000000FFFE#64 ≠ 0 ∨ w1 ≠ 0 then M.trap (q.fault 0x06 va 2 1 false 7)
  return bits w0 47 16 * 65536

/-! ### Translation caches (R359 to R361) -/

/-- The TLB that an agent has of its own: S, with its fetches, and X, with its; the fetches of M and V and the engines use
the bench's alone (R17, R359; assumption log 49). -/
def Req.own (q : Req) : Option Stream :=
  if q.agent = 0 ∨ q.agent = 2 then some .s else if q.agent = 1 ∨ q.agent = 3 then some .x else none

/-- The entries of an agent's own TLB. -/
def State.ownEntries (s : State) (q : Req) : List TlbEntry :=
  match q.own with
  | some .s => (s.coreAt q.core).tlb
  | some .x => (s.coreAt q.core).xtlb
  | _ => []

/-- An entry put into an agent's own TLB, of 256 or 512, which drops its oldest. -/
def State.addOwn (s : State) (q : Req) (e : TlbEntry) : State :=
  let c := s.coreAt q.core
  match q.own with
  | some .s => s.putCore q.core { c with tlb := (e :: c.tlb).take 256 }
  | some .x => s.putCore q.core { c with xtlb := (e :: c.xtlb).take 512 }
  | _ => s

/-- A device-half entry serves a VA of a context. -/
def TlbEntry.serves (e : TlbEntry) (q : Req) (va : Dword) : Bool :=
  e.part == q.part && e.vf == q.vf && e.pasid == q.pasid && !e.host &&
    decide (e.va.toNat ≤ va.toNat) && decide (va.toNat < e.va.toNat + e.size)

/-- The cached translation that a test accepts: the agent's own, or the bench's, which its own TLB then takes. -/
def State.lookup (s : State) (q : Req) (ok : TlbEntry → Bool) : Option (TlbEntry × State) :=
  match (s.ownEntries q).find? ok with
  | some e => some (e, s)
  | none => ((s.benchEntries (q.core / 16)).find? ok).map fun e => (e, s.addOwn q e)

/-- The steps of a walk: the combined entry, placed in the TLBs of the agent and of the bench (R356, R357). -/
def walkSteps (q : Req) (va : Dword) : M TlbEntry := do
  let at0 ← (match (← get).tableFind q va with
    | some x => pure x
    | none => do
      let root ← contextRoot q va
      modify fun s => s.addTable q va 0 root
      pure (0, root) : M (Nat × Nat))
  let (e1, l1, ipa) ← stage1From q va (4 - at0.1) at0.1 at0.2
  let w ← stage2 q va ipa false 0
  let size := if l1 = 2 ∧ w.level = 2 then 2 ^ 29 else 65536
  let off := va.toNat % size
  let ent : TlbEntry := {
    part := q.part, vf := q.vf, pasid := q.pasid, va := va - BitVec.ofNat 64 off, size := size
    ipa := some (ipa - off), node := w.node, dpa := w.dpa - off, host := false, marked := false
    attr := {
      r1 := e1.getLsbD 5, w1 := e1.getLsbD 6, x1 := e1.getLsbD 7, u := e1.getLsbD 4
      r2 := w.ent.getLsbD 5, w2 := w.ent.getLsbD 6, x2 := w.ent.getLsbD 7
      kind := (Kind.ofCode (bits e1 9 8)).stronger (Kind.ofCode (bits w.ent 9 8))
      c := e1.getLsbD 10 && w.ent.getLsbD 10, am := w.ent.getLsbD 11
      key := BitVec.ofNat 4 (bits w.ent 51 48), lvl1 := l1, lvl2 := w.level } }
  modify fun s => (s.addBench (q.core / 16) (.combined ent)).addOwn q ent
  return ent

/-- A walk, which keeps what peers have answered until it ends. -/
def walk (q : Req) (va : Dword) : M TlbEntry := do
  match (walkSteps q va).run.run (← get) with
  | (.ok e, s) => set (s.dropErrands q.core q.agent); return e
  | (.error (.trap t), s) => set (s.dropErrands q.core q.agent); M.trap t
  | (.error h, s) => set s; throw h

/-- The piece that a combined entry gives, with the permission and physical-address checks (R251 to R257, R354). -/
def entryGives (q : Req) (e : TlbEntry) (va : Dword) (len : Nat) : M Piece := do
  let a := e.attr
  let dpa := e.dpa + (va - e.va).toNat
  let ipa := e.ipa.getD 0 + (va - e.va).toNat
  if !(q.acc.allowed a.r1 a.w1 a.x1 && q.userOk a.u) then M.trap (q.fault 0x07 va 1 1 false a.lvl1)
  if !q.acc.allowed a.r2 a.w2 a.x2 then M.trap (q.fault 0x07 va 1 2 false a.lvl2 0 ipa)
  let s ← get
  let known := match s.dieOfNode e.node with
    | some d => (s.die d).hasBytes dpa len
    | none => decide (dpa < 2 ^ 38)
  if !known then M.trap (q.fault 0x06 va 5 2 false a.lvl2 0 ipa)
  let here := e.node == s.nodeOf q.die
  return { va := va, place := .hbm e.node, addr := dpa, len := len, kind := a.kind
           l1 := here && isIL dpa && !a.am && a.c && a.kind != .so
           am := a.am, part := q.part, key := a.key, anyOwner := false
           fault := (q.fsyn 5 2 false a.lvl2 0, place ipa 0) }

/-! ### The host half (R250, R362 to R364) -/

/-- What a stream waits for beyond its core. -/
def Core.waitOf (c : Core) (st : Stream) : Waiting := if st = .s then c.waiting else c.xwait

/-- The same, changed. -/
def Core.setWait (c : Core) (st : Stream) (w : Waiting) : Core :=
  if st = .s then { c with waiting := w } else { c with xwait := w }

/-- A list in pieces of at most `n`. -/
def piecesOf (n : Nat) : Nat → List Nat → List (List Nat)
  | 0, _ => []
  | _, [] => []
  | f + 1, l => l.take (max n 1) :: piecesOf n f (l.drop (max n 1))

/-- The pages that the word at `pc` has asked for. -/
def Waiting.pagesAt (w : Waiting) (pc : Dword) : List PageWait := match w with
  | .page p l => if p = pc then l else []
  | _ => []

/-- The pages that the words of a core have asked for, changed. -/
def Core.rewait (c : Core) (f : PageWait → PageWait) : Core :=
  let g (w : Waiting) : Waiting := match w with | .page pc l => .page pc (l.map f) | w => w
  { c with waiting := g c.waiting, xwait := g c.xwait }

/-- A group closed: its pages in order, cut where they pass the whole allowance; accesses follow their pages. It stands
behind the groups that closed before it, and one that is closed already keeps its place. -/
def State.closeGroup (s : State) (g : Group) : State :=
  let parts := piecesOf (s.fn g.fn).allowance 16 (sortBy (fun a b => decide (a ≤ b)) g.pages)
  let idOf (i : Nat) : Nat := if i = 0 then g.id else s.nextGroup + i - 1
  let new := parts.zipIdx.map fun p => { g with pages := p.1, closed := true, id := idOf p.2 }
  let turn (c : Core) : Core := c.rewait fun w =>
    if w.group = some g.id then { w with group := some (idOf ((parts.findIdx? fun l => l.contains w.page).getD 0)) } else w
  { s with
    groups := if g.closed then s.groups.flatMap (fun x => if x.id = g.id then new else [x])
      else s.groups.filter (fun x => x.id != g.id) ++ new
    nextGroup := s.nextGroup + (parts.length - 1)
    cores := s.cores.map (fun (p : Nat × Core) => (p.1, turn p.2)) }

/-- The groups that opened 256 cycles ago close, in the order in which they opened (R363). -/
def State.closeDue (s : State) : State :=
  (s.groups.filter fun g => !g.closed && decide (g.opened.toNat + 256 ≤ s.kiln.toNat)).foldl State.closeGroup s

/-- An access opens a page request group or joins the open one of its function, PASID and 2 MiB region (R363). -/
def State.askPage (s : State) (fn : Nat) (pasid : Option (BitVec 20)) (va : Nat) : Nat × State :=
  let s := s.closeDue
  let same (g : Group) : Bool := g.fn == fn && g.pasid == pasid && g.region == va / 2 ^ 21 && !g.closed
  match s.groups.find? same with
  | some g =>
    let pages := if g.pages.contains (va / 4096) then g.pages else g.pages ++ [va / 4096]
    let g' := { g with pages := pages }
    let s := { s with groups := s.groups.map fun x => if x.id = g.id then g' else x }
    if pages.length < 16 then (g.id, s)
    else
      let s := s.closeGroup g'
      let mine := s.groups.find? fun x => same { x with closed := false } && x.index.isNone && x.pages.contains (va / 4096)
      ((mine.map (·.id)).getD g.id, s)
  | none =>
    let g : Group := { fn := fn, pasid := pasid, region := va / 2 ^ 21, pages := [va / 4096], opened := s.kiln
                       closed := false, index := none, id := s.nextGroup }
    (g.id, { s with groups := s.groups ++ [g], nextGroup := s.nextGroup + 1 })

/-- A host-half access of at most one 4 KiB page. One that waits on a page request group goes on with the group's response
alone, whatever the host grants meanwhile (R250, R363, R364). -/
def hostPiece (q : Req) (va : Dword) (len : Nat) : M Piece := do
  let fn := if q.pl = 2 then physFn else q.vf
  let pasid := if q.pl = 2 then none else some q.pasid
  let s ← get
  let w := q.acc == .store || q.acc == .xwrite || q.acc == .atomic
  let r := q.acc != .store && q.acc != .xwrite
  let c := s.coreAt q.core
  let pc := c.pcOf q.st
  let piece (h : Nat) : Piece := {
    va := va, place := .host fn, addr := h, len := len, kind := .rc, l1 := false, am := false
    part := q.part, key := 0, anyOwner := false }
  if !s.reachable q.die (s.nodeOf (portDie fn)) then M.hold (.device 12)
  let asks (s : State) : List PageWait := if q.pref then [] else ((s.coreAt q.core).waitOf q.st).pagesAt pc
  match (asks s).find? fun x => x.page == va.toNat / 4096 with
  | some x =>
    if x.group.isSome then M.hold (.device 12)
    if x.cause ≠ 0 then M.trap (q.fault 0x06 va x.cause 3)
  | none => pure ()
  match s.lookup q (·.hostServes q.part fn pasid va.toNat r w) with
  | some (e, s) =>
    set s
    return piece (e.dpa + va.toNat % 4096)
  | none => pure ()
  let a := s.granted fn pasid va.toNat w
  let a' := if r then s.granted fn pasid va.toNat false else a
  match a, a' with
  | some h, some _ =>
    let e := hostEntry q.part fn pasid va.toNat h r w
    set ((s.addBench (q.core / 16) (.combined e)).addOwn q e)
    return piece h
  | _, _ =>
    if q.pref then M.trap (q.fault 0x06 va 6 3)
    let f := s.fn fn
    if f.priStopped then M.trap (q.fault 0x06 va 7 3)
    if !f.priOn ∨ f.allowance = 0 then M.trap (q.fault 0x06 va 6 3)
    let (g, s) := s.askPage fn pasid va.toNat
    set (s.putCore q.core ((s.coreAt q.core).setWait q.st (.page pc
      ((asks s).filter (fun x => x.page != va.toNat / 4096) ++ [{ page := va.toNat / 4096, group := some g }]))))
    M.keep (.device 12)

/-! ### Any address -/

/-- The core and offset a window address names, where R249 maps it. -/
def windowOf (va : Dword) : Option (Nat × Nat) :=
  if va.toNat / 2 ^ 30 = 0xFFFFFF0000000000 / 2 ^ 30 then
    some (bits va 29 27 * 128 + bits va 26 20, bits va 19 0)
  else none

/-- A worker core of a bench that a partition owns; a retired core is none (R12, R249, R422). -/
def State.owns (s : State) (part : BitVec 4) (core : Nat) : Bool :=
  core % 256 != 0 && (s.part part.toNat).pbench.getLsbD (core / 16) && !(s.coreAt core).retired

/-- Whether bits [63:57] of an address are equal (R248). -/
def canonical (va : Dword) : Bool := bits va 63 57 == 0 || bits va 63 57 == 127

/-- Whether an address is one that an access may name at all (R248, R249, R438). -/
def State.addressOk (s : State) (q : Req) (va : Dword) : Bool :=
  canonical va &&
    (if bits va 63 56 = 0xFF then
      match windowOf va with
      | none => false
      | some (core, _) =>
        q.acc != .fetch && !(q.st == .s && core / 128 != q.core / 128) && s.owns q.part core
    else q.pl != 2 || bits va 63 56 != 0xFE || bits va 55 48 == 0)

/-- Translate the part of an access that lies in one page (R248 to R253, R356, R438). -/
def translate (q : Req) (va : Dword) (len : Nat) : M Piece := do
  if !(← get).addressOk q va then M.trap (q.address va)
  let top := bits va 63 56
  if top ≤ 1 then
    if q.acc == .fetch then M.trap (q.fault 0x03 va 1 3)
    hostPiece q va len
  else if top = 0xFF then
    match windowOf va with
    | none => M.trap (q.address va)
    | some (core, off) =>
      return { va := va, place := .scratch core, addr := off, len := len, kind := .rc, l1 := false, am := false
               part := q.part, key := 0, anyOwner := false }
  else if q.pl = 2 then
    let dpa := bits va 47 0
    let s ← get
    if !(s.die q.die).hasBytes dpa len then M.trap (q.fault 0x06 va 5 2)
    return { va := va, place := .hbm (s.nodeOf q.die), addr := dpa, len := len, kind := .rc
             l1 := isIL dpa && q.st == .s, am := false, part := q.part, key := 0, anyOwner := true }
  else
    match (← get).lookup q (·.serves q va) with
    | some (e, s) => do
      set s
      entryGives q e va len
    | none => let e ← walk q va; entryGives q e va len

/-- The page size within which one piece lies: 4 KiB in the host half, 1 MiB of one core in the window, else 64 KiB. -/
def pageOf (va : Dword) : Nat :=
  if bits va 63 56 ≤ 1 then 4096 else if bits va 63 56 = 0xFF then 2 ^ 20 else 65536

/-- The pieces of an access, every one translated before any is performed (R273, R285 step 4). A permission fault of one
page comes after the translation faults of the pages behind it (R285 step 5); behind a page of the host that waits, the
others ask for theirs (R363). -/
def translateParts (q : Req) : List (Nat × Nat) → Bool → M (List Piece)
  | [], _ => return []
  | (a, n) :: rest, second => do
    match (translate { q with second := second } (BitVec.ofNat 64 a) n).run.run (← get) with
    | (.ok p, s) => do
      set s
      let ps ← translateParts q rest true
      return p :: ps
    | (.error (.trap t), s) => do
      set s
      if t.cls = 0x07 then
        match (translateParts q rest true).run.run s with
        | (.error (.trap u), s') => do
          set s'
          M.trap (if u.cls = 0x07 then t else u)
        | (.error h, s') => do
          set s'
          throw h
        | (.ok _, s') => do
          set s'
          M.trap t
      else M.trap t
    | (.error h, s) => do
      if a / 2 ^ 56 ≤ 1 then
        set ((translateParts q rest true).run.run s).2
        M.keep (.device 12)
      else
        set s
        throw h

/-- Both ends of `n` bytes at `va` are addresses (R285, step 2). A far end that is none is in the second piece, which begins
at the next page (R365). -/
def checkEnds (q : Req) (va : Dword) (n : Nat) : M Unit := do
  let s ← get
  if !s.addressOk q va then M.trap (q.address va)
  if !s.addressOk q (va + BitVec.ofNat 64 (n - 1)) then
    M.trap ({ q with second := true }.address (BitVec.ofNat 64 ((va.toNat / pageOf va + 1) * pageOf va)))

/-- The pieces of `n` bytes at `va`: both ends are checked first, then alignment (R285, steps 2 to 5). -/
def translateAll (q : Req) (va : Dword) (n align : Nat) : M (List Piece) := do
  checkEnds q va n
  if va.toNat % align ≠ 0 then M.trap { cls := 0x05 }
  translateParts q (split (pageOf va) va.toNat n) false

/-- The request of a stream of a core under its own context. -/
def Core.req (c : Core) (k : Nat) (st : Stream) (acc : Acc) : Req where
  core := k
  st := st
  agent := if acc == .fetch then 2 + st.code else if st == .x then 1 else 0
  acc := acc
  pl := if st == .s then c.pl else 0
  part := c.part
  vf := c.vf.toNat
  pasid := c.pasid
  die := dieOf k

end Sys2Proof.Machine
end

