-- ==== Sys2Proof/Machine/Fetch.lean ====
section
/-! DEFINITION. The fetching of instructions: the four instruction caches, demand fetches and prefetches, and fetches from
a peer's memory (R17, R25, R264, R291, R432 to R434). -/

namespace Sys2Proof.Machine

/-- A fetch request of a stream; X, M and V run at PL0. -/
def Core.fetchReq (c : Core) (k : Nat) (st : Stream) : Req := { c.req k st .fetch with st := st }

/-- A line read for a fetch; one at a peer by a request (R264). -/
def lineBytes (k : Nat) (st : Stream) (va : Dword) (p : Piece) : M (List Byte) := do
  let s ← get
  let c := s.coreAt k
  if !p.peer s (dieOf k) then
    M.budgeted st [p] .read
    return (← liftR va (readPiece { core := k, st := .x, pc := va } p))
  let put (w : Waiting) (s : State) : State := let c := s.coreAt k; s.putCore k { c with fwait := vset c.fwait st.code w }
  match vget c.fwait .none st.code with
  | .peer pc _ _ => if pc = p.va then M.hold (.device 12)
  | .answered pc bad got =>
    if pc = p.va then
      modify (put .none)
      match bad with
      | some t => M.trap t
      | none => return got.flatten
  | _ => pure ()
  match s.readPeer (dieOf k) (.fetch k st) p with
  | none => M.hold (.device 12)
  | some (ids, s') => do
    set (put (.peer p.va ids []) s')
    M.keep (.device 12)

/-- The line of a piece that holds a fetched word. -/
def Piece.line (p : Piece) (va : Dword) : Piece :=
  { p with va := lineOf va, addr := p.addr - va.toNat % 64, len := 64, l1 := false }

/-- A fetch that fails sets no accessed bit: its walk is first made without, and leaves nothing in the TLBs (R357, R433). -/
def tryFetch (q : Req) (va : Dword) : M Unit := do
  let s ← get
  let kept (t : State) : State :=
    let c := s.coreAt q.core
    ({ t with bench := s.bench }).putCore q.core { t.coreAt q.core with tlb := c.tlb, xtlb := c.xtlb }
  match (translate { q with dry := true } va 4).run.run s with
  | (.ok _, _) => return ()
  | (.error e, t) => set (kept t); throw e

/-- A line that a demand fetch misses brought into a stream's instruction cache; one that a prefetch has requested is waited
for (R432, R433). -/
def fetchLine (k : Nat) (st : Stream) (va : Dword) : M FetchLine := do
  let c := (← get).coreAt k
  if c.ahead.any fun a => a.st == st && a.line.same (c.lineAt st va 0) then M.hold (.device 12)
  tryFetch (c.fetchReq k st) va
  let p ← translate (c.fetchReq k st) va 4
  let bs ← lineBytes k st va (p.line va)
  let l := c.lineAt st va (BitVec.ofNat 512 (leNat bs))
  modify fun s => s.putCore k ((s.coreAt k).addLine st l)
  return l

/-- A line that is not in a stream's cache requested ahead: read at once, or at a peer by a request (R264, R291, R432). -/
def requestLine (k : Nat) (st : Stream) (va : Dword) : M Unit := do
  let c := (← get).coreAt k
  let p := (← translate { c.fetchReq k st with pref := true } va 4).line va
  let s ← get
  if !p.peer s (dieOf k) then
    M.budgeted st [p] .read
    let bs ← liftR va (readPiece { core := k, st := .x, pc := va } p)
    modify fun s => s.putCore k ((s.coreAt k).addLine st (c.lineAt st va (BitVec.ofNat 512 (leNat bs))))
  else match s.readPeer (dieOf k) (.ahead k) p with
    | some ([id], s) => do
      let c' := s.coreAt k
      set (s.putCore k { c' with ahead := c'.ahead ++ [{ id := id, st := st, line := c.lineAt st va 0 }] })
    | _ => M.hold (.device 12)

/-- The traps that a prefetch drops: those of its address, its translation and its permissions (R252). -/
def Trap.dropsPrefetch (t : Trap) : Bool := t.cls == 0x03 || t.cls == 0x04 || t.cls == 0x06 || t.cls == 0x07

/-- A prefetch of a line, which does nothing where the line is present or requested: dropped without a trace but PFDROP where
R252 drops it (R434). -/
def State.prefetchLine (s : State) (k : Nat) (st : Stream) (va : Dword) : State × Bool :=
  let c := s.coreAt k
  if (c.cached st va).isSome ∨ c.ahead.any (fun a => a.st == st && a.line.same (c.lineAt st va 0)) then (s, true)
  else match (requestLine k st va).run.run s with
    | (.ok _, s') => (if s.affords s' (holdNo k st.code) then s' else s, true)
    | (.error (.trap t), _) => if t.dropsPrefetch then (s, false) else (s, true)
    | (.error _, _) => (s, true)

/-- PFDROP raised by one (R252, R291, R434). -/
def Core.dropped (c : Core) : Core := { c with pfdrop := c.pfdrop + 1 }

/-- The word at a stream's program counter, from its instruction cache or, on a miss, from memory, with the next line of
the same 64 KiB page requested by S (R432). -/
def fetchWord (k : Nat) (st : Stream) : M Word := do
  let c := (← get).coreAt k
  let pc := c.pcOf st
  let l ← match c.cached st pc with
    | some l => pure l
    | none => do
      let l ← fetchLine k st pc
      let next := lineOf pc + 64
      if st == .s && next.toNat / 65536 == pc.toNat / 65536 then
        modify fun s => match s.prefetchLine k st next with
          | (s', true) => s'
          | (s', false) => s'.putCore k (s'.coreAt k).dropped
      pure l
  return (l.data >>> (8 * (pc.toNat % 64))).setWidth 32

end Sys2Proof.Machine
end

