-- ==== Sys2Proof/Machine/SMem.lean ====
section
/-! DEFINITION. The memory words of S: loads, stores, queue transfers, prefetches, line maintenance, atomics, fences, and
the two events that perform what these words leave pending (R266 to R297, R253, R264). -/

namespace Sys2Proof.Machine

/-! ### What an access of S is checked for and waits for -/

/-- Whether two pieces share a byte. -/
def Piece.overlaps (p q : Piece) : Bool :=
  p.place == q.place && decide (p.addr < q.addr + q.len) && decide (q.addr < p.addr + p.len)

/-- Whether the stream's order between two overlapping pieces is kept (R268). -/
def Piece.ordered (p q : Piece) : Bool := p.overlaps q && p.kind != .uo && q.kind != .uo

/-- The pieces of an access of S, checked in the order of R285, with the checks of kind and target of its step 6. Once
every page is granted, none is asked for any more (R364). -/
def sPieces (acc : Acc) (va : Dword) (n align : Nat) : M (List Piece) := do
  let s ← get
  let ps ← translateAll (s.core.req s.me .s acc) va n align
  let s ← get
  let die := dieOf s.me
  if ps.any fun p => p.kind == .so && p.peer s die then M.operandOpen
  if acc == .atomic && ps.any (fun p => p.peer s die && !p.am) then M.operandOpen
  match s.core.waiting with
  | .page _ _ => M.mapCore fun c => { c with waiting := .none }
  | _ => pure ()
  return ps

/-- SO accesses wait for the stream's earlier SO accesses (R268). -/
def soWait (ps : List Piece) : M Unit := do
  let c ← M.core
  if ps.any (·.kind == .so) then
    M.until (!(c.stores.any fun st => st.pieces.any (·.kind == .so)) &&
      !(c.fills.toList.any fun q => q.any fun f => f.data.isNone && f.pieces.any (·.kind == .so))) (.device 12)

/-- Every earlier access of S is performed (R268, R281). -/
def Core.performed (c : Core) : Bool := c.stores.isEmpty && c.fills.toList.all fun q => q.all (·.data.isSome)

/-- The program counter of the word of S that runs. -/
def Core.spc (c : Core) : Dword := c.pcOf .s

/-- The agent of a word of S. -/
def State.sAgent (s : State) : Agent := { core := s.me, st := .s, pc := s.core.spc, job := s.core.job }

/-- Hold while a queue entry reserved earlier is still to be filled from bytes of an access (R268, R289). -/
def fillWait (ps : List Piece) : M Unit := do
  let c ← M.core
  M.until (!(c.fills.toList.any fun q => q.any fun f =>
    f.data.isNone && f.pieces.any fun a => ps.any fun b => a.ordered b)) (.device 12)

/-- One pending store laid over the bytes of a later load of the stream: its own bytes are forwarded, on a UO page only
where a free choice says so (R268, R288). -/
def overlayOne (p : Piece) (acc : List Byte × State) (st : PendingStore) : List Byte × State :=
  (offsets st.pieces).foldl (fun (acc : List Byte × State) (o : Nat × Piece) =>
    let q := o.2
    if !p.overlaps q || st.sent then acc
    else
      let (x, s) := if p.ordered q then (1#1, acc.2) else acc.2.draw 1
      if x = 0 then (acc.1, s)
      else ((acc.1.zipIdx).map fun b =>
        let a := p.addr + b.2
        if q.addr ≤ a ∧ a < q.addr + q.len then st.bytes.getD (o.1 + (a - q.addr)) 0 else b.1, s)) acc

/-- What the stream's word at `pc` has been answered so far by its peers. -/
def Core.answers (c : Core) (pc : Dword) : List (List Byte) :=
  match c.waiting with
  | .answered p _ got => if p = pc then got else []
  | _ => []

/-- Hold while an answer is out; take the trap that an answer brings (R264, R285). -/
def peerGate : M Unit := do
  let c ← M.core
  match c.waiting with
  | .peer pc _ _ => if pc = c.spc then M.hold (.device 12)
  | .answered pc (some t) _ => do
    if pc = c.spc then
      M.mapCore fun c => { c with waiting := .none }
      M.trap t
  | _ => pure ()

/-- The bytes that the pieces of a load read; `used` counts the answers of peers that earlier pieces have taken. -/
def loadPieces : List Piece → Nat → M (List Byte)
  | [], _ => return []
  | p :: rest, used => do
    let s ← get
    let die := dieOf s.me
    let c := s.core
    if p.peer s die then
      match (c.answers c.spc)[used]? with
      | some bs => return bs ++ (← loadPieces rest (used + 1))
      | none =>
        if c.stores.any fun st => st.pieces.any fun q => p.ordered q then M.hold (.device 12)
        match s.readPeer die (.sword s.me) p with
        | none => M.hold (.device 12)
        | some (ids, s') =>
          set (s'.mapCore fun c => { c with waiting := .peer c.spc ids (c.answers c.spc) })
          M.keep (.device 12)
    else
      let bs ← liftR p.va (readPiece s.sAgent p)
      let s ← get
      let (bs, s) := s.core.stores.foldl (overlayOne p) (bs, s)
      set s
      return bs ++ (← loadPieces rest used)

/-- A load of S: its bytes, from wherever they lie (R253, R264, R285, R288). -/
def loadBytes (ps : List Piece) : M (List Byte) := do
  peerGate
  soWait ps
  fillWait ps
  M.budgeted .s ps .read
  let bs ← loadPieces ps 0
  M.mapCore fun c => { c with waiting := .none }
  return bs

/-- A store of S retires; it is performed later (R288). -/
def retireStore (ps : List Piece) (bs : List Byte) (release : Bool) : M Unit := do
  soWait ps
  M.until (decide ((← M.core).outstanding < allowance)) (.device 12)
  let s ← get
  M.mapCore fun c => { c with stores := c.stores ++ [
    { pc := c.spc, pieces := ps, bytes := bs, release := release, born := s.kiln, job := c.job }] }

/-! ### SC accesses (R280 to R282) -/

/-- The owner of the slot wheel's position in a cycle, where it is VALID. -/
def State.slotOwner (s : State) (die : Nat) : Option Nat :=
  let r := vget (s.die die).scown 0 (s.kiln.toNat % 256)
  if r.getLsbD 8 then some (r.toNat % 256) else none

/-- An SC access: its checks, its release, its stamp, and what its application answers (R281). -/
def scAccess (ps : List Piece) (d : Doing) : M (List Byte) := do
  let s ← get
  let die := dieOf s.me
  let c := s.core
  match c.waiting with
  | .sc pc _ _ _ => if pc = c.spc then M.hold (.device 22)
  | .answered pc bad got =>
    if pc = c.spc then
      M.mapCore fun c => { c with waiting := .none }
      match bad with
      | some t => M.trap t
      | none => return got.flatten
  | _ => pure ()
  let own := ps.all fun p => match p.place with | .hbm n => n == s.nodeOf die | _ => false
  if !own then M.operandOpen
  if !(s.die die).scown.toList.any fun r => r.getLsbD 8 && r.toNat % 256 == s.me % 256 then M.operandOpen
  M.until c.performed (.device 22)
  M.until (s.slotOwner die == some (s.me % 256)) (.device 22)
  M.mapCore fun c => { c with waiting := .sc c.spc s.kiln (ps.map fun p => { p with l1 := false }) d }
  M.keep (.device 22)

/-! ### Loads and stores (R287, R290) -/

/-- The address of a word with a base and a scaled 10-bit offset (R285, step 1). -/
def Core.offAddr (c : Core) (gbase : BitVec 5) (off : BitVec 10) (scale : Nat) : Dword :=
  c.readG gbase + off.signExtend 64 * BitVec.ofNat 64 scale

/-- Bytes of a size code (R35). -/
def sizeBytes (size : BitVec 3) : Nat := 2 ^ (size.toNat % 4)

/-- A loaded value, extended (R287). -/
def extend (signed : Bool) (n : Nat) (bs : List Byte) : Dword :=
  if signed then BitVec.ofInt 64 (signedOf (8 * n) (leNat bs)) else BitVec.ofNat 64 (leNat bs)

/-- LD and LDU: a word of S that a load does (R287). Order 0 is plain, 1 acquire, 2 SC. -/
def loadBody (signed : Bool) (gd gbase : BitVec 5) (size : BitVec 3) (order : BitVec 2) (off : BitVec 10) : M Ctl := do
  let n := sizeBytes size
  let ps ← sPieces .load ((← M.core).offAddr gbase off n) n (if order = 0 then 1 else n)
  let bs ← if order = 2 then scAccess ps .read else loadBytes ps
  M.mapCore fun c => c.writeG gd (extend signed n bs)
  return .next

/-- The log entries of a word that writes one g register. -/
def oneWrite (gd : BitVec 5) (c : Core) : Nat := gWrite gd + c.loopBack

/-- LD.size.order gd, off(gbase) (R287); only an SC load holds behind an untaken command (R397). -/
def execLd (gd gbase : BitVec 5) (size : BitVec 3) (order : BitVec 2) (off : BitVec 10) (s : State) :
    Host.Outcome State Fault Refusal :=
  let i := Instr.ld gd gbase size order off
  if order = 2 then runOther i 0 (loadBody true gd gbase size order off) s
  else runReg i (oneWrite gd) (loadBody true gd gbase size order off) s

/-- LDU.size.order gd, off(gbase) (R287). -/
def execLdu (gd gbase : BitVec 5) (size : BitVec 3) (order : BitVec 2) (off : BitVec 10) (s : State) :
    Host.Outcome State Fault Refusal :=
  let i := Instr.ldu gd gbase size order off
  if order = 2 then runOther i 0 (loadBody false gd gbase size order off) s
  else runReg i (oneWrite gd) (loadBody false gd gbase size order off) s

/-- LDR gd, label (R290). -/
def execLdr (gd : BitVec 5) (imm : BitVec 20) (s : State) : Host.Outcome State Fault Refusal :=
  runReg (.ldr gd imm) (oneWrite gd) (do
    let ps ← sPieces .load (((← M.core).spc &&& ~~~7#64) + imm.signExtend 64 * 8) 8 1
    let bs ← loadBytes ps
    M.mapCore fun c => c.writeG gd (extend false 8 bs)
    return .next) s

/-- ST.size.order g, off(gbase) (R287, R288). -/
def execSt (g gbase : BitVec 5) (size : BitVec 3) (order : BitVec 2) (off : BitVec 10) (s : State) :
    Host.Outcome State Fault Refusal :=
  runOther (.st g gbase size order off) 0 (do
    let c ← M.core
    let n := sizeBytes size
    let bs := leBytes n (c.readG g).toNat
    let ps ← sPieces .store (c.offAddr gbase off n) n (if order = 0 then 1 else n)
    if order = 2 then
      let _ ← scAccess ps (.write bs)
    else retireStore ps bs (order == 1#2)
    return .next) s

/-! ### Queue loads and stores (R289) -/

/-- LDQ lqN, off(gbase) and LDQ.AQ (R289). Its read is checked as the word issues; a local plain entry is filled later,
by QUEUE_ENTRY_FILL. -/
def execLdq (q : BitVec 2) (gbase : BitVec 5) (order : BitVec 1) (off : BitVec 10) (s : State) :
    Host.Outcome State Fault Refusal :=
  let i := Instr.ldq q gbase order off
  untrapped i s (runOther i 0 (do
    let c ← M.core
    M.until (c.writable q.toNat) (.fullWide q.toNat)
    let ps ← sPieces .load (c.offAddr gbase off 256) 256 (if order = 1 then 256 else 8)
    if c.stores.any fun st => st.pieces.any fun a => ps.any fun b => b.ordered a then M.hold (.device 12)
    M.until (decide (c.outstanding < allowance)) (.device 12)
    let bs ← loadBytes ps
    let s ← get
    let data := if order = 1 ∨ ps.any (fun p => p.peer s (dieOf s.me)) then some (BitVec.ofNat 2048 (leNat bs)) else none
    M.mapCore fun c => { c with fills := vset c.fills q.toNat (vget c.fills [] q.toNat ++ [
      { pieces := ps, data := data, found := BitVec.ofNat 2048 (leNat bs), born := s.kiln }]) }
    return .next))

/-- STQ sqN, off(gbase) and STQ.RL (R289). -/
def execStq (q : BitVec 1) (gbase : BitVec 5) (order : BitVec 1) (off : BitVec 10) (s : State) :
    Host.Outcome State Fault Refusal :=
  let i := Instr.stq q gbase order off
  untrapped i s (runOther i 0 (do
    let c ← M.core
    let n := 4 + q.toNat
    M.until (c.readable n) (.emptyWide n)
    let ps ← sPieces .store (c.offAddr gbase off 256) 256 (if order = 1 then 256 else 8)
    retireStore ps (leBytes 256 (c.wide n).top.toNat) (order == 1#1)
    M.mapCore fun c => c.popWide n
    return .next))

/-! ### Prefetch and line maintenance (R291, R292, R434) -/

/-- A line of data brought in ahead, where the page may be cached; an error allocates nothing, and neither does a prefetch
whose tile would pass a budget (R130, R291). One that R252 drops counts in PFDROP. -/
def prefetchData (level : BitVec 1) (va : Dword) (s : State) : State :=
  let q := { s.core.req s.me .s .load with pref := true }
  match (translate q va 1).run.run s with
  | (.error (.trap t), _) => if t.dropsPrefetch then s.mapCore Core.dropped else s
  | (.error _, _) => s
  | (.ok p, s') =>
    match p.place, (s'.die (p.die s')).placeOf p.addr with
    | .hbm n, some (chan, b) =>
      let d := p.die s'
      let work : R Unit :=
        if n != s'.nodeOf d || !isIL p.addr || p.am || n != s'.nodeOf (dieOf s'.me) then pure ()
        else if level = 0 then (if p.l1 then l1Load s'.me (Key.hbm d chan (b / 128 * 128)) p.part p.key p.anyOwner else pure ())
        else if (s'.block d chan (b / 2048)).valid = BitVec.allOnes 16 then pure ()
        else l2Fill d chan (b / 2048) p.part p.key p.anyOwner
      match work.run.run s' with
      | (.ok _, t) => let t := t.trimL2 d chan (b / 2048); if s.affords t (holdNo s.me 0) then t else s
      | (.error _, _) => s'
    | _, _ => s'

/-- PREF off(gbase) (R291): a hint that never faults; like every word that R397 does not list, it holds behind an untaken
command. -/
def execPref (level : BitVec 1) (gbase : BitVec 5) (off : BitVec 10) (s : State) : Host.Outcome State Fault Refusal :=
  runOther (.pref level gbase off) 0 (do
    let va := (← M.core).offAddr gbase off 128
    modify (prefetchData level va)
    return .next) s

/-- IPREF off(gbase) (R291): two lines of the named stream's cache; PFDROP counts the word once (R434). -/
def execIpref (target : BitVec 2) (gbase : BitVec 5) (off : BitVec 10) (s : State) : Host.Outcome State Fault Refusal :=
  runOther (.ipref target gbase off) 0 (do
    let va := lineOf ((← M.core).offAddr gbase off 128)
    modify fun s =>
      let st : Stream := match target.toNat with | 0 => .s | 1 => .x | 2 => .m | _ => .v
      let (s, a) := s.prefetchLine s.me st va
      let (s, b) := s.prefetchLine s.me st (va + 64)
      if a && b then s else s.mapCore Core.dropped
    return .next) s

/-- The line of S's own L1 that an address names: its key, where it is present, and its state. Lines of other nodes are
never there (R258). -/
def ownLine (p : Piece) (s : State) : Option (Nat × Moesi) :=
  match p.place, (s.die (p.die s)).placeOf p.addr with
  | .hbm n, some (chan, b) =>
    if n != s.nodeOf (dieOf s.me) then none else
    let line := Key.hbm (p.die s) chan (b / 128 * 128)
    (s.core.l1.find? fun e => e.1 == line).map fun e => (line, e.2)
  | _, _ => none

/-- CLEAN off(gbase) (R292). -/
def execClean (gbase : BitVec 5) (off : BitVec 10) (s : State) : Host.Outcome State Fault Refusal :=
  runOther (.clean gbase off) 0 (do
    let ps ← sPieces .load ((← M.core).offAddr gbase off 128) 1 1
    for p in ps do
      let s ← get
      match ownLine p s with
      | some (line, .m) => do
        liftR p.va (writeBack s.me line)
        modify fun s => s.setL1 s.me line (some .e)
      | some (line, .o) => do
        liftR p.va (writeBack s.me line)
        modify fun s => s.setL1 s.me line (some .s)
      | _ => pure ()
    return .next) s

/-- INVL off(gbase) (R292). -/
def execInvl (gbase : BitVec 5) (off : BitVec 10) (s : State) : Host.Outcome State Fault Refusal :=
  runOther (.invl gbase off) 0 (do
    let ps ← sPieces .load ((← M.core).offAddr gbase off 128) 1 1
    for p in ps do
      let s ← get
      match ownLine p s with
      | some (line, x) => do
        if x == .m || x == .o then liftR p.va (writeBack s.me line)
        modify fun s => s.setL1 s.me line none
      | none => pure ()
    return .next) s

/-! ### Atomics (R293 to R296) -/

/-- Whether the host carries an atomic (R296). -/
def hostCarries (op : AmoOp) : Bool := op == .add || op == .swap || op == .cas

/-- AMO and CAS: order 0 plain, 1 acquire, 2 release, 3 both, 4 SC. The old value goes to gd. -/
def atomicBody (op : AmoOp) (gd gs1 gs2 : BitVec 5) (n : Nat) (order : BitVec 3) : M Ctl := do
  let c ← M.core
  let x := c.readG gs2
  let y := c.readG gd
  let ps ← sPieces .atomic (c.readG gs1) n n
  let s ← get
  for p in ps do
    match p.place with
    | .host fn => if !(hostCarries op && (s.fn fn).atomicOn) then M.operandOpen
    | _ => pure ()
  let d := Doing.modify op n x y
  let old ← if order = 4 then scAccess ps d else do
    peerGate
    soWait ps
    if order = 2 ∨ order = 3 then M.until c.performed (.device 12)
    if c.stores.any fun st => st.pieces.any fun a => ps.any fun b => b.overlaps a then M.hold (.device 12)
    fillWait ps
    M.budgeted .s ps .modify
    match ps with
    | [p] =>
      if p.peer s (dieOf s.me) then
        match (c.answers c.spc)[0]? with
        | some bs => pure bs
        | none =>
          match s.atomPeer (dieOf s.me) (.sword s.me) p op n order x y (some s.sAgent) with
          | none => M.hold (.device 12)
          | some (id, s') =>
            set (s'.mapCore fun c => { c with waiting := .peer c.spc [id] [] })
            M.keep (.device 12)
      else liftR p.va (performPiece s.sAgent p d)
    | _ => pure []
  M.mapCore fun c => ({ c with waiting := .none }).writeG gd (extend true n old)
  return .next

/-- Bytes of the size bit of AMO and CAS (R38). -/
def atomicBytes (size : BitVec 1) : Nat := if size = 1 then 8 else 4

/-- AMO.ADD.size.order gd, gs2, (gs1) (R294). -/
def execAmoAdd (gd gs1 gs2 : BitVec 5) (size : BitVec 1) (order : BitVec 3) (s : State) :
    Host.Outcome State Fault Refusal :=
  runOther (.amoAdd gd gs1 gs2 size order) 0 (atomicBody .add gd gs1 gs2 (atomicBytes size) order) s

/-- AMO.AND.size.order gd, gs2, (gs1) (R294). -/
def execAmoAnd (gd gs1 gs2 : BitVec 5) (size : BitVec 1) (order : BitVec 3) (s : State) :
    Host.Outcome State Fault Refusal :=
  runOther (.amoAnd gd gs1 gs2 size order) 0 (atomicBody .and gd gs1 gs2 (atomicBytes size) order) s

/-- AMO.OR.size.order gd, gs2, (gs1) (R294). -/
def execAmoOr (gd gs1 gs2 : BitVec 5) (size : BitVec 1) (order : BitVec 3) (s : State) :
    Host.Outcome State Fault Refusal :=
  runOther (.amoOr gd gs1 gs2 size order) 0 (atomicBody .or gd gs1 gs2 (atomicBytes size) order) s

/-- AMO.XOR.size.order gd, gs2, (gs1) (R294). -/
def execAmoXor (gd gs1 gs2 : BitVec 5) (size : BitVec 1) (order : BitVec 3) (s : State) :
    Host.Outcome State Fault Refusal :=
  runOther (.amoXor gd gs1 gs2 size order) 0 (atomicBody .xor gd gs1 gs2 (atomicBytes size) order) s

/-- AMO.MIN.size.order gd, gs2, (gs1) (R294). -/
def execAmoMin (gd gs1 gs2 : BitVec 5) (size : BitVec 1) (order : BitVec 3) (s : State) :
    Host.Outcome State Fault Refusal :=
  runOther (.amoMin gd gs1 gs2 size order) 0 (atomicBody .min gd gs1 gs2 (atomicBytes size) order) s

/-- AMO.MAX.size.order gd, gs2, (gs1) (R294). -/
def execAmoMax (gd gs1 gs2 : BitVec 5) (size : BitVec 1) (order : BitVec 3) (s : State) :
    Host.Outcome State Fault Refusal :=
  runOther (.amoMax gd gs1 gs2 size order) 0 (atomicBody .max gd gs1 gs2 (atomicBytes size) order) s

/-- AMO.MINU.size.order gd, gs2, (gs1) (R294). -/
def execAmoMinu (gd gs1 gs2 : BitVec 5) (size : BitVec 1) (order : BitVec 3) (s : State) :
    Host.Outcome State Fault Refusal :=
  runOther (.amoMinu gd gs1 gs2 size order) 0 (atomicBody .minu gd gs1 gs2 (atomicBytes size) order) s

/-- AMO.MAXU.size.order gd, gs2, (gs1) (R294). -/
def execAmoMaxu (gd gs1 gs2 : BitVec 5) (size : BitVec 1) (order : BitVec 3) (s : State) :
    Host.Outcome State Fault Refusal :=
  runOther (.amoMaxu gd gs1 gs2 size order) 0 (atomicBody .maxu gd gs1 gs2 (atomicBytes size) order) s

/-- AMO.SWAP.size.order gd, gs2, (gs1) (R294). -/
def execAmoSwap (gd gs1 gs2 : BitVec 5) (size : BitVec 1) (order : BitVec 3) (s : State) :
    Host.Outcome State Fault Refusal :=
  runOther (.amoSwap gd gs1 gs2 size order) 0 (atomicBody .swap gd gs1 gs2 (atomicBytes size) order) s

/-- AMO.FADD.W.order gd, gs2, (gs1) (R294, R166): four bytes only. -/
def execAmoFadd (gd gs1 gs2 : BitVec 5) (order : BitVec 3) (s : State) : Host.Outcome State Fault Refusal :=
  runOther (.amoFadd gd gs1 gs2 order) 0 (atomicBody .fadd gd gs1 gs2 4 order) s

/-- CAS.size.order gd, gs2, (gs1) (R295): gd supplies the expected value. -/
def execCas (gd gs1 gs2 : BitVec 5) (size : BitVec 1) (order : BitVec 3) (s : State) :
    Host.Outcome State Fault Refusal :=
  runOther (.cas gd gs1 gs2 size order) 0 (atomicBody .cas gd gs1 gs2 (atomicBytes size) order) s

/-! ### Fences (R277 to R279) -/

/-- FENCE.scope before, after (R277): before-set bits l 3, s 2, a 1, e 0. Atomics are performed as they issue. -/
def execFence (scope : BitVec 3) (before aft : BitVec 4) (s : State) : Host.Outcome State Fault Refusal :=
  runOther (.fence scope before aft) 0 (do
    let c ← M.core
    if before.getLsbD 3 then M.until (c.fills.toList.all fun q => q.all (·.data.isSome)) (.device 22)
    if before.getLsbD 2 then M.until c.stores.isEmpty (.device 22)
    return .next) s

/-- An access to a CR page. -/
def Piece.isCR (p : Piece) : Bool :=
  match p.place with
  | .hbm _ => !isIL p.addr
  | _ => false

/-- FENCE.STK (R278). -/
def execFenceStk (s : State) : Host.Outcome State Fault Refusal :=
  runOther .fenceStk 0 (do
    let c ← M.core
    M.until (c.stores.all (fun st => !st.pieces.any Piece.isCR) &&
      c.fills.toList.all fun q => q.all fun f => f.data.isSome || !f.pieces.any Piece.isCR) (.device 22)
    M.until ((vget c.ports {} 2).active.isEmpty && c.products.isEmpty) (.device 22)
    return .next) s

/-- Every access that an agent of a core issued before a cycle is performed (R279). -/
def Core.doneBefore (c : Core) (b : Dword) : Bool :=
  c.stores.all (fun x => decide (b.toNat ≤ x.born.toNat)) &&
    c.fills.toList.all (fun q => q.all fun f => f.data.isSome || decide (b.toNat ≤ f.born.toNat)) &&
    c.xfers.all (fun x => decide (b.toNat ≤ x.born.toNat)) && c.products.all (fun x => decide (b.toNat ≤ x.born.toNat)) &&
    c.ports.toList.all (fun p => p.active.all fun a => decide (b.toNat ≤ a.born.toNat)) &&
    (match c.waiting with | .sc _ t _ _ => decide (b.toNat ≤ t.toNat) | _ => true)

/-- Every access that a die's agents have made at other nodes, of a stream's word, a fetch, an engine or a reshard's piece,
and every message that has begun to land on it, before a cycle is performed (R279). -/
def Die.doneBefore (d : Die) (b : Dword) : Bool :=
  d.reqs.all (fun r => r.kind == kCTRL || decide (b.toNat ≤ r.born.toNat)) &&
    d.cullet.all fun c => c.whole || c.bitmap == 0 || decide (b.toNat ≤ c.born.toNat)

/-- FENCE.HB (R279): first its own core's accesses, then the boundary, then every access of the die issued before it. -/
def execFenceHb (s : State) : Host.Outcome State Fault Refusal :=
  privileged .fenceHb 2 s (runOther .fenceHb 0 (do
    let s ← get
    let c := s.core
    match c.boundary with
    | none =>
      M.until (c.performed && c.xwait.performed && c.fwait.toList.all Waiting.performed && c.xfers.isEmpty && c.steps.isEmpty)
        (.device 22)
      let b := (s.kiln + 4095) &&& ~~~4095#64
      M.mapCore fun c => { c with boundary := some b }
      M.keep (.device 22)
    | some b =>
      M.until (decide (b.toNat ≤ s.kiln.toNat) &&
        (s.die (dieOf s.me)).doneBefore b && s.cores.all fun p => dieOf p.1 != dieOf s.me || p.2.doneBefore b) (.device 22)
      M.mapCore fun c => { c with boundary := none }
      return .next))

/-! ### What is performed later -/

/-- The store's part outside this die is sent; none where a message must wait. -/
def State.sendStore (s : State) (k : Nat) (st : PendingStore) : Option (List Nat × State) :=
  (offsets st.pieces).foldlM (fun (acc : List Nat × State) o =>
    if o.2.peer s (dieOf k) then
      (acc.2.writePeer (dieOf k) (.store k) o.2 ((st.bytes.drop o.1).take o.2.len) {}
        (some { core := k, st := .s, pc := st.pc, job := st.job })).map fun r => (acc.1 ++ r.1, r.2)
    else some acc) ([], s)

/-- Whether a pending store may be performed now: what must precede it in its stream's order is performed (R268). -/
def Core.storeReady (c : Core) (n : Nat) (st : PendingStore) : Bool :=
  !st.sent && (!st.release || (n == 0 && c.fills.toList.all fun q => q.all (·.data.isSome))) &&
    (c.stores.take n).all (fun e => !(e.pieces.any fun a => st.pieces.any fun b => a.ordered b)) &&
    c.fills.toList.all fun q => q.all fun f => f.data.isSome || !(f.pieces.any fun a => st.pieces.any fun b => a.ordered b)

/-- STORE_PERFORMED (R288): a pending store of a core is applied at its point. -/
def execStorePerformed (core n : Nat) (s : State) : Host.Outcome State Fault Refusal :=
  if 1024 ≤ core then .fault .noSuchUnit
  else
    let c := s.coreAt core
    match c.stores[n]? with
    | none => .next s
    | some st =>
      let here := st.pieces.filter fun p => !p.peer s (dieOf core)
      if !c.storeReady n st then .next s
      else match s.allow (holdNo core 4) here .write with
      | .error s => .next s
      | .ok s => match s.sendStore core st with
      | none => .next s
      | some (ids, s') =>
        let ag : Agent := { core := core, st := .s, pc := st.pc, job := st.job }
        let s' := (offsets st.pieces).foldl (fun s o =>
          if o.2.peer s (dieOf core) then s else s.lateWrite ag o.2 ((st.bytes.drop o.1).take o.2.len)) s'
        let c := s'.coreAt core
        let stores := if ids.isEmpty then c.stores.eraseIdx n
          else c.stores.set n { st with sent := true, waits := ids }
        .next (s'.putCore core { c with stores := stores })

/-- The data of a reserved LDQ entry as it is filled: a read made later reads memory now, unless an error has come to stand
there since the word's own read found none; the data that read found is the entry's then, so that no poisoned tile is read
as good (R285, R289, R414; assumption log 8). -/
def QueueFill.value (f : QueueFill) (core : Nat) (s : State) : BitVec 2048 :=
  match f.data with
  | some x => x
  | none => match ((f.pieces.mapM (readPiece { core := core, st := .s, pc := 0 })).run.run s).1 with
    | .ok bs => BitVec.ofNat 2048 (leNat bs.flatten)
    | .error _ => f.found

/-- QUEUE_ENTRY_FILL (R289): the oldest reserved entry of a queue is filled and becomes readable. -/
def execQueueEntryFill (core q : Nat) (s : State) : Host.Outcome State Fault Refusal :=
  if 1024 ≤ core ∨ 4 ≤ q then .fault .noSuchUnit
  else
    let c := s.coreAt core
    match vget c.fills [] q with
    | [] => .next s
    | f :: rest =>
      .next (s.putCore core ({ c with fills := vset c.fills q rest }.pushWide q (f.value core s)))

end Sys2Proof.Machine
end

