-- ==== Sys2Proof/Machine/Ports.lean ====
section
/-! DEFINITION. The scalar queues, the ring words and the engine-port words of S (R22, R298 to R304, R396, R397). -/

namespace Sys2Proof.Machine

/-! ### Scalar queues (R298) -/

/-- A write to a scalar queue, which holds while it holds 16 entries. -/
def qputBody (q : Nat) (gs1 : BitVec 5) : M Ctl := do
  let c ← M.core
  M.until (c.writable (q + 6)) (.fullScalar q)
  M.mapCore fun c => c.pushScalar q (c.readG gs1)
  return .next

/-- QPUT.V gs1. -/
def execQputV (gs1 : BitVec 5) (s : State) : Host.Outcome State Fault Refusal :=
  untrapped (.qputV gs1) s (runOther (.qputV gs1) 0 (qputBody 0 gs1))

/-- QPUT.M gs1. -/
def execQputM (gs1 : BitVec 5) (s : State) : Host.Outcome State Fault Refusal :=
  untrapped (.qputM gs1) s (runOther (.qputM gs1) 0 (qputBody 2 gs1))

/-- QPUT.X gs1. -/
def execQputX (gs1 : BitVec 5) (s : State) : Host.Outcome State Fault Refusal :=
  untrapped (.qputX gs1) s (runOther (.qputX gs1) 0 (qputBody 3 gs1))

/-- The head of a scalar queue popped, or a hold while it is empty. -/
def popScalar (q : Nat) : M Dword := do
  let c ← M.core
  M.until (c.readable (q + 6)) (.emptyScalar q)
  M.mapCore fun c => c.popScalar q
  return (c.scalar q).top

/-- QGET gd. -/
def execQget (gd : BitVec 5) (s : State) : Host.Outcome State Fault Refusal :=
  untrapped (.qget gd) s (runOther (.qget gd) 0 (do
    let x ← popScalar 1
    M.mapCore fun c => c.writeG gd x
    return .next))

/-! ### Stream descriptors (R299 to R301) -/

/-- Whether word 0 of a descriptor is one that R299 allows. -/
def Desc.okRing (w : Dword) : Bool :=
  bits w 63 53 == 0 && bits w 31 21 == 0 && bits w 52 32 % 256 == 0 && bits w 20 0 % 256 == 0 &&
    decide (bits w 20 0 + bits w 52 32 ≤ 0x100000)

/-- Whether word 1 of a descriptor is one that R299 allows. -/
def Desc.okFormat (w : Dword) : Bool :=
  bits w 63 32 == 0 && bits w 15 10 == 0 && !w.getLsbD 5 && bits w 31 16 % 2 == 0 && bits w 9 8 != 3 &&
    (Fmt.ofCode (BitVec.ofNat 5 (bits w 4 0))).isSome

/-- Whether word 2 of a descriptor is one that R299 and R300 allow for a ring of a size. -/
def Desc.okPlace (size : Nat) (w : Dword) : Bool :=
  bits w 62 53 == 0 && bits w 31 21 == 0 && bits w 52 32 % 256 == 0 && bits w 20 0 % 256 == 0 &&
    (if size = 0 then w == 0 else decide (bits w 52 32 < size) && decide (bits w 20 0 < size)) &&
    (!w.getLsbD 63 || bits w 52 32 == bits w 20 0)

/-- Whether SDSET of a word would be accepted (R300). -/
def Desc.accepts (d : Desc) (w : Nat) (x : Dword) : Bool :=
  match w with
  | 0 => Desc.okRing x && (decide (d.head < bits x 52 32) && decide (d.tail < bits x 52 32) ||
      bits x 52 32 == 0 && d.head == 0 && d.tail == 0)
  | 1 => Desc.okFormat x
  | 2 => Desc.okPlace d.size x
  | _ => false

/-- FULL cleared. -/
def Desc.notFull (w : Dword) : Dword := w &&& ~~~(1#64 <<< 63)

/-- A descriptor with one word written: a write of word 0 also clears FULL (R300). -/
def Desc.write (d : Desc) (w : Nat) (x : Dword) : Desc :=
  match w with
  | 0 => { d with w0 := x, w2 := Desc.notFull d.w2 }
  | 1 => { d with w1 := x }
  | _ => { d with w2 := x }

/-- Whether a transfer's ring is a given one. -/
def XRing.is (x : XRing) (r : Nat) : Bool :=
  match x with
  | .fills k _ _ => k == r
  | .drains k _ _ => k == r
  | .none => false

/-- Whether a word of X, M or V that reads or produces a ring has not retired (R301). -/
def Core.ringUsed (c : Core) (r : Nat) : Bool :=
  c.xfers.any (fun x => x.ring.is r) || c.steps.any fun m => m.rings.contains r

/-- The decoded symbols of a ring discarded: its decoding restarts at the head entry (R229, R300). -/
def Core.discard (c : Core) (r : Nat) : Core := { c with decoded := c.decoded.filter fun d => d.ring != r }

/-- A descriptor installed by SDSET or RNGSET; a Frit ring loses its decoded symbols. -/
def Core.install (c : Core) (r : Nat) (d : Desc) : Core :=
  let c' := c.setDesc r d
  if (c.desc r).isFrit || d.isFrit then c'.discard r else c'

/-- The hold of a descriptor write (R301). -/
def ringIdle (r : Nat) : M Unit := do
  let c ← M.core
  M.until ((c.desc r).rsvd == 0 && !c.ringUsed r) (.device 18)

/-- SDSET stN, ga, w. Its checks are made as it first executes and again as the write applies, not while it holds (R301). -/
def execSdset (ga : BitVec 5) (w : BitVec 2) (ring : BitVec 4) (s : State) : Host.Outcome State Fault Refusal :=
  untrapped (.sdset ga w ring) s (runOther (.sdset ga w ring) 0 (do
    let c ← M.core
    let r := ring.toNat
    let x := c.readG ga
    let ok := (c.desc r).accepts w.toNat x
    if vget c.hold .none 0 != .device 18 then M.check ok (Trap.operand 0x30)
    ringIdle r
    M.check ok (Trap.operand 0x30)
    M.mapCore fun c => c.install r ((c.desc r).write w.toNat x)
    return .next))

/-- RNGSET stN, ga, gb. -/
def execRngset (ga gb : BitVec 5) (ring : BitVec 4) (s : State) : Host.Outcome State Fault Refusal :=
  untrapped (.rngset ga gb ring) s (runOther (.rngset ga gb ring) 0 (do
    let c ← M.core
    let r := ring.toNat
    let x := c.readG ga
    let y := c.readG gb
    M.check (Desc.okRing x && Desc.okPlace (bits x 52 32) y) (Trap.operand 0x30)
    ringIdle r
    M.mapCore fun c => c.install r { c.desc r with w0 := x, w2 := y }
    return .next))

/-- A word of S that reads one g register's value from its own core, refused while the core is TRAPPED. -/
def ringRead (i : Instr) (ga : BitVec 5) (f : Core → Dword) (s : State) : Host.Outcome State Fault Refusal :=
  untrapped i s (runReg i (oneWrite ga) (do
    M.mapCore fun c => c.writeG ga (f c)
    return .next))

/-- SDGET ga, stN, w. -/
def execSdget (ga : BitVec 5) (w : BitVec 2) (ring : BitVec 4) (s : State) : Host.Outcome State Fault Refusal :=
  ringRead (.sdget ga w ring) ga (fun c =>
    let d := c.desc ring.toNat
    match w.toNat with
    | 0 => d.w0
    | 1 => d.w1
    | 2 => d.w2
    | _ => d.w3) s

/-- RNGSTAT ga, stN. -/
def execRngstat (ga : BitVec 5) (ring : BitVec 4) (s : State) : Host.Outcome State Fault Refusal :=
  ringRead (.rngstat ga ring) ga (fun c =>
    let d := c.desc ring.toNat
    place (if d.full then 1 else 0) 63 ||| place d.avail 32 ||| place d.room 0) s

/-! ### Engine ports (R22, R302 to R304) -/

/-- A port of a core. -/
def Core.port (c : Core) (n : Nat) : Port := vget c.ports {} n

/-- A port changed. -/
def Core.setPort (c : Core) (n : Nat) (p : Port) : Core := { c with ports := vset c.ports n p }

/-- The words a command FIFO holds. -/
def Port.words (p : Port) : Nat := (p.fifo ++ p.part.toList).foldl (fun n k => n + k.words.length) 0

/-- RES of a header. -/
def wantsResult (header : Dword) : Bool := header.getLsbD 31

/-- ROUT: commands with RES = 1 whose result is not present (R304). One that still lacks its END word, of which R304 does not
speak, is not counted (DESIGN CHOICE, assumption log 74). -/
def Port.rout (p : Port) : Nat :=
  (p.fifo.filter fun k => wantsResult (k.words.headD 0)).length + (p.active.filter fun a => wantsResult a.header).length

/-- The privilege check of ep4 and the refusal of a handler's own pushes and pops on the other ports (R22, R398). -/
def portGate (i : Instr) (port : BitVec 3) (pops : Bool) (s : State) (run : State → Host.Outcome State Fault Refusal) :
    Host.Outcome State Fault Refusal :=
  if port = 4 then privileged i 1 s run
  else if pops then untrapped i s run
  else run s

/-- What a reshard of two words takes when its END word is pushed (R323). -/
def State.images (s : State) (header w1 : Dword) : Images :=
  let c := s.core
  let t (id : Nat) : Option (BitVec 512) := ((s.part c.part.toNat).tensors.find? fun p => p.1 == id).map (·.2)
  { mapS := vget c.mp 0 (bits header 7 4), mapD := vget c.mp 0 (bits header 3 0), mesh := c.mesh
    src := t (bits w1 15 0), dst := t (bits header 47 32) }

/-- EPUSH and EPUSH.END of R303. A reshard pushed so does not hold while 8 RESHARDs are in flight, which R303 does not list and
R323's "same effect" leaves open (DESIGN CHOICE, assumption log 75). -/
def pushBody (ga : BitVec 5) (port : BitVec 3) (last : Bool) : M Ctl := do
  M.check (port != 3) (Trap.operand 0x40)
  let s ← get
  let c := s.core
  let n := port.toNat
  let p := c.port n
  let x := c.readG ga
  let sofar := (p.part.map (·.words)).getD []
  let header := sofar.headD x
  let nw := bits header 55 48
  if sofar.isEmpty && wantsResult x then M.until (p.rout + p.results.length != 32) (.device 17)
  if last != (sofar.length + 1 == nw + 1) then do
    M.mapCore fun c => (c.setPort n { p with part := none }).settleLog
    M.trap (Trap.operand 0x41)
  M.until (p.words < 32) (.device 11)
  let fresh : Command :=
    { words := [], logAt := c.logged, tagPc := c.spc, tagSeq := vget c.seq 0 0, g := c.g, loops := c.loop .s, whole := false
      job := c.job, ctx := c.ctx, order := c.pushes, rsv := none }
  let k := p.part.getD fresh
  let k := { k with
    words := k.words ++ [x]
    images := if n = 1 ∧ last then some (s.images header x) else none }
  let c' := if p.part.isNone then { c with pushes := c.pushes + 1 } else c
  M.mapCore fun _ => c'.setPort n (if last then { p with fifo := p.fifo ++ [k], part := none } else { p with part := some k })
  return .next

/-- EPUSH epN, ga. -/
def execEpush (ga : BitVec 5) (port : BitVec 3) (s : State) : Host.Outcome State Fault Refusal :=
  portGate (.epush ga port) port true s (runReg (.epush ga port) Core.loopBack (pushBody ga port false))

/-- EPUSH.END epN, ga. -/
def execEpushEnd (ga : BitVec 5) (port : BitVec 3) (s : State) : Host.Outcome State Fault Refusal :=
  portGate (.epushEnd ga port) port true s (runReg (.epushEnd ga port) Core.loopBack (pushBody ga port true))

/-- The element of EPOLL where there is none (R304). -/
def noElement : Dword := 0xFF00000000000000

/-- EPOP ga, epN. -/
def execEpop (ga : BitVec 5) (port : BitVec 3) (s : State) : Host.Outcome State Fault Refusal :=
  portGate (.epop ga port) port true s (runOther (.epop ga port) 0 (do
    let p := (← M.core).port port.toNat
    match p.results with
    | x :: rest => do
      M.mapCore fun c => (c.setPort port.toNat { p with results := rest }).writeG ga x
      return .next
    | [] =>
      if port = 3 then M.hold .ep3
      M.check (p.rout != 0) (Trap.operand 0x42)
      M.hold (.device 11)))

/-- EPOLL ga, epN. -/
def execEpoll (ga : BitVec 5) (port : BitVec 3) (s : State) : Host.Outcome State Fault Refusal :=
  portGate (.epoll ga port) port false s (runReg (.epoll ga port) (oneWrite ga) (do
    let p := (← M.core).port port.toNat
    M.until (!p.results.isEmpty || p.rout == 0 || port == 3) (.device 11)
    M.mapCore fun c => c.writeG ga (p.results.headD noElement)
    return .next))

/-- ESTAT ga, epN. -/
def execEstat (ga : BitVec 5) (port : BitVec 3) (s : State) : Host.Outcome State Fault Refusal :=
  portGate (.estat ga port) port false s (runReg (.estat ga port) (oneWrite ga) (do
    let p := (← M.core).port port.toNat
    let free := if port = 3 then 0 else 32 - p.words
    let rout := if port = 3 then 0 else p.rout
    M.mapCore fun c => c.writeG ga (place free 32 ||| place p.results.length 24 ||| place rout 16 |||
      place (if p.part.isSome then 1 else 0) 0)
    return .next))

end Sys2Proof.Machine
end

