-- ==== Sys2Proof/Machine/Transfer.lean ====
section
/-! DEFINITION. The transfer sequencer (R231 to R247): transfer descriptors and windows, the data-moving words up to their
retirement, and the completion of a transfer. -/

namespace Sys2Proof.Machine

/-! ### Transfer descriptors (R231 to R233) -/

/-- The fields of a transfer descriptor. -/
structure TD where
  addr : Dword
  pitch : Nat
  node : Nat
  key : BitVec 4
  fmt : BitVec 5
  sealed : Bool
  pad : Nat
  reserved : Bool
  rows : Nat
  cols : Nat
  wrows : Nat
  wcols : Nat
  row0 : Int
  col0 : Int
  tscale : Nat
  /-- NT of XFILL. -/
  nt : Nat
  deriving DecidableEq, Repr

/-- A field of a descriptor, as a number. -/
def tdField (d : BitVec 256) (hi lo : Nat) : Nat := (d.extractLsb' lo (hi + 1 - lo)).toNat

/-- The fields of R231. -/
def TD.of (d : BitVec 256) : TD where
  addr := BitVec.ofNat 64 (tdField d 63 0)
  pitch := tdField d 111 64
  node := tdField d 123 112
  key := BitVec.ofNat 4 (tdField d 127 124)
  fmt := BitVec.ofNat 5 (tdField d 132 128)
  sealed := d.getLsbD 136
  pad := tdField d 138 137
  reserved := tdField d 135 133 != 0 || tdField d 143 139 != 0
  rows := tdField d 159 144
  cols := tdField d 175 160
  wrows := tdField d 191 176
  wcols := tdField d 207 192
  row0 := signedOf 16 (tdField d 223 208)
  col0 := signedOf 16 (tdField d 239 224)
  tscale := tdField d 255 240
  nt := tdField d 175 144

/-- A transfer descriptor of a core. -/
def Core.tdesc (c : Core) (n : Nat) : BitVec 256 := vget c.td 0 (n % 8)

/-- Halfword f of a descriptor written. -/
def tdWrite (d : BitVec 256) (f : Nat) (x : BitVec 16) : BitVec 256 :=
  d &&& ~~~(0xFFFF#256 <<< (16 * f)) ||| (x.setWidth 256) <<< (16 * f)

/-- XTD tdN, cb. -/
def execXtd (sync : BitVec 4) (td : BitVec 3) (cb : BitVec 4) (s : State) : Host.Outcome State Fault Refusal :=
  runWord (.xtd sync td cb) .x sync (do
    M.mapCore fun c =>
      let r (i : Nat) : Dword := vget c.cx 0 (cb.toNat + i)
      { c with td := vset c.td td.toNat (r 3 ++ r 2 ++ r 1 ++ r 0) }
    return .next) s

/-- XTDI tdN, f, imm. -/
def execXtdi (sync : BitVec 4) (td : BitVec 3) (f : BitVec 4) (imm : BitVec 16) (s : State) :
    Host.Outcome State Fault Refusal :=
  runWord (.xtdi sync td f imm) .x sync (do
    M.mapCore fun c => { c with td := vset c.td td.toNat (tdWrite (c.tdesc td.toNat) f.toNat imm) }
    return .next) s

/-- The element format of a descriptor. -/
def TD.format (t : TD) : Fmt := (Fmt.ofCode t.fmt).getD .fp32

/-- The element width. -/
def TD.w (t : TD) : Nat := t.format.width

/-- The columns of the window's memory elements, first and last: those inside the present area, or under PAD = 1 the
clamped ones; none where there are none (R233). -/
def TD.span (t : TD) (writes : Bool) : Option (Nat × Nat) :=
  let last := t.col0 + t.wcols - 1
  if t.pad = 1 ∧ !writes then
    let clamp (c : Int) : Nat := (max 0 (min c (t.cols - 1))).toNat
    if t.cols = 0 then none else some (clamp t.col0, clamp last)
  else
    let lo := max t.col0 0
    let hi := min last (t.cols - 1)
    if lo ≤ hi then some (lo.toNat, hi.toNat) else none

/-- The memory row that a window row at memory row `r` touches. -/
def TD.rowOf (t : TD) (writes : Bool) (r : Int) : Option Nat :=
  if 0 ≤ r ∧ r < t.rows then some r.toNat
  else if t.pad = 1 ∧ !writes ∧ t.rows ≠ 0 then some (max 0 (min r (t.rows - 1))).toNat
  else none

/-- Addr(r, c) for the first column of a span, and the bytes of the span. -/
def TD.rowRange (t : TD) (sp : Nat × Nat) (r : Nat) : Dword × Nat :=
  (t.addr + BitVec.ofNat 64 (r * t.pitch + sp.1 * t.w / 8), (sp.2 * t.w + t.w + 7) / 8 - sp.1 * t.w / 8)

/-! ### The checks of R234 -/

/-- Trap with a detail code where a condition fails. -/
def xCheck (b : Bool) (detail : Nat) : M Unit := M.check b (Trap.operand detail)

/-- Detail 0x10. -/
def TD.ok (t : TD) : Bool :=
  !t.reserved && (Fmt.ofCode t.fmt).isSome && t.pad != 3 && t.wrows != 0 && t.wcols != 0 &&
    !(t.w == 4 && (t.col0 % 2 != 0 || t.wcols % 2 != 0))

/-- Detail 0x13, for the memory rows of the window. -/
def TD.inside (t : TD) (rows : List Int) : Bool :=
  !(t.pad == 1 && (t.rows == 0 || t.cols == 0)) &&
    !(t.pad == 2 && !rows.isEmpty && (decide (t.col0 < 0) || decide ((t.cols : Int) < t.col0 + t.wcols) ||
      rows.any fun r => decide (r < 0) || decide ((t.rows : Int) ≤ r)))

/-- Whether a range of addresses lies in the host half. -/
def hostRange (va : Dword) (n : Nat) : Bool := decide (bits va 63 56 ≤ 1) && decide (bits (va + BitVec.ofNat 64 (n - 1)) 63 56 ≤ 1)

/-- Detail 0x14: what R238 asks of a sealed descriptor named by XCOPY or XPUT. -/
def TD.sealOk (t : TD) (rows : List Int) : Bool :=
  let n := t.wcols * t.w / 8
  hostRange t.addr 1 && decide (0 ≤ t.col0) && decide (t.col0 + t.wcols ≤ t.cols) && n % 2048 == 0 && n != 0 &&
    t.wcols * t.w % 8 == 0 && rows.all fun r => decide (0 ≤ r) && decide (r < t.rows) &&
      (let g := t.rowRange (t.col0.toNat, (t.col0 + t.wcols - 1).toNat) r.toNat
       g.1.toNat % 2048 == 0 && hostRange g.1 g.2)

/-- Bytes of `n` elements of `w` bits, rounded up to whole entries (R236). -/
def entryBytes (n w : Nat) : Nat := roundUp ((n * w + 7) / 8) 256

/-- Details 0x11 and 0x12 for a fixed ring of a format without scales; a ring of size 0 raises no fault. -/
def ringCheck (d : Desc) (f : Fmt) (bytes : Nat) : M Unit := do
  xCheck (d.size == 0 || (!d.isFrit && Fmt.ofCode d.fmt == some f && d.sstride == 0)) 0x11
  xCheck (d.size == 0 || decide (bytes ≤ d.size)) 0x12

/-! ### Holds at issue, and translation (R235, R236) -/

/-- The bytes of a ring that transfers in flight are to pop. -/
def Core.claimed (c : Core) (r : Nat) : Nat :=
  c.xfers.foldl (fun n x => match x.ring with | .drains k _ len => if k = r then n + len else n | _ => n) 0

/-- A transfer beyond the 32 in flight holds. -/
def xferLimit : M Unit := do
  let c ← M.core
  M.until (c.xfers.length < 32) (.device 21)

/-- Hold until a ring has room for what a word reserves; where the entry will stand. -/
def ringRoom (r n : Nat) : M XRing := do
  let d := (← M.core).desc r
  M.until (n ≤ d.room && d.size != 0) (.ringFull r n)
  return .fills r ((d.tail + d.rsvd) % d.size) n

/-- Hold until a ring's next unclaimed entry is complete. -/
def ringEntry (r n : Nat) : M XRing := do
  let c ← M.core
  let d := c.desc r
  let k := c.claimed r
  M.until (k + n ≤ d.avail && d.size != 0) (.ringShort r (k + n))
  return .drains r ((d.head + k) % d.size) n

/-- The pages of a range, for X: none of them an SO page of a peer (R253). -/
def xPieces (acc : Acc) (g : Dword × Nat) : M (List Piece) := do
  let s ← get
  let ps ← translateAll (s.core.req s.me .x acc) g.1 g.2 1
  let s ← get
  if ps.any fun p => p.kind == .so && p.peer s (dieOf s.me) then M.operandOpen
  return ps

/-- The pages of the metadata of each sealed tile of a row (R381). -/
def sealPieces (t : TD) (acc : Acc) (g : Dword × Nat) : M (List (List Piece)) :=
  let tile (k : Nat) : M (List Piece) :=
    let va := g.1 + BitVec.ofNat 64 (2048 * k)
    let at0 := t.addr + BitVec.ofNat 64 (t.rows * t.pitch + 32 * ((va - t.addr).toNat / 2048))
    xPieces acc (at0, 32)
  M.collect (decide (g.1.toNat / 2 ^ 56 ≤ 1)) tile (List.range (g.2 / 2048))

/-- The rows of memory that a window touches, translated in order; those of the host ask for their pages together (R363). -/
def windowRows (t : TD) (writes : Bool) (rows : List Int) : M (List XRow) := do
  let acc : Acc := if writes then .xwrite else .xread
  match t.span writes with
  | none => return []
  | some sp =>
    let one (r : Nat × Nat) : M XRow := do
      let g := t.rowRange sp r.2
      let ps ← xPieces acc g
      let seals ← if t.sealed then sealPieces t acc g else pure []
      return { row := r.1, pieces := ps, seals := seals }
    M.collect (decide (t.addr.toNat / 2 ^ 56 ≤ 1)) one
      (rows.zipIdx.filterMap fun r => (t.rowOf writes r.1).map fun m => (r.2, m))

/-- The transfer of the word that X runs, with what every word gives it. -/
def transfer (op : Instr) (td : Nat) (ring : XRing) : M Transfer := do
  let s ← get
  let c := s.core
  return { op := op, pc := c.pcOf .x, td := td, tdv := c.tdesc td, ring := ring, job := c.job, born := s.kiln }

/-- A transfer is launched: its ring bytes are reserved and the word retires. -/
def launch (t : Transfer) : M Ctl := do
  M.mapCore fun c =>
    let c := match t.ring with
      | .fills r _ n => c.setDesc r ((c.desc r).reserve n)
      | _ => c
    { c with xfers := c.xfers ++ [t], xwait := .none }
  return .next

/-! ### Producers and consumers over a window (R239 to R242) -/

/-- Reg(ci) as a signed number. -/
def Core.ci (c : Core) (ci : BitVec 4) : Int := (c.readC .x ci).toInt

/-- The window rows from a first row on. -/
def rowsFrom (r0 : Int) (n : Nat) : List Int := (List.range n).map fun (i : Nat) => r0 + (i : Int)

/-- A producer of one entry over the rows of a window. -/
def fillRows (op : Instr) (td r : Nat) (bytes : Nat) (rows : List Int) (mayFail : M Unit) : M Ctl := do
  let t := TD.of ((← M.core).tdesc td)
  xCheck (t.inside rows) 0x13
  mayFail
  let ring ← ringRoom r bytes
  xferLimit
  let reads ← windowRows t false rows
  launch { (← transfer op td ring) with rows := rows, reads := reads }

/-- Detail 0x14 for the words that may not name a sealed descriptor. -/
def unsealed (t : TD) : M Unit := xCheck (!t.sealed) 0x14

/-- XCOPY tdN, stN, ci. -/
def execXcopy (sync : BitVec 4) (td : BitVec 3) (ring ci : BitVec 4) (s : State) : Host.Outcome State Fault Refusal :=
  let i : Instr := .xcopy sync td ring ci
  runWord i .x sync (do
    let c ← M.core
    let t := TD.of (c.tdesc td.toNat)
    xCheck t.ok 0x10
    let n := entryBytes (t.wrows * t.wcols) t.w
    ringCheck (c.desc ring.toNat) t.format n
    let rows := rowsFrom (t.row0 + c.ci ci) t.wrows
    fillRows i td.toNat ring.toNat n rows (xCheck (!t.sealed || t.sealOk rows) 0x14)) s

/-- XPUT tdN, stN, ci. -/
def execXput (sync : BitVec 4) (td : BitVec 3) (ring ci : BitVec 4) (s : State) : Host.Outcome State Fault Refusal :=
  let i : Instr := .xput sync td ring ci
  runWord i .x sync (do
    let c ← M.core
    let t := TD.of (c.tdesc td.toNat)
    xCheck t.ok 0x10
    let n := entryBytes (t.wrows * t.wcols) t.w
    ringCheck (c.desc ring.toNat) t.format n
    let rows := rowsFrom (t.row0 + c.ci ci) t.wrows
    xCheck (t.inside rows) 0x13
    xCheck (!t.sealed || t.sealOk rows) 0x14
    let entry ← ringEntry ring.toNat n
    xferLimit
    let writes ← windowRows t true rows
    launch { (← transfer i td.toNat entry) with rows := rows, writes := writes }) s

/-- XCVT tdN, stN, ci, fmt. -/
def execXcvt (sync : BitVec 4) (td : BitVec 3) (ring ci : BitVec 4) (fmt : BitVec 5) (rnd : BitVec 2)
    (ovf inf tr ts : BitVec 1) (s : State) : Host.Outcome State Fault Refusal :=
  let i : Instr := .xcvt sync td ring ci fmt rnd ovf inf tr ts
  runWord i .x sync (do
    let c ← M.core
    let t := TD.of (c.tdesc td.toNat)
    xCheck t.ok 0x10
    let d := c.desc ring.toNat
    let f := (Fmt.ofCode fmt).getD .fp32
    let k := t.wrows * t.wcols
    xCheck (d.size == 0 || (!d.isFrit && d.fmt == fmt && (d.sstride == 0 || k == 2048))) 0x11
    let n := if d.sstride = 0 then entryBytes k f.width else d.fixedLen f
    xCheck (d.size == 0 || decide (n ≤ d.size)) 0x12
    fillRows i td.toNat ring.toNat n (rowsFrom (t.row0 + c.ci ci) t.wrows) (unsealed t)) s

/-- The index entry of XGATH and XSCAT: its length and its values (R241). -/
def indexEntry (r wrows : Nat) : M (Nat × List Int) := do
  let c ← M.core
  let d := c.desc r
  let n := roundUp (4 * wrows) 256
  ringCheck d .i32 n
  M.until (n ≤ d.avail && d.size != 0) (.ringShort r n)
  M.until (c.claimed r == 0) (.device 21)
  let x := leNat (← readRing r d.head n)
  return (n, (List.range wrows).map fun k => signedOf 32 (entryField x (4 * k) 4))

/-- The index entry popped when the word retires. -/
def popIndex (r n : Nat) : M Unit := M.mapCore fun c => c.setDesc r ((c.desc r).popBytes n)

/-- XGATH tdN, stN, ci, stI. Detail 0x14 comes before 0x13, which is checked once the index entry is complete, an order that
R234 leaves open, here and in XSCAT (DESIGN CHOICE, assumption log 72). -/
def execXgath (sync : BitVec 4) (td : BitVec 3) (ring ci sti : BitVec 4) (s : State) : Host.Outcome State Fault Refusal :=
  let i : Instr := .xgath sync td ring ci sti
  runWord i .x sync (do
    let c ← M.core
    let t := TD.of (c.tdesc td.toNat)
    xCheck t.ok 0x10
    let n := entryBytes (t.wrows * t.wcols) t.w
    ringCheck (c.desc ring.toNat) t.format n
    unsealed t
    let ix ← indexEntry sti.toNat t.wrows
    let rows := ix.2.map fun x => x + t.row0 + c.ci ci
    let k ← fillRows i td.toNat ring.toNat n rows (pure ())
    popIndex sti.toNat ix.1
    return k) s

/-- XSCAT tdN, stN, ci, stI; its checks in the order of XGATH's (DESIGN CHOICE, assumption log 72). -/
def execXscat (sync : BitVec 4) (td : BitVec 3) (ring ci sti : BitVec 4) (s : State) : Host.Outcome State Fault Refusal :=
  let i : Instr := .xscat sync td ring ci sti
  runWord i .x sync (do
    let c ← M.core
    let t := TD.of (c.tdesc td.toNat)
    xCheck t.ok 0x10
    let n := entryBytes (t.wrows * t.wcols) t.w
    ringCheck (c.desc ring.toNat) t.format n
    unsealed t
    let ix ← indexEntry sti.toNat t.wrows
    let rows := ix.2.map fun x => x + t.row0 + c.ci ci
    xCheck (t.inside rows) 0x13
    let entry ← ringEntry ring.toNat n
    xferLimit
    let writes ← windowRows t true rows
    let k ← launch { (← transfer i td.toNat entry) with rows := rows, writes := writes }
    popIndex sti.toNat ix.1
    return k) s

/-- The rows of a sliding window, one entry each; the descriptor's ROW0 moves on with the word (R242). -/
def slideRows (op : Instr) (td r : Nat) (n : Nat) : M Ctl := do
  let t := TD.of ((← M.core).tdesc td)
  let e := entryBytes t.wcols t.w
  let k ← fillRows op td r (n * e) (rowsFrom t.row0 n) (unsealed t)
  M.mapCore fun c => { c with td := vset c.td td (tdWrite (c.tdesc td) 13 (BitVec.ofInt 16 (t.row0 + n))) }
  return k

/-- The checks of a sliding window before its rows are known. -/
def slideCheck (td r : Nat) : M TD := do
  let c ← M.core
  let t := TD.of (c.tdesc td)
  xCheck t.ok 0x10
  ringCheck (c.desc r) t.format (entryBytes t.wcols t.w)
  return t

/-- XWOPEN tdN, stN. -/
def execXwopen (sync : BitVec 4) (td : BitVec 3) (ring : BitVec 4) (s : State) : Host.Outcome State Fault Refusal :=
  runWord (.xwopen sync td ring) .x sync (do
    let t ← slideCheck td.toNat ring.toNat
    slideRows (.xwopen sync td ring) td.toNat ring.toNat t.wrows) s

/-- XWADV tdN, stN, ci: k = 0 moves nothing. -/
def execXwadv (sync : BitVec 4) (td : BitVec 3) (ring ci : BitVec 4) (s : State) : Host.Outcome State Fault Refusal :=
  runWord (.xwadv sync td ring ci) .x sync (do
    let t ← slideCheck td.toNat ring.toNat
    let k := ((← M.core).readC .x ci).toNat
    xCheck (k ≤ t.wrows) 0x17
    if k = 0 then do
      xCheck (t.inside []) 0x13
      unsealed t
      return .next
    else slideRows (.xwadv sync td ring ci) td.toNat ring.toNat k) s

/-! ### KV-cache quantisation (R243) -/

/-- A format that XKVQ may quantise to. -/
def Fmt.isKv : Fmt → Bool
  | .i8 => true | .i4 => true | .b4p2 => true | .b8 _ => true | _ => false

/-- XKVQ tdN, stN, ci, fmt. Of the checks of detail 0x10 its second descriptor takes only that of the reserved bits, which
R234 leaves open, and neither descriptor's ROWS, COLS, ROW0, COL0 or PAD bounds the cache rows, which R243 leaves open
(DESIGN CHOICE, assumption log 56). -/
def execXkvq (sync : BitVec 4) (td : BitVec 3) (ring ci : BitVec 4) (fmt : BitVec 5) (rnd : BitVec 2) (ovf : BitVec 1)
    (s : State) : Host.Outcome State Fault Refusal :=
  let i : Instr := .xkvq sync td ring ci fmt rnd ovf
  runWord i .x sync (do
    let c ← M.core
    let t := TD.of (c.tdesc td.toNat)
    let q := TD.of (c.tdesc (td.toNat + 1))
    let d := c.desc ring.toNat
    xCheck (t.ok && !q.reserved) 0x10
    let f := (Fmt.ofCode fmt).getD .fp32
    xCheck (d.size == 0 || d.isFrit || d.sstride == 0) 0x11
    xCheck (d.size == 0 || decide (256 ≤ d.size)) 0x12
    xCheck (t.inside []) 0x13
    unsealed t
    unsealed q
    xCheck (f.isKv && t.format == .bf16 && t.wcols == 64 && q.fmt == fmt &&
      (d.size == 0 || (!d.isFrit && Fmt.ofCode d.fmt == some .fp32))) 0x16
    let entry ← ringEntry ring.toNat 256
    M.until (c.xfers.all fun x => match x.op with | .xkvq .. => false | _ => true) (.device 21)
    xferLimit
    match entry with
    | .drains r off n => let _ ← readRing r off n
    | _ => pure ()
    let p := (c.readC .x ci).toNat
    let recent := t.addr + BitVec.ofNat 64 (p % t.wrows * t.pitch)
    let old := decide (t.wrows ≤ p)
    let rd ← if old then xPieces .xread (recent, 128) else pure []
    let wq ← if old then
        xPieces .xwrite (q.addr + BitVec.ofNat 64 ((p - t.wrows) * q.pitch), 8 * f.width + 2)
      else pure []
    let wr ← xPieces .xwrite (recent, 128)
    launch { (← transfer i td.toNat entry) with
      tdq := c.tdesc (td.toNat + 1)
      reads := if old then [{ row := 0, pieces := rd }] else []
      writes := (if old then [{ row := 0, pieces := wq }] else []) ++ [{ row := 1, pieces := wr }] }) s

/-! ### Reads of X before retirement, Frit fills and tables (R244, R245) -/

/-- The bytes of a range that X reads before it retires; `used` counts the answers of peers taken by earlier pieces. -/
def xLoad : List Piece → Nat → M (List Byte)
  | [], _ => return []
  | p :: rest, used => do
    let s ← get
    let die := dieOf s.me
    let c := s.core
    let pc := c.pcOf .x
    let got := match c.xwait with
      | .answered q _ got => if q = pc then got else []
      | _ => []
    if p.peer s die then
      match got[used]? with
      | some bs => return bs ++ (← xLoad rest (used + 1))
      | none =>
        match s.readPeer die (.xword s.me) p with
        | none => M.hold (.device 12)
        | some (ids, s') =>
          set (s'.mapCore fun c => { c with xwait := .peer pc ids got })
          M.keep (.device 12)
    else
      let bs ← liftR p.va (readPiece { core := s.me, st := .x, pc := pc, job := c.job } p)
      return bs ++ (← xLoad rest used)

/-- Hold while an answer to the word of X is out; take the trap that an answer brings (R239, R285). -/
def xGate : M Unit := do
  let c ← M.core
  match c.xwait with
  | .peer pc _ _ => if pc = c.pcOf .x then M.hold (.device 12)
  | .answered pc (some t) _ => if pc = c.pcOf .x then M.trap t
  | _ => pure ()

/-- Pieces cut so that each is read by one message. -/
def byMessage (ps : List Piece) : List Piece :=
  ps.flatMap fun p => (messages p.addr p.len).map fun c =>
    { p with va := p.va + BitVec.ofNat 64 (c.1 - p.addr), addr := c.1, len := c.2 }

/-- A transfer in flight that touches an SO page: the SO accesses of X are performed in program order (R268). -/
def Transfer.ordered (x : Transfer) : Bool :=
  !x.done && (x.reads ++ x.writes).any fun r => (r.pieces ++ r.seals.flatten).any fun p => p.kind == .so

/-- A range read by X before it retires. -/
def xRead (va : Dword) (n : Nat) : M (List Byte) := do
  xGate
  let ps ← xPieces .xread (va, n)
  let c ← M.core
  M.until (!(ps.any fun p => p.kind == .so) || !(c.xfers.any Transfer.ordered)) (.device 12)
  M.budgeted .x ps .read
  xLoad (byMessage ps) 0

/-- XFILL tdN, stN, ci. -/
def execXfill (sync : BitVec 4) (td : BitVec 3) (ring ci : BitVec 4) (s : State) : Host.Outcome State Fault Refusal :=
  let i : Instr := .xfill sync td ring ci
  runWord i .x sync (do
    let c ← M.core
    let t := TD.of (c.tdesc td.toNat)
    let d := c.desc ring.toNat
    xCheck (!t.reserved) 0x10
    xCheck (d.isFrit || d.size == 0) 0x11
    unsealed t
    let tile := (c.readC .x ci).toNat
    xCheck (tile < t.nt) 0x15
    let x := leNat (← xRead (t.addr + BitVec.ofNat 64 (4 * tile)) 8)
    let o0 := entryField x 0 4
    let o1 := entryField x 4 4
    xCheck (o0 % 4 == 0 && o1 % 4 == 0 && decide (4 * (t.nt + 1) ≤ o0) && decide (o0 < o1) && decide (o1 - o0 ≤ 4096)) 0x15
    let n := d.fritLen (o1 - o0)
    xCheck (d.size == 0 || decide (n ≤ d.size)) 0x12
    let entry ← ringRoom ring.toNat n
    xferLimit
    let codes ← xPieces .xread (t.addr + BitVec.ofNat 64 o0, o1 - o0)
    let scales ← if d.sstride = 0 then pure []
      else xPieces .xread (t.addr + BitVec.ofNat 64 (t.pitch + tile * d.scaleRegion), d.scaleRegion)
    launch { (← transfer i td.toNat entry) with
      tile := (tile, o1 - o0)
      reads := { row := 0, pieces := codes } :: (if d.sstride = 0 then [] else [{ row := 1, pieces := scales }]) }) s

/-- XFTL tdN, t. -/
def execXftl (sync : BitVec 4) (td table : BitVec 3) (s : State) : Host.Outcome State Fault Refusal :=
  runWord (.xftl sync td table) .x sync (do
    let t := TD.of ((← M.core).tdesc td.toNat)
    xCheck (!t.reserved && t.addr.toNat % 2 == 0) 0x10
    unsealed t
    let bs ← xRead t.addr 512
    match FritTable.ofImage bs with
    | none => M.trap { cls := 0x0F, detail := fritDetail 0 0 0 table.toNat 0 1 6 }
    | some f => do
      xferLimit
      launch { (← transfer (.xftl sync td table) td.toNat .none) with table := some f }) s

/-! ### XPEER (R239) -/

/-- The ranges of a window at another node, each of at most one message. -/
def peerRanges (c : Core) (t : TD) (rows : List Int) : List Range :=
  match t.span false with
  | none => []
  | some sp => (rows.filterMap (t.rowOf false)).flatMap fun r =>
      let g := t.rowRange sp r
      (messages g.1.toNat g.2).map fun m =>
        { dest := BitVec.ofNat 12 t.node, part := c.part, vf := c.vf.toNat, pasid := c.pasid
          va := BitVec.ofNat 64 m.1, len := m.2, write := false }

/-- The ranges asked for, all of them or none. -/
def State.askRanges (s : State) (die : Nat) (owner : Owner) (gs : List Range) : Option (List Nat × State) :=
  gs.foldlM (fun (a : List Nat × State) g =>
    (a.2.askRange die owner g (a.2.rangeReads die g)).map fun r => (a.1 ++ [r.1], r.2)) ([], s)

/-- The answered ranges of the word of X that runs. -/
def State.rangesOf (s : State) (k : Nat) : List Nat :=
  ((s.die (dieOf k)).reqs.filter fun r => r.owner == .xword k && r.range && !r.after.isEmpty).map (·.msgid)

/-- The ranges that a word asks for at a time; those of one batch are read while the next is asked for (assumption log
32). -/
def rangeBatch : Nat := 256

/-- The next ranges of XPEER asked for, as soon as there are identifiers for them. -/
def askNext (gs : List Range) (from0 : Nat) : M Ctl := do
  let s ← get
  match s.askRanges (dieOf s.me) (.xword s.me) ((gs.drop from0).take rangeBatch) with
  | none => M.keep (.device 12)
  | some (ids, s') => do
    set (s'.mapCore fun c => { c with xwait := .peer (c.pcOf .x) ids [], xasked := from0 + ids.length })
    M.keep (.device 12)

/-- The ranges of X's word that have been translated are read, for a transfer: what it then waits for. -/
def startAsked (t : Transfer) : M Transfer := do
  let s ← get
  let ids := s.rangesOf s.me
  set (ids.foldl (fun s id => s.startRange (dieOf s.me) id (.xfer s.me)) s)
  return { t with asks := t.asks ++ ids.map (·, none), waits := t.waits ++ ids }

/-- XPEER tdN, stN, ci: the word retires when every range has been translated at the node, so that a fault there is precise
(R239). -/
def execXpeer (sync : BitVec 4) (td : BitVec 3) (ring ci : BitVec 4) (s : State) : Host.Outcome State Fault Refusal :=
  let i : Instr := .xpeer sync td ring ci
  runWord i .x sync (do
    let c ← M.core
    let t := TD.of (c.tdesc td.toNat)
    xCheck t.ok 0x10
    let n := entryBytes (t.wrows * t.wcols) t.w
    ringCheck (c.desc ring.toNat) t.format n
    let rows := rowsFrom (t.row0 + c.ci ci) t.wrows
    xCheck (t.inside rows) 0x13
    unsealed t
    let s ← get
    let die := dieOf s.me
    xCheck (s.inNodeSet c.part.toNat t.node && bits t.addr 63 56 == 0xFE) 0x18
    match c.xwait with
    | .answered pc (some _) _ => if pc = c.pcOf .x then modify fun s => (s.dropRanges s.me).mapCore Core.dropEarly
    | _ => pure ()
    xGate
    let gs := peerRanges c t rows
    let answered := match c.xwait with | .answered _ _ _ => true | _ => false
    match c.xfers.find? (·.early) with
    | none => do
      let entry ← ringRoom ring.toNat n
      xferLimit
      let x := { (← transfer i td.toNat entry) with rows := rows, asked := true }
      if answered then do
        let x ← startAsked x
        if gs.length ≤ rangeBatch then launch x
        else do
          let _ ← launch { x with early := true }
          askNext gs rangeBatch
      else do
        modify fun s => s.dropRanges s.me
        if gs.isEmpty then launch x else askNext gs 0
    | some x =>
      if answered then do
        let x' ← startAsked x
        let more := decide (c.xasked < gs.length)
        M.mapCore fun c => { c with
          xwait := .none, xfers := c.xfers.map fun y => if y.early then { y with
            asks := y.asks ++ x'.asks.drop x.asks.length, waits := y.waits ++ x'.waits.drop x.waits.length, early := more } else y }
        if more then askNext gs c.xasked else return .next
      else askNext gs c.xasked) s

/-! ### Waiting and the scalar queue (R246, R247) -/

/-- XWAIT tdN. -/
def execXwait (sync : BitVec 4) (td : BitVec 3) (s : State) : Host.Outcome State Fault Refusal :=
  runWord (.xwait sync td) .x sync (do
    let c ← M.core
    M.until (c.xfers.all fun x => x.td != td.toNat) (.device 12)
    return .next) s

/-- XWAIT.ALL. -/
def execXwaitAll (sync : BitVec 4) (s : State) : Host.Outcome State Fault Refusal :=
  runWord (.xwaitAll sync) .x sync (do
    let c ← M.core
    M.until c.xfers.isEmpty (.device 12)
    return .next) s

/-- XQGET cd. -/
def execXqget (sync cd : BitVec 4) (s : State) : Host.Outcome State Fault Refusal :=
  runWord (.xqget sync cd) .x sync (do
    let x ← popScalar 3
    M.mapCore fun c => c.writeC .x cd x
    return .next) s

end Sys2Proof.Machine
end

