-- ==== Sys2Proof/Machine/Complete.lean ====
section
/-! DEFINITION. The completion of transfers (R235 to R245, R381, R413): what each reads, the entry or the bytes it forms,
what it writes, and the rings it advances. -/

namespace Sys2Proof.Machine

/-! ### Errors of a transfer -/

/-- KIND and CODE of a record, and the VA it names. -/
abbrev XErr := Nat × Nat × Dword

/-- A computation of a transfer that may meet an error. -/
abbrev X (α : Type) := ExceptT XErr (StateM State) α

/-- An access at a piece: its error names the piece. -/
def atPiece {α : Type} (p : Piece) (r : R α) : X α := do
  match r.run.run (← get) with
  | (.ok a, s) => set s; return a
  | (.error e, s) => set s; throw (e.kindCode.1, e.kindCode.2, p.va)

/-! ### Sealed host tiles (R238, R381) -/

/-- The nonce of a host tile. -/
def hostNonce (node : Nat) (hctr : Dword) : BitVec 96 :=
  (0x80#96 <<< 88) ||| (BitVec.ofNat 96 node <<< 76) ||| hctr.setWidth 96

/-- The associated data of a host tile. -/
def hostAad (part key : BitVec 4) (gen : Nat) (pasid : BitVec 20) (va : Dword) : List Byte :=
  leBytes 16 (2 + 2 ^ 8 * (part.toNat * 16 + key.toNat) + 2 ^ 16 * gen + 2 ^ 24 * pasid.toNat + 2 ^ 64 * va.toNat)

/-- A tile opened with its metadata: its bytes, or the seal reason. -/
def openTile (k : KeySlot) (part key : BitVec 4) (pasid : BitVec 20) (va : Dword) (cipher md : List Byte) :
    Except Nat (List Byte) :=
  let m := leNat md
  let gen := entryField m 26 1
  if 2 ≤ gen ∨ 2 ^ 12 ≤ entryField m 24 2 ∨ entryField m 27 5 ≠ 0 then .error 4
  else if !vget k.full false gen then .error 2
  else
    let v := vget k.val 0 gen
    let nonce := hostNonce (entryField m 24 2) (BitVec.ofNat 64 (entryField m 16 8))
    if gcmTag v nonce (hostAad part key gen pasid va) cipher = BitVec.ofNat 128 (entryField m 0 16) then
      .ok (gcmStream v nonce cipher)
    else .error 1

/-- A tile sealed under the current generation of a slot: its ciphertext and its metadata. -/
def closeTile (k : KeySlot) (node : Nat) (part key : BitVec 4) (pasid : BitVec 20) (va : Dword) (plain : List Byte) :
    List Byte × List Byte :=
  let gen := if k.cur then 1 else 0
  let v := vget k.val 0 gen
  let h := vget k.hctr 0 gen
  let nonce := hostNonce node h
  let cipher := gcmStream v nonce plain
  let tag := gcmTag v nonce (hostAad part key gen pasid va) cipher
  (cipher, leBytes 16 tag.toNat ++ leBytes 8 h.toNat ++ leBytes 2 node ++ leBytes 1 gen ++ leBytes 5 0)

/-! ### Reading (R233, R237) -/

/-- The bytes of pieces in order; those at peers come from the answers, which are taken in order. -/
def readParts (ag : Agent) : List Piece → List (List Byte) → X (List Byte × List (List Byte))
  | [], q => return ([], q)
  | p :: rest, q => do
    let (bs, q) ← (do
      if p.peer (← get) (dieOf ag.core) then
        let n := (messages p.addr p.len).length
        return ((q.take n).flatten, q.drop n)
      else return (← atPiece p (readPiece ag p), q) : X (List Byte × List (List Byte)))
    let (more, q) ← readParts ag rest q
    return (bs ++ more, q)

/-- The tiles of a sealed row opened. -/
def openRow (ag : Agent) (t : TD) (x : XRow) (cipher : List Byte) : X (List Byte) := do
  let c := (← get).coreAt ag.core
  let va := (x.pieces.map (·.va)).headD 0
  let tiles ← (x.seals.zipIdx).mapM fun m => do
    let (md, _) ← readParts ag m.1 []
    let slot := (← get).keySlot (dieOf ag.core) c.part t.key
    let here := va + BitVec.ofNat 64 (2048 * m.2)
    match openTile slot c.part t.key c.pasid here ((cipher.drop (2048 * m.2)).take 2048) md with
    | .ok bs => pure bs
    | .error r => throw (1, r, here)
  return tiles.flatten

/-- Every row that a transfer reads: its number and its bytes as one number. -/
def readRows (ag : Agent) (t : TD) : List XRow → List (List Byte) → X (List (Nat × Nat))
  | [], _ => return []
  | x :: rest, q => do
    let (bs, q) ← readParts ag x.pieces q
    let bs ← if x.seals.isEmpty then pure bs else openRow ag t x bs
    return (x.row, leNat bs) :: (← readRows ag t rest q)

/-- The rows that the answers of an XPEER bring (R239). -/
def peerRows (t : TD) (rows : List Int) (q : List (List Byte)) : List (Nat × Nat) :=
  match t.span false with
  | none => []
  | some sp => ((rows.zipIdx.filterMap fun r => (t.rowOf false r.1).map fun m => (r.2, m)).foldl
      (fun (a : List (Nat × Nat) × List (List Byte)) r =>
        let g := t.rowRange sp r.2
        let n := (messages g.1.toNat g.2).length
        (a.1 ++ [(r.1, leNat (a.2.take n).flatten)], a.2.drop n)) ([], q)).1

/-! ### Forming an entry (R233, R239 to R244) -/

/-- Elem(i, j) of a window from the rows read. -/
def TD.elem (t : TD) (rows : List Int) (data : List (Nat × Nat)) (i j : Nat) : Nat :=
  match t.span false, (data.find? fun d => d.1 == i) with
  | some sp, some d =>
    let r := rows.getD i 0
    let c := t.col0 + j
    let there := decide (0 ≤ r) && decide (r < t.rows) && decide (0 ≤ c) && decide (c < t.cols)
    if there ∨ t.pad = 1 then
      let c := (max 0 (min c (t.cols - 1))).toNat
      (d.2 >>> (c * t.w - 8 * (sp.1 * t.w / 8))) % 2 ^ t.w
    else 0
  | _, _ => 0

/-- Codes of `w` bits packed into `n` bytes, zero beyond them. -/
def packBytes (w n : Nat) (codes : List Nat) : List Byte :=
  leBytes n (codes.foldr (fun c acc => c % 2 ^ w + 2 ^ w * acc) 0)

/-- The elements of a window, row by row, or column by column. -/
def TD.elements (t : TD) (n : Nat) (rows : List Int) (data : List (Nat × Nat)) (byColumn : Bool) : List Nat :=
  if byColumn then (List.range t.wcols).flatMap fun j => (List.range n).map fun i => t.elem rows data i j
  else (List.range n).flatMap fun i => (List.range t.wcols).map fun j => t.elem rows data i j

/-- One element of XCVT (R240). -/
def cvtCode (t : TD) (f : Fmt) (rnd : BitVec 2) (ovf inf ts : BitVec 1) (x : Nat) : Nat :=
  let v := t.format.decode (inf == 1) x
  let v := if ts = 1 then v.div (Fmt.bf16.decode true t.tscale) else v
  f.round (Rnd.ofCode rnd) (ovf == 1) (inf == 1) v

/-- The scale positions of an XCVT entry (R202, R240). -/
def cvtScales (d : Desc) (f : Fmt) (sc : Nat) : Nat :=
  (List.range (64 * d.scales)).foldl (fun a n => a + sc * 2 ^ (8 * (codeBytes f + n * d.sstride))) 0

/-- The bytes that a producer writes into its ring. -/
def Transfer.entry (x : Transfer) (d : Desc) (len : Nat) (data : List (Nat × Nat)) : List Byte :=
  let t := TD.of x.tdv
  match x.op with
  | .xcvt _ _ _ _ fmt rnd ovf inf tr ts =>
    let f := (Fmt.ofCode fmt).getD .fp32
    let codes := (t.elements t.wrows x.rows data (tr == 1)).map (cvtCode t f rnd ovf inf ts)
    let body := codes.foldr (fun c acc => c % 2 ^ f.width + 2 ^ f.width * acc) 0
    leBytes len (body + if d.sstride = 0 then 0 else cvtScales d f (if ts = 1 then t.tscale else 0x3F80))
  | .xwopen .. => slide t
  | .xwadv .. => slide t
  | .xfill .. =>
    let part (n : Nat) : Nat := ((data.find? fun p => p.1 == n).map (·.2)).getD 0
    leBytes len (x.tile.1 % 2 ^ 32 + 2 ^ 32 * x.tile.2 + 2 ^ 64 * part 0 + 2 ^ (8 * fritScales x.tile.2) * part 1)
  | _ => packBytes t.w len (t.elements t.wrows x.rows data false)
where
  /-- One row to an entry (R242). -/
  slide (t : TD) : List Byte :=
    (List.range x.rows.length).flatMap fun i =>
      packBytes t.w (entryBytes t.wcols t.w) ((List.range t.wcols).map fun j => t.elem x.rows data i j)

/-! ### Forming what a consumer writes (R233, R239, R241, R243) -/

/-- The part of an entry that one window row writes. -/
def TD.rowOut (t : TD) (entry : Nat) (badByte : Nat → Bool) (x : XRow) : RowOut :=
  match t.span true with
  | none => { pieces := [], bytes := [] }
  | some (lo, hi) =>
    let e := x.row * t.wcols + (lo - t.col0).toNat
    let n := hi + 1 - lo
    let k := (n * t.w + 7) / 8
    let size := max 1 (t.w / 8)
    let bad (b : Nat) : Bool := (List.range size).any fun m => badByte (e * t.w / 8 + b / size * size + m)
    { pieces := x.pieces, bytes := leBytes k ((entry >>> (e * t.w)) % 2 ^ (n * t.w)), low := t.w == 4 && n % 2 == 1
      bad := (List.range k).map bad, seals := x.seals }

/-- The codes and the scale of a row that leaves the window (R243). -/
def kvRow (f : Fmt) (rnd : BitVec 2) (ovf : BitVec 1) (old : List Nat) : List Byte :=
  let mags := old.map fun x => x % 2 ^ 15
  let top := mags.foldl max 0
  let dec (x : Nat) : Num := Fmt.bf16.decode true x
  let scCodes : Nat × List Nat :=
    if 0x7F80 ≤ top then (0x7FC0, old.map fun _ => f.nan)
    else if top = 0 then (0x3F80, old.map fun _ => 0)
    else
      let sc := Fmt.bf16.round .rup true true ((dec top).div f.maxFinite)
      (sc, old.map fun x => f.round (Rnd.ofCode rnd) (ovf == 1) false ((dec x).div (dec sc)))
  packBytes f.width (8 * f.width) scCodes.2 ++ leBytes 2 scCodes.1

/-- The rows that a consumer writes. -/
def Transfer.out (x : Transfer) (entry : Nat) (badByte : Nat → Bool) (data : List (Nat × Nat)) : List RowOut :=
  let t := TD.of x.tdv
  match x.op with
  | .xkvq _ _ _ _ fmt rnd ovf =>
    let f := (Fmt.ofCode fmt).getD .fp32
    let new := (List.range 64).flatMap fun j => leBytes 2 (roundBF16 (Fmt.fp32.decode true (entryField entry (4 * j) 4)))
    let old := ((data.head?).map (·.2)).getD 0
    x.writes.map fun w =>
      if w.row = 0 then
        { pieces := w.pieces, bytes := kvRow f rnd ovf ((List.range 64).map fun j => entryField old (2 * j) 2) }
      else { pieces := w.pieces, bytes := new }
  | _ => x.writes.map (t.rowOut entry badByte)

/-! ### Writing (R233, R237, R413) -/

/-- The bytes of a piece once its last one has been merged with the nibble that memory holds (R233). -/
def mergeLow (s : State) (p : Piece) (bs : List Byte) : List Byte :=
  let old := (p.raw s).getLastD 0
  bs.dropLast ++ [(old &&& 0xF0) ||| (bs.getLastD 0 &&& 0x0F)]

/-- A local piece of a row written; the error of an unreadable element is reported once it has landed (R413). -/
def writeLocal (ag : Agent) (p : Piece) (bs : List Byte) (low : Bool) (bad : List Bool) : X Unit := do
  let s ← get
  let bs := if low then mergeLow s p bs else bs
  if bad.any id then
    match p.place with
    | .host _ => modify fun s => (bs.zip bad).zipIdx.foldl (fun s b =>
        if b.1.2 then s else s.writeBytes (Key.host (p.addr + b.2)) [b.1.1] ag.writer) s
    | _ => do
      atPiece p (writePiece ag p bs)
      modify fun s => s.poisonBytes p bad
    throw (1, 0x11, p.va)
  else atPiece p (writePiece ag p bs)

/-- A sealed row written: each tile with its metadata; a seal that is refused ends it (R381). A tile with an element that X
could not read cannot be sealed without it, and none of it is written, which R413 leaves open (DESIGN CHOICE, assumption
log 67). -/
def writeSealed (ag : Agent) (t : TD) (r : RowOut) : X Unit := do
  let die := dieOf ag.core
  let c := (← get).coreAt ag.core
  let va := (r.pieces.map (·.va)).headD 0
  let bad (k : Nat) : Bool := ((r.bad.drop (2048 * k)).take 2048).any id
  for m in r.seals.zipIdx.filter fun m => !bad m.2 do
    let slot := (← get).keySlot die c.part t.key
    let gen := if slot.cur then 1 else 0
    let here := va + BitVec.ofNat 64 (2048 * m.2)
    if vget slot.hctr 0 gen = BitVec.allOnes 64 then throw (2, 0x20, here)
    let plain := (r.bytes.drop (2048 * m.2)).take 2048
    let (cipher, md) := closeTile slot ((← get).nodeOf die) c.part t.key c.pasid here plain
    let slot' := { slot with hctr := vset slot.hctr gen (vget slot.hctr 0 gen + 1) }
    modify fun s => s.mapDie die fun d => { d with keys := Tab.set d.keys (c.part.toNat * 16 + t.key.toNat) slot' }
    for o in offsets m.1 do atPiece o.2 (writePiece ag o.2 ((md.drop o.1).take o.2.len))
    for o in offsets (cutPieces r.pieces (2048 * m.2) 2048) do
      atPiece o.2 (writePiece ag o.2 ((cipher.drop o.1).take o.2.len))
  match (List.range r.seals.length).find? bad with
  | some k => throw (1, 0x11, va + BitVec.ofNat 64 (2048 * k))
  | none => pure ()

/-- Everything that a consumer writes on its own die, in element order; the first error is kept and the rest goes on. -/
def State.writeRows (s : State) (ag : Agent) (t : TD) (rs : List RowOut) : Option XErr × State :=
  let run (acc : Option XErr × State) (x : X Unit) : Option XErr × State :=
    match x.run.run acc.2 with
    | (.ok _, s) => (acc.1, s)
    | (.error e, s) => (if acc.1.isSome then acc.1 else some e, s)
  rs.foldl (fun acc r =>
    if !r.seals.isEmpty then run acc (writeSealed ag t r)
    else (offsets r.pieces).foldl (fun acc o =>
      if o.2.peer acc.2 (dieOf ag.core) then acc
      else run acc (writeLocal ag o.2 ((r.bytes.drop o.1).take o.2.len) (r.low && o.1 + o.2.len == r.bytes.length)
        ((r.bad.drop o.1).take o.2.len))) acc) (none, s)

/-- The parts of pieces and their bytes that lie at peers, each of one message. -/
def partsOf (s : State) (k : Nat) (ps : List Piece) (part : Nat → Piece → XPart) : List XPart :=
  (offsets ps).flatMap fun o =>
    if o.2.peer s (dieOf k) then (byMessage [o.2]).map fun p => part (o.1 + (p.addr - o.2.addr)) p else []

/-- What a consumer writes at peers. -/
def peerWrites (s : State) (k : Nat) (rs : List RowOut) : List XPart :=
  rs.flatMap fun r => partsOf s k r.pieces fun o p =>
    { piece := p, bytes := (r.bytes.drop o).take p.len, low := r.low && o + p.len == r.bytes.length
      bad := (r.bad.drop o).take p.len }

/-- The message of a part, where it need not wait. -/
def State.sendPart (s : State) (k : Nat) (x : Transfer) (p : XPart) : Option (List Nat × State) :=
  if x.sent then
    s.writePeer (dieOf k) (.xfer k) p.piece p.bytes { low := p.low, bad := p.bad }
      (some { core := k, st := .x, pc := x.pc, job := x.job })
  else s.readPeer (dieOf k) (.xfer k) p.piece

/-- A transfer replaced in its core's list. -/
def State.putXfer (s : State) (k n : Nat) (x : Transfer) : State :=
  let c := s.coreAt k
  s.putCore k { c with xfers := c.xfers.set n x }

/-- The parts of a transfer sent, up to the first that must wait (R17, R140). -/
def State.sendParts (s : State) (k n : Nat) (x : Transfer) : List XPart → Transfer × State
  | [] => ({ x with unsent := [] }, s)
  | p :: rest =>
    match (if ((s.putXfer k n x).coreAt k).outstanding < allowance then s.sendPart k x p else none) with
    | none => ({ x with unsent := p :: rest }, s)
    | some (ids, s) =>
      State.sendParts s k n
        { x with asks := if x.sent then x.asks else x.asks ++ ids.map (·, none), waits := x.waits ++ ids } rest

/-! ### The end of a transfer (R235, R236) -/

/-- What the end of a transfer does to its ring: an entry of a failed producer, and every later one of its ring, never
becomes complete. -/
def Core.ringEnd (c : Core) (x : Transfer) : Core :=
  match x.ring with
  | .fills r _ n =>
    if x.bad.isSome ∨ c.blocked.getLsbD r then { c with blocked := c.blocked ||| (1#16 <<< r) }
    else c.setDesc r (((c.desc r).release n).completeBytes n)
  | .drains r _ n => c.setDesc r ((c.desc r).popBytes n)
  | .none => c

/-- The rings of a transfer, and those of the transfers before it that have not ended. -/
def XRing.number : XRing → List Nat
  | .fills r _ _ => [r]
  | .drains r _ _ => [r]
  | .none => []

/-- Every transfer that is done, with no earlier one of its ring still in flight, leaves the list (R236). -/
def Core.settleXfers (c : Core) : Core :=
  let step (acc : Core × List Transfer × List Nat) (x : Transfer) : Core × List Transfer × List Nat :=
    let r := x.ring.number
    if x.done ∧ !(r.any fun k => acc.2.2.contains k) then (acc.1.ringEnd x, acc.2.1, acc.2.2)
    else (acc.1, acc.2.1 ++ [x], acc.2.2 ++ r)
  let out := c.xfers.foldl step (c, [], [])
  { out.1 with xfers := out.2.1, stall := 0 }

/-- A transfer ends: its error is reported, its table installed, its ring advanced. R235's record names the descriptor, for
which the layout of R400 has no field: the model records none (DESIGN CHOICE, assumption log 73). -/
def State.endXfer (s : State) (k n : Nat) (x : Transfer) : State :=
  let s := match x.bad with
    | some (kind, code, va) => s.async k { syn := arsyn kind code 1 0, addr := x.pc, det := va, job := x.job }
    | none => s
  let s := s.putXfer k n { x with done := true }
  let c := s.coreAt k
  let c := match x.op, x.table with
    | .xftl _ _ table, some f => { c with frit := vset c.frit table.toNat f }
    | _, _ => c
  s.putCore k c.settleXfers

/-- The agent of a transfer's accesses. -/
def Transfer.agent (x : Transfer) (k : Nat) : Agent := { core := k, st := .x, pc := x.pc, job := x.job }

/-- The pieces of a transfer's rows that lie on its own die. -/
def State.localPieces (s : State) (k : Nat) (rs : List XRow) : List Piece :=
  (rs.flatMap (·.pieces)).filter fun p => !p.peer s (dieOf k)

/-- What a transfer's accesses on its own die ask of the budgets: its reads, and the writes of one that has none at peers
or whose writes at peers have been acknowledged. -/
def State.xferUnits (s : State) (k : Nat) (x : Transfer) : List Units :=
  let reads := if x.sent then [] else (s.localPieces k x.reads).flatMap fun p => s.unitsOf p .read
  let writes := if x.sent || !(x.writes.flatMap (·.pieces)).any (fun p => p.peer s (dieOf k)) then
    (s.localPieces k x.writes).flatMap fun p => s.unitsOf p .write else []
  reads ++ writes

/-- The rows of a consumer written on its own die, and its end (R237). -/
def State.closeXfer (s : State) (k n : Nat) (x : Transfer) (rs : List RowOut) : State :=
  let (bad, s) := s.writeRows (x.agent k) (TD.of x.tdv) rs
  s.endXfer k n { x with outs := [], bad := if x.bad.isSome then x.bad else bad }

/-- The accesses of a transfer whose reads have been answered: it ends, or it has writes at peers to send first. -/
def State.moveXfer (s : State) (k n : Nat) (x : Transfer) : State :=
  let q := x.asks.map fun a => a.2.getD []
  let read : X (List (Nat × Nat)) := match x.op with
    | .xpeer .. => pure (peerRows (TD.of x.tdv) x.rows q)
    | _ => readRows (x.agent k) (TD.of x.tdv) x.reads q
  match read.run.run s with
  | (.error e, s) => s.endXfer k n { x with bad := some e }
  | (.ok data, s) =>
    let d (r : Nat) : Desc := (s.coreAt k).desc r
    match x.ring with
    | .none => s.endXfer k n x
    | .fills r off len => (s.ringStore k (d r) off (x.entry (d r) len data)).endXfer k n x
    | .drains r off len =>
      let badByte (b : Nat) : Bool := wordBad (Tab.get [] s.ecc (wordKey (Key.scratch k ((d r).at off b))))
      let rows := x.out (leNat (s.ringBytes k (d r) off len)) badByte data
      match peerWrites s k rows with
      | [] => s.closeXfer k n x rows
      | parts =>
        let bad := (parts.find? fun p => p.bad.any id).map fun p => (1, 0x11, p.piece.va)
        s.putXfer k n { x with sent := true, outs := rows, unsent := parts, bad := if x.bad.isSome then x.bad else bad }

/-- An XFTL, an XFILL or a transfer on SO pages waits for an earlier transfer that R223 or R268 orders before it. -/
def Transfer.behind (x : Transfer) (earlier : List Transfer) : Bool :=
  (match x.op with
    | .xfill .. => earlier.any fun y => y.table.isSome
    | .xftl .. => earlier.any fun y => y.table.isSome
    | _ => false) || (x.ordered && earlier.any Transfer.ordered)

/-- No transfer of the core that a budget held before this one waits still (R130). -/
def Core.firstXfer (c : Core) (n : Nat) (x : Transfer) : Bool :=
  c.xfers.zipIdx.all fun y => match y.1.held, x.held with
    | none, _ => true
    | some _, none => y.1.done
    | some a, some b => y.1.done || decide (b.toNat < a.toNat) || (a == b && decide (n ≤ y.2))

/-- A transfer would read what another one in flight has begun to write at peers: it waits for that one's end (R237). -/
def State.meetsWrites (s : State) (core n : Nat) (x : Transfer) : Bool :=
  piecesMeet (x.reads.flatMap (·.pieces)) (s.landing core n)

/-- The accesses of a transfer on its own die, once the budgets allow them. -/
def State.admitXfer (s : State) (k n : Nat) (x : Transfer) (go : State → Transfer → State) : State :=
  let wait (s : State) : State := if x.held.isSome then s else s.putXfer k n { x with held := some s.kiln }
  if !(s.coreAt k).firstXfer n x then wait s
  else match s.admitUnits (holdNo k 5) (s.xferUnits k x) with
    | .error s => wait s
    | .ok s => go s { x with held := none }

/-- TRANSFER_COMPLETION (R235, R236): a transfer of a core sends what it needs from peers; once answered it performs its
reads, then sends its writes at peers; once those are acknowledged it writes on its own die and ends (R237). -/
def execTransferCompletion (core n : Nat) (s : State) : Host.Outcome State Fault Refusal :=
  if 1024 ≤ core then .fault .noSuchUnit
  else
    let c := s.coreAt core
    match c.xfers[n]? with
    | none => .next s
    | some x =>
      if x.done ∨ x.early ∨ x.behind (c.xfers.take n) then .next s
      else if x.bad.isSome ∧ !x.sent ∧ !x.unsent.isEmpty then .next (s.putXfer core n { x with unsent := [] })
      else if !x.sent ∧ s.meetsWrites core n x then .next s
      else if !x.unsent.isEmpty then
        let (x, s) := s.sendParts core n x x.unsent
        .next (s.putXfer core n x)
      else if !x.waits.isEmpty then .next (s.startReady (dieOf core))
      else if x.sent then .next (s.admitXfer core n x fun s x => s.closeXfer core n x x.outs)
      else if x.bad.isSome then .next (s.endXfer core n x)
      else if !x.asked ∧ x.reads.any (fun r => r.pieces.any fun p => p.peer s (dieOf core)) then
        .next (s.putXfer core n { x with asked := true
                                         unsent := partsOf s core (x.reads.flatMap (·.pieces)) fun _ p => { piece := p } })
      else .next (s.admitXfer core n x fun s x => s.moveXfer core n x)

end Sys2Proof.Machine
end

