-- ==== Sys2Proof/Machine/Flags.lean ====
section
/-! DEFINITION. The machine has no flags: this file holds the comparisons that stand in their place, the condition codes
of the branches (R31). -/

namespace Sys2Proof.Machine

/-- Cond(code, a, b) of R31; codes 0x8 to 0xF are refused at decode. -/
def condHolds (code : BitVec 4) (a b : Dword) : Bool :=
  match code.toNat with
  | 0 => a == b
  | 1 => a != b
  | 2 => a.slt b
  | 3 => !a.slt b
  | 4 => a.ult b
  | 5 => !a.ult b
  | 6 => a &&& b != 0
  | 7 => a &&& b == 0
  | _ => false

end Sys2Proof.Machine
end

