-- ==== Sys2Proof/Machine/Control.lean ====
section
/-! DEFINITION. Control flow and synchronisation: branches, hardware loops, the scalar words of X and V, rendezvous and
no-op words, tokens, named barriers, monitors, and the clock words (R94 to R110). -/

namespace Sys2Proof.Machine

/-! ### Branches (R95) -/

/-- A branch target: a word offset from the branch itself. -/
def Core.target {w : Nat} (c : Core) (st : Stream) (off : BitVec w) : Dword := c.pcOf st + off.signExtend 64 * 4

/-- Where a conditional branch goes. -/
def branchIf (b : Bool) (t : Dword) : Ctl := if b then .branch t else .next

/-- BCC.cond gs1, gs2, label. -/
def execBcc (cond : BitVec 4) (gs1 gs2 : BitVec 5) (off : BitVec 11) (s : State) : Host.Outcome State Fault Refusal :=
  runReg (.bcc cond gs1 gs2 off)
    (fun c => if condHolds cond (c.readG gs1) (c.readG gs2) then 0 else c.loopBack) (do
    let c ← M.core
    return branchIf (condHolds cond (c.readG gs1) (c.readG gs2)) (c.target .s off)) s

/-- A conditional branch of X, M or V on its own c registers. -/
def branchBody {w : Nat} (st : Stream) (cond ca cb : BitVec 4) (off : BitVec w) : M Ctl := do
  let c ← M.core
  return branchIf (condHolds cond (c.readC st ca) (c.readC st cb)) (c.target st off)

/-- VBCC.cond ca, cb, label. -/
def execVbcc (sync cond ca cb : BitVec 4) (off : BitVec 10) (s : State) : Host.Outcome State Fault Refusal :=
  runWord (.vbcc sync cond ca cb off) .v sync (branchBody .v cond ca cb off) s

/-- MBCC.cond ca, cb, label. -/
def execMbcc (sync cond ca cb : BitVec 4) (off : BitVec 12) (s : State) : Host.Outcome State Fault Refusal :=
  runWord (.mbcc sync cond ca cb off) .m sync (branchBody .m cond ca cb off) s

/-- XBCC.cond ca, cb, label. -/
def execXbcc (sync cond ca cb : BitVec 4) (off : BitVec 8) (s : State) : Host.Outcome State Fault Refusal :=
  runWord (.xbcc sync cond ca cb off) .x sync (branchBody .x cond ca cb off) s

/-- J label. -/
def execJ (off : BitVec 25) (s : State) : Host.Outcome State Fault Refusal :=
  runReg (.j off) (fun _ => 0) (do return .branch ((← M.core).target .s off)) s

/-- JL label: the link goes to g1. -/
def execJl (off : BitVec 25) (s : State) : Host.Outcome State Fault Refusal :=
  runReg (.jl off) (fun _ => 1) (do
    let c ← M.core
    M.mapCore fun c => c.writeG 1 (c.spc + 4)
    return .call (c.target .s off)) s

/-- The target of JR and JLR: a misaligned one faults at the jump. -/
def jumpTarget (gs1 : BitVec 5) (imm : BitVec 15) : M Dword := do
  let t := (← M.core).readG gs1 + imm.signExtend 64 * 4
  M.check (t.toNat % 4 == 0) { cls := 0x09 }
  return t

/-- JR gs1, imm. -/
def execJr (gs1 : BitVec 5) (imm : BitVec 15) (s : State) : Host.Outcome State Fault Refusal :=
  runReg (.jr gs1 imm) (fun _ => 0) (do return .branch (← jumpTarget gs1 imm)) s

/-- JLR gd, gs1, imm: the target is formed before gd is written. -/
def execJlr (gd gs1 : BitVec 5) (imm : BitVec 15) (s : State) : Host.Outcome State Fault Refusal :=
  runReg (.jlr gd gs1 imm) (fun _ => gWrite gd) (do
    let t ← jumpTarget gs1 imm
    M.mapCore fun c => c.writeG gd (c.spc + 4)
    return .call t) s

/-! ### Hardware loops (R96, R97) -/

/-- LoopWord(A, count, L). -/
def loopBody (st : Stream) (count : Dword) (len : Nat) : M Ctl := do
  let c ← M.core
  match (c.loop st).start (c.pcOf st) count len with
  | none => M.trap { cls := 0x0A }
  | some (l, t) => return .looped l t

/-- The log entries of a loop word of S: the entry it pushes, or the one its end test changes (R397). -/
def loopWrites (count : Dword) (len : Nat) (c : Core) : Nat :=
  match (c.loop .s).start c.spc count len with
  | none => 0
  | some (l, _) => if l.ent = (c.loop .s).ent then 0 else 1

/-- LOOP gs1, label. -/
def execLoop (gs1 : BitVec 5) (len : BitVec 15) (s : State) : Host.Outcome State Fault Refusal :=
  runReg (.loop gs1 len) (fun c => loopWrites (c.readG gs1) len.toNat c) (do loopBody .s ((← M.core).readG gs1) len.toNat) s

/-- LOOPI count, label. -/
def execLoopi (count len : BitVec 10) (s : State) : Host.Outcome State Fault Refusal :=
  runReg (.loopi count len) (loopWrites (count.setWidth 64) len.toNat) (loopBody .s (count.setWidth 64) len.toNat) s

/-- VLOOP cN, label. -/
def execVloop (sync cn : BitVec 4) (len : BitVec 10) (s : State) : Host.Outcome State Fault Refusal :=
  runWord (.vloop sync cn len) .v sync (do loopBody .v ((← M.core).readC .v cn) len.toNat) s

/-- MLOOP cN, label. -/
def execMloop (sync cn : BitVec 4) (len : BitVec 10) (s : State) : Host.Outcome State Fault Refusal :=
  runWord (.mloop sync cn len) .m sync (do loopBody .m ((← M.core).readC .m cn) len.toNat) s

/-- XLOOP cN, label. -/
def execXloop (sync cn : BitVec 4) (len : BitVec 10) (s : State) : Host.Outcome State Fault Refusal :=
  runWord (.xloop sync cn len) .x sync (do loopBody .x ((← M.core).readC .x cn) len.toNat) s

/-! ### Scalar words of X and V (R99) -/

/-- A word that computes one c register of its stream. -/
def cBody (st : Stream) (cd : BitVec 4) (f : Core → Dword) : M Ctl := do
  M.mapCore fun c => c.writeC st cd (f c)
  return .next

/-- XCLI cd, imm. -/
def execXcli (sync cd : BitVec 4) (imm : BitVec 16) (s : State) : Host.Outcome State Fault Refusal :=
  runWord (.xcli sync cd imm) .x sync (cBody .x cd fun _ => imm.signExtend 64) s

/-- XCADD cd, ca, imm. -/
def execXcadd (sync cd ca : BitVec 4) (imm : BitVec 12) (s : State) : Host.Outcome State Fault Refusal :=
  runWord (.xcadd sync cd ca imm) .x sync (cBody .x cd fun c => c.readC .x ca + imm.signExtend 64) s

/-- XCMUL cd, ca, cb. -/
def execXcmul (sync cd ca cb : BitVec 4) (s : State) : Host.Outcome State Fault Refusal :=
  runWord (.xcmul sync cd ca cb) .x sync (cBody .x cd fun c => c.readC .x ca * c.readC .x cb) s

/-- VCLI cd, imm. -/
def execVcli (sync cd : BitVec 4) (imm : BitVec 18) (s : State) : Host.Outcome State Fault Refusal :=
  runWord (.vcli sync cd imm) .v sync (cBody .v cd fun _ => imm.signExtend 64) s

/-- VCADD cd, ca, imm. -/
def execVcadd (sync cd ca : BitVec 4) (imm : BitVec 14) (s : State) : Host.Outcome State Fault Refusal :=
  runWord (.vcadd sync cd ca imm) .v sync (cBody .v cd fun c => c.readC .v ca + imm.signExtend 64) s

/-! ### Rendezvous and no-op words (R84, R98, R100, R101) -/

/-- A stream arrives at its REND: the first of the four makes the core RENDEZVOUS (R82). -/
def rendBody : M Ctl := do
  M.mapCore fun c => if c.state = .running then { c with state := .rendezvous } else c
  return .arrive

/-- REND. -/
def execRend (s : State) : Host.Outcome State Fault Refusal := runOther .rend 0 rendBody s

/-- VREND. -/
def execVrend (sync : BitVec 4) (s : State) : Host.Outcome State Fault Refusal := runWord (.vrend sync) .v sync rendBody s

/-- MREND. -/
def execMrend (sync : BitVec 4) (s : State) : Host.Outcome State Fault Refusal := runWord (.mrend sync) .m sync rendBody s

/-- XREND. -/
def execXrend (sync : BitVec 4) (s : State) : Host.Outcome State Fault Refusal := runWord (.xrend sync) .x sync rendBody s

/-- NOP. -/
def execNop (s : State) : Host.Outcome State Fault Refusal := runReg .nop Core.loopBack (pure .next) s

/-- YIELD: the effect of NOP. -/
def execYield (s : State) : Host.Outcome State Fault Refusal := runReg .yield Core.loopBack (pure .next) s

/-- VNOP. -/
def execVnop (sync : BitVec 4) (s : State) : Host.Outcome State Fault Refusal := runWord (.vnop sync) .v sync (pure .next) s

/-- MNOP. -/
def execMnop (sync : BitVec 4) (s : State) : Host.Outcome State Fault Refusal := runWord (.mnop sync) .m sync (pure .next) s

/-- XNOP. -/
def execXnop (sync : BitVec 4) (s : State) : Host.Outcome State Fault Refusal := runWord (.xnop sync) .x sync (pure .next) s

/-! ### Token words (R102) -/

/-- A release of S's earlier accesses, at CORE scope by TKPOST and at CLU scope by an arrival (R102, R106): it waits for
those still pending. -/
def arriveRelease : M Unit := do M.until (← M.core).performed (.device 12)

/-- TKWAIT: an S word that carries wait bits. -/
def execTkwait (left right : BitVec 1) (s : State) : Host.Outcome State Fault Refusal :=
  untrapped (.tkwait left right) s (runOther (.tkwait left right) (left ++ right ++ 0#2) (pure .next))

/-- TKPOST: an S word that carries post bits, and a release. -/
def execTkpost (left right : BitVec 1) (s : State) : Host.Outcome State Fault Refusal :=
  untrapped (.tkpost left right) s (runOther (.tkpost left right) (0#2 ++ left ++ right) (do
    arriveRelease
    return .next))

/-! ### Named barriers (R103 to R106) -/

/-- A barrier of a core. -/
def Core.barrier (c : Core) (k : Nat) : Barrier := vget c.bar {} k

/-- A barrier name resolved to its core and index, with its operand errors and the barrier-access fault (R103). -/
def barrierName (name : Dword) (own badCount : Bool) : M (Nat × Nat) := do
  let s ← get
  let me := s.me
  let core := if name.getLsbD 13 then me else me / 128 * 128 + bits name 12 6
  let index := bits name 5 0
  M.check (bits name 63 14 == 0 && decide (index < 48) && !(name.getLsbD 13 && bits name 12 6 != 0) &&
    !(own && core != me) && !badCount) (Trap.operand 0x90)
  M.check (s.owns s.core.part core) { cls := 0x0B, sub := 1 }
  return (core, index)

/-- One barrier changed at its owner. -/
def setBarrier (core k : Nat) (b : Barrier) : M Unit :=
  modify fun s => let c := s.coreAt core; s.putCore core { c with bar := vset c.bar k b }

/-- Complete(B) of R105. -/
def Barrier.complete (b : Barrier) : Barrier := if b.arr = b.exp then { b with arr := 0, cmp := b.cmp + 1 } else b

/-- BAR.INIT gs1, gs2. -/
def execBarInit (gs1 gs2 : BitVec 5) (s : State) : Host.Outcome State Fault Refusal :=
  untrapped (.barInit gs1 gs2) s (runOther (.barInit gs1 gs2) 0 (do
    let c ← M.core
    let n := (c.readG gs2).toNat
    let (core, k) ← barrierName (c.readG gs1) false (n == 0 || decide (65535 < n))
    let b := ((← get).coreAt core).barrier k
    setBarrier core k { b with exp := BitVec.ofNat 16 n, arr := 0, seen := b.cmp }
    return .next))

/-- BAR.ARR gs1. -/
def execBarArr (gs1 : BitVec 5) (s : State) : Host.Outcome State Fault Refusal :=
  untrapped (.barArr gs1) s (runOther (.barArr gs1) 0 (do
    let (core, k) ← barrierName ((← M.core).readG gs1) false false
    let b := ((← get).coreAt core).barrier k
    M.check (b.exp != 0) { cls := 0x0B, sub := 2 }
    arriveRelease
    setBarrier core k ({ b with arr := b.arr + 1 }).complete
    return .next))

/-- BAR.ARR.DROP gs1. -/
def execBarArrDrop (gs1 : BitVec 5) (s : State) : Host.Outcome State Fault Refusal :=
  untrapped (.barArrDrop gs1) s (runOther (.barArrDrop gs1) 0 (do
    let (core, k) ← barrierName ((← M.core).readG gs1) false false
    let b := ((← get).coreAt core).barrier k
    M.check (b.exp != 0) { cls := 0x0B, sub := 2 }
    arriveRelease
    setBarrier core k ({ b with exp := b.exp - 1 }).complete
    return .next))

/-- BAR.ARR.JOIN gs1. -/
def execBarArrJoin (gs1 : BitVec 5) (s : State) : Host.Outcome State Fault Refusal :=
  untrapped (.barArrJoin gs1) s (runOther (.barArrJoin gs1) 0 (do
    let (core, k) ← barrierName ((← M.core).readG gs1) false false
    let b := ((← get).coreAt core).barrier k
    M.check (b.exp != 65535) { cls := 0x0B, sub := 2 }
    setBarrier core k { b with exp := b.exp + 1 }
    return .next))

/-- BAR.WAIT gs1: the barrier shall be the issuing core's own. -/
def execBarWait (gs1 : BitVec 5) (s : State) : Host.Outcome State Fault Refusal :=
  untrapped (.barWait gs1) s (runOther (.barWait gs1) 0 (do
    let (core, k) ← barrierName ((← M.core).readG gs1) true false
    let b := ((← get).coreAt core).barrier k
    M.until (b.cmp != b.seen) (.barrier k)
    setBarrier core k { b with seen := b.cmp }
    return .next))

/-! ### Monitors (R107, R108) -/

/-- The memory key of the first byte of a piece. -/
def Piece.key0 (p : Piece) (s : State) : Nat :=
  match p.place with
  | .scratch c => Key.scratch c p.addr
  | .host _ => Key.host p.addr
  | .hbm _ =>
    match (s.die (p.die s)).placeOf p.addr with
    | some (chan, b) => Key.hbm (p.die s) chan b
    | none => 0

/-- The pieces of a monitored access: a peer page or a host-half page is refused (R108). -/
def monitorPieces (va : Dword) (n : Nat) : M (List Piece) := do
  let ps ← sPieces .load va n n
  let s ← get
  for p in ps do
    match p.place with
    | .host _ => M.operandOpen
    | _ => if p.peer s (dieOf s.me) then M.operandOpen
  return ps

/-- The line that an address lies in, as the monitor names it. -/
def monitorLine (va : Dword) : Dword := va &&& ~~~127#64

/-- The monitor armed on the line of an address. -/
def arm (va : Dword) (ps : List Piece) : M Unit := do
  let s ← get
  let key := (ps.map fun p => p.key0 s).headD 0
  M.mapCore fun c => { c with monitor := .armed (monitorLine va) (key / 128 * 128) }

/-- MONARM off(gbase). -/
def execMonarm (gbase : BitVec 5) (off : BitVec 10) (s : State) : Host.Outcome State Fault Refusal :=
  untrapped (.monarm gbase off) s (runOther (.monarm gbase off) 0 (do
    let va := (← M.core).offAddr gbase off 128
    let ps ← monitorPieces va 1
    arm va ps
    return .next))

/-- Whether a monitor stands on a line, armed or triggered. -/
def Monitor.on (m : Monitor) (line : Dword) : Bool :=
  match m with
  | .disarmed => false
  | .armed l _ => l == line
  | .triggered l _ => l == line

/-- Whether a monitor is triggered. -/
def Monitor.fired (m : Monitor) : Bool :=
  match m with
  | .triggered _ _ => true
  | _ => false

/-- MWAIT and MWAIT.W: wait on `n` bytes at gs1 while they equal gs2. -/
def mwaitBody (gd gs1 gs2 : BitVec 5) (n : Nat) : M Ctl := do
  let c ← M.core
  let va := c.readG gs1
  let want := (c.readG gs2).toNat % 2 ^ (8 * n)
  let ps ← monitorPieces va n
  if !c.monitor.on (monitorLine va) then arm va ps
  let bs ← loadBytes ps
  let v := leNat bs
  let c ← M.core
  if v = want ∧ !c.monitor.fired then M.keep .mwait
  M.mapCore fun c => { c.writeG gd (BitVec.ofNat 64 v) with monitor := .disarmed }
  return .next

/-- MWAIT gd, gs1, gs2. -/
def execMwait (gd gs1 gs2 : BitVec 5) (s : State) : Host.Outcome State Fault Refusal :=
  untrapped (.mwait gd gs1 gs2) s (runOther (.mwait gd gs1 gs2) 0 (mwaitBody gd gs1 gs2 8))

/-- MWAIT.W gd, gs1, gs2. -/
def execMwaitW (gd gs1 gs2 : BitVec 5) (s : State) : Host.Outcome State Fault Refusal :=
  untrapped (.mwaitW gd gs1 gs2) s (runOther (.mwaitW gd gs1 gs2) 0 (mwaitBody gd gs1 gs2 4))

/-! ### The kiln counter and power windows (R109, R110, R128) -/

/-- KREAD gd. -/
def execKread (gd : BitVec 5) (s : State) : Host.Outcome State Fault Refusal := runValue gd (fun _ => s.kiln) s

/-- The answer of PWIN at a kiln value (R110). -/
def powerWindow (n bench throttle : Nat) (t : Dword) : Dword :=
  let w := t.toNat / 256
  let held := tokenOf n bench w
  place (if held.isSome then 1 else 0) 63 ||| place n 58 ||| place (held.getD 0) 54 ||| place throttle 52 |||
    place (256 * nextWindow n bench w - t.toNat) 0

/-- PWIN gd, gs1. -/
def execPwin (gd gs1 : BitVec 5) (s : State) : Host.Outcome State Fault Refusal :=
  let d := s.die (dieOf s.me)
  runValue gd (fun c => powerWindow d.ntok.toNat (s.me / 16 % 16) d.throttle (c.readG gs1)) s

end Sys2Proof.Machine
end

