-- ==== Sys2Proof/Machine/Land.lean ====
section
/-! DEFINITION. The arrival of a flit at its destination: what each kind does there, the cullet table, answers, retries,
announces, and the end of a request (R132, R133, R137 to R140, R254, R264, R306, R347, R409, R416, R417). Each event names
a flit by its place in State.net; an event that names no such flit, or whose flit cannot be taken yet, changes nothing. -/

namespace Sys2Proof.Machine

/-! ### Delivery -/

/-- A flit of a kind that its router has ejected, taken by its die once that die is ready for it, in the state that it makes
ready, unless a drop of R347 or R416 takes it. -/
def deliverWhen (kind : BitVec 4) (n : Nat) (s : State) (ready : Nat → Flit → State → Except State State)
    (land : Nat → Flit → State → State) : Host.Outcome State Fault Refusal :=
  match s.net[n]? with
  | none => .next s
  | some f =>
    match s.dieOfNode f.dest.toNat with
    | none => .next s
    | some d =>
      if f.kind ≠ kind ∨ f.spot ≠ .arrived then .next s
      else
        let s' := { s with net := s.net.eraseIdx n }
        let announced := f.ofRouters
        if (s.die d).inReset && !f.routing then .next (s'.dropFlit)
        else if !announced && ((s.die d).expinc.find? fun p => p.1 == f.src.toNat).map (·.2) != some f.inc then
          .next (s'.dropFlit)
        else if !announced && (s.partOf d f.fpid).isNone then
          let (x, s'') := (s'.dropFlit).draw 32
          .next (s''.event physFn 0x0011 0xFFFF x.toNat)
        else match ready d f s' with
          | .ok s' => .next (land d f s')
          | .error s' => .next { s' with net := s.net }

/-- The same for a flit that its die can always take. -/
def deliver (kind : BitVec 4) (n : Nat) (s : State) (land : Nat → Flit → State → State) : Host.Outcome State Fault Refusal :=
  deliverWhen kind n s (fun _ _ s => .ok s) land

/-- A flit with a reserved KIND is dropped at its destination and counted (R132). -/
def State.dropReserved (s : State) (n : Nat) : State :=
  match s.net[n]? with
  | none => s
  | some f =>
    let s' := { s with net := s.net.eraseIdx n }
    if (s.dieOfNode f.dest.toNat).isSome ∧ f.spot = .arrived then s'.dropFlit else s

/-- An answer to a flit. It repeats the SEQ and LAST of the flit that it answers, which R131 leaves open (DESIGN CHOICE,
assumption log 70). -/
def State.reply (s : State) (d : Nat) (f : Flit) (kind : BitVec 4) (addr : Nat) (ws : List Dword) (cause : BitVec 8) : State :=
  s.answer d { s.flit d f.src f.fpid kind f.msgid.toNat f.seq.toNat f.last addr ws with cause := cause }

/-- The refusal of a flit, or the report of its loss (R132, R139). -/
def State.refuse (s : State) (d : Nat) (f : Flit) (reason : Nat) : State :=
  s.reply d f kNACK (reason + 4 * f.seq.toNat) [f.header.1, f.header.2] 0

/-- Reasons of a NACK. -/
def nackParked : Nat := 0
def nackBusy : Nat := 1
def nackLost : Nat := 2

/-! ### The cullet table (R133) -/

/-- Whether an entry tracks the message of a flit. -/
def Cullet.tracks (c : Cullet) (f : Flit) : Bool := c.src == f.src && c.inc == f.inc && c.msgid == f.msgid && !c.whole

/-- The entry of a flit's message. -/
def State.tracking (s : State) (d : Nat) (f : Flit) : Option Cullet := (s.die d).cullet.find? fun c => c.tracks f

/-- The entry of a flit's message changed, or removed. -/
def State.retrack (s : State) (d : Nat) (f : Flit) (g : Cullet → Option Cullet) : State :=
  s.mapDie d fun d => { d with cullet := d.cullet.filterMap fun c => if c.tracks f then g c else some c }

/-- A flit recorded as performed. -/
def Cullet.perform (c : Cullet) (f : Flit) (status cause : BitVec 8) : Cullet :=
  { c with
    bitmap := c.bitmap ||| (1#64 <<< f.seq.toNat)
    total := if f.last then some (f.seq.toNat + 1) else c.total
    status := if c.status = 0 then status else c.status
    cause := if c.status = 0 then cause else c.cause }

/-- A new entry for the message of a flit. -/
def Cullet.of (f : Flit) (now : Dword) : Cullet where
  born := now
  src := f.src
  inc := f.inc
  msgid := f.msgid
  bitmap := 0
  total := none
  write := true
  range := none
  action := 0
  dcore := 0
  element := 0
  job := 0
  fpid := f.fpid

/-- The entries of the table. -/
def culletSize : Nat := 4096

/-! ### Arrivals at ep3 (R22, R306) -/

/-- Room in ep3 of a core, behind no held arrival. -/
def State.arrivalRoom (s : State) (k : Nat) : Bool := decide ((vget (s.coreAt k).ports {} 3).results.length < 32)

/-- An element pushed into ep3. -/
def State.pushEp3 (s : State) (k : Nat) (x : Dword) : State :=
  let c := s.coreAt k
  let p := vget c.ports {} 3
  s.putCore k { c with ports := vset c.ports 3 { p with results := p.results ++ [x] } }

/-- Whether an entry is a held arrival of a core. -/
def Cullet.holds (c : Cullet) (dcore : Nat) : Bool := c.whole && c.action == 1 && c.dcore == dcore

/-- An arrival at a core: pushed, or held in the cullet table while ep3 is full (R22). -/
def State.arrive (s : State) (d dcore : Nat) (held : Cullet) : State :=
  let k := d * 256 + dcore
  if s.arrivalRoom k && !(s.die d).cullet.any (fun c => c.holds dcore) then s.pushEp3 k held.element
  else s.mapDie d fun d => { d with cullet := d.cullet ++ [held] }

/-- A held arrival of a core is pushed once ep3 has room: the `n`-th entry of the die's table, if it is the first held for
its core (R22). -/
def execEp3ArrivalPush (die n : Nat) (s : State) : Host.Outcome State Fault Refusal :=
  if 4 ≤ die then .fault .noSuchUnit
  else match (s.die die).cullet[n]? with
    | none => .next s
    | some c =>
      let k := die * 256 + c.dcore
      if c.holds c.dcore ∧ s.arrivalRoom k ∧ !(((s.die die).cullet.take n).any fun x => x.holds c.dcore) then
        .next ((s.pushEp3 k c.element).mapDie die fun d => { d with cullet := d.cullet.eraseIdx n })
      else .next s

/-! ### Parking (R409) -/

/-- Whether an arrival for a core of a partition would be one of a parked core or invocation. -/
def State.parkedAt (s : State) (part k : Nat) : Bool :=
  (s.saves.any (fun x => x.core == k) && (s.coreAt k).job == 0) ||
    ((s.part part).running.isNone && s.dies.toList.any fun d => d.slots.any fun q => q.2.parked && s.partOfQueue q.2.pqn == part)

/-- Whether a flit continues a message that a parked invocation left half landed. -/
def State.parkedMessage (s : State) (f : Flit) : Bool :=
  s.dies.toList.any fun d => d.slots.any fun q => q.2.saved.any fun e =>
    e.snode == f.src && e.sinc == f.inc && e.msgid == f.msgid

/-! ### Reads and writes at the home -/

/-- The agent that serves a peer's requests at a die, where the request does not say who made it. -/
def homeAgent (d : Nat) : Agent := { core := d * 256, st := .x, pc := 0 }

/-- The agent whose access a flit carries. -/
def Flit.agent (f : Flit) (d : Nat) : Agent := f.sender.getD (homeAgent d)

/-- Where the bytes of a flit lie: those of the range that its entry translated, or those at its own address. -/
def State.flitPieces (s : State) (d : Nat) (f : Flit) (off n : Nat) : List Piece :=
  if f.xl then
    match s.tracking d f with
    | some { range := some (_, ps), .. } => cutPieces ps (f.addr.toNat * 8 + off) n
    | _ => []
  else
    [{ va := f.va + BitVec.ofNat 64 off, place := .hbm f.dest.toNat, addr := f.addr.toNat * 8 + off, len := n, kind := .rc, l1 := false, am := f.am
       part := BitVec.ofNat 4 ((s.partOf d f.fpid).getD 0), key := f.key, anyOwner := false }]

/-- Bytes written by a peer: status and cause of what fails (R264, R414, R418). -/
def State.landBytes (s : State) (d : Nat) (ag : Agent) (ps : List Piece) (bs : List Byte) : (BitVec 8 × BitVec 8) × State :=
  match ps with
  | [] => ((0, 0), s)
  | p :: rest =>
    if (match p.place with | .hbm _ => ((s.die d).placeOf p.addr).isNone | _ => false) then ((0x02, 0), s)
    else match (writePiece ag p (bs.take p.len)).run.run s with
      | (.ok _, s) => State.landBytes s d ag rest (bs.drop p.len)
      | (.error e, s) =>
        let r := State.landBytes s d ag rest (bs.drop p.len)
        ((0x06, e.cause), r.2)

/-- Bytes read for a peer. -/
def State.takeBytes (s : State) (d : Nat) (ps : List Piece) : Except (BitVec 8 × BitVec 8) (List Byte) × State :=
  match ps with
  | [] => (.ok [], s)
  | p :: rest =>
    if (match p.place with | .hbm _ => ((s.die d).placeOf p.addr).isNone | _ => false) then (.error (0x02, 0), s)
    else match (readPiece (homeAgent d) p).run.run s with
      | (.ok bs, s) =>
        match State.takeBytes s d rest with
        | (.ok more, s) => (.ok (bs ++ more), s)
        | (.error e, s) => (.error e, s)
      | (.error e, s) => (.error (0x06, e.cause), s)

/-- The bytes of a flit that are written: the offset of the first, and the bytes. -/
def Flit.written (f : Flit) : Nat × List Byte :=
  let all := f.data.toList.flatMap fun w => leBytes 8 w.toNat
  let n := 8 * (f.nwm1.toNat + 1)
  let set := (List.range n).filter fun i => f.enable.getLsbD i
  match set with
  | [] => (0, all.take n)
  | a :: _ => (a, (all.drop a).take set.length)

/-- The last byte keeps its old high nibble where a flit writes only the low one (R233). -/
def Flit.mergeLow (low : Bool) (old bs : List Byte) : List Byte :=
  if low then
    (bs.zip old).zipIdx.map fun x => if x.2 + 1 = bs.length then (x.1.2 &&& 0xF0) ||| (x.1.1 &&& 0x0F) else x.1.1
  else bs

/-- The words of a flit written at their point, once (R133, R254). The tiles in which elements land that the source could not
read are poisoned (R413). -/
def State.landFlit (s : State) (d : Nat) (f : Flit) : (BitVec 8 × BitVec 8) × State :=
  let (off, bs) := f.written
  let ps := s.flitPieces d f off bs.length
  let (r, s) := s.landBytes d (f.agent d) ps (Flit.mergeLow f.low (ps.flatMap fun p => p.raw s) bs)
  let bad (o : Nat × Piece) : List Bool := (List.range o.2.len).map fun i => f.bad.getLsbD (off + o.1 + i)
  (r, if r.1 = 0 then (offsets ps).foldl (fun s o => s.poisonBytes o.2 (bad o)) s else s)

/-! ### Writes -/

/-- A message of one flit, or the last flit of one, ends with an ACK, a message of one flit itself (R131, R132). -/
def State.ack (s : State) (d : Nat) (f : Flit) (status cause : BitVec 8) (flits : Nat) : State :=
  s.answer d { s.flit d f.src f.fpid kACK f.msgid.toNat 0 true (status.toNat + 256 * flits) [] with cause := cause }

/-- The core that the message of an entry or of a range is for, by its action: that of an arrival, or the issuing core of
the reshard that a piece belongs to (R133, R409). -/
def State.culletCore (s : State) (d part action dcore tag : Nat) : Option Nat :=
  if action = 1 then some (d * 256 + dcore)
  else if action = 2 then ((s.die d).reshards.find? fun r => r.part == part && r.dst == tag && !r.closed).map (·.core)
  else none

/-- The same of an entry. -/
def State.forParked (s : State) (d part : Nat) (c : Cullet) : Bool :=
  (s.culletCore d part c.action c.dcore (bits c.element 47 32)).any fun k => s.parkedAt part k

/-- The words of a flit put among those of its entry. -/
def Cullet.keepWords (c : Cullet) (f : Flit) : Cullet :=
  { c with words := (List.range (f.nwm1.toNat + 1)).foldl (fun t i => Tab.set t (f.addr.toNat + i) (vget f.data 0 i)) c.words }

/-- The bytes of a range whose words have come. -/
def Cullet.bytes (c : Cullet) (len : Nat) : List Byte :=
  ((List.range ((len + 7) / 8)).flatMap fun i => leBytes 8 (Tab.get 0 c.words i).toNat).take len

/-- The part of a piece that a message has brought goes to the engine's staging memory; one whose source met an error ends
the piece with its STATUS. The entry's DCORE is the step of the plan (R133, R324, R328; assumption log 35). -/
def State.stagePart (s : State) (d part : Nat) (c : Cullet) : State :=
  match c.range with
  | none => s
  | some (va, ps) =>
    let part1 := (c.src.toNat, va, c.bytes (ps.map (·.len)).sum)
    s.mapReshard d part (bits c.element 47 32) fun r => { r with pieces := r.pieces.map fun p =>
      if p.step = c.dcore ∧ p.tile = va.toNat / 2048 then
        { p with got := p.got ++ [part1], status := if p.status = 0 then c.cause else p.status }
      else p }

/-- A PWRITE flit performed and recorded in its entry; a whole message is acknowledged and its action performed. The words
of a reshard piece are performed once the engine's staging memory has them (assumption log 35). -/
def State.landTracked (s : State) (d : Nat) (f : Flit) (c : Cullet) : State :=
  let ((status, cause), s) := if c.action = 2 then ((0, f.cause), s) else s.landFlit d f
  let c := (if c.action = 2 then c.keepWords f else c).perform f status cause
  if c.whole then
    let s := (s.retrack d f fun _ => none).ack d f c.status c.cause c.count
    if c.action = 1 ∧ c.status = 0 then s.arrive d c.dcore c
    else if c.action = 2 then s.stagePart d ((s.partOf d f.fpid).getD 0) c
    else s
  else s.retrack d f fun _ => some c

/-- The budgets allow what a flit touches (R130). -/
def State.flitAdmitted (u : Use) (d : Nat) (f : Flit) (s : State) : Except State State :=
  let ps := match u with
    | .modify => s.flitPieces d f (bits f.enable 3 1) 8
    | .write => let (off, bs) := f.written; s.flitPieces d f off bs.length
    | .read => s.flitPieces d f 0 (8 * (f.nwm1.toNat + 1))
  s.allow (holdFlits d) ps u

/-- PWRITE at its destination (R133, R139, R409). -/
def execPwrite (n : Nat) (s : State) : Host.Outcome State Fault Refusal :=
  deliverWhen kPWRITE n s (State.flitAdmitted .write) fun d f s =>
    match s.tracking d f with
    | some c =>
      if s.forParked d ((s.partOf d f.fpid).getD 0) c then s.refuse d f nackParked
      else s.landTracked d f c
    | none =>
      if s.parkedMessage f then s.refuse d f nackParked
      else if f.xl then s.dropFlit
      else if f.seq = 0 ∧ f.last then
        let ((status, cause), s) := s.landFlit d f
        s.ack d f status cause 1
      else if culletSize ≤ (s.die d).cullet.length then s.refuse d f nackBusy
      else
        let c := Cullet.of f s.kiln
        (s.mapDie d fun x => { x with cullet := x.cullet ++ [c] }).landTracked d f c

/-! ### Reads -/

/-- PREAD at its destination: answered by RDATA (R132, R133). -/
def execPread (n : Nat) (s : State) : Host.Outcome State Fault Refusal :=
  deliverWhen kPREAD n s (State.flitAdmitted .read) fun d f s =>
    if f.xl && (s.tracking d f).isNone then s.dropFlit
    else
      let (got, s) := match (if f.xl then s.tracking d f else none).filter fun c => c.status != 0 with
        | some c => (Except.error (c.status, c.cause), s)
        | none => s.takeBytes d (s.flitPieces d f 0 (8 * (f.nwm1.toNat + 1)))
      let s := match got with
        | .ok bs =>
          s.reply d f kRDATA 0 ((List.range (f.nwm1.toNat + 1)).map fun i =>
            BitVec.ofNat 64 (leNat ((bs.drop (8 * i)).take 8))) 0
        | .error (status, cause) => s.reply d f kRDATA status.toNat (List.replicate (f.nwm1.toNat + 1) 0) cause
      if f.xl then s.retrack d f fun c => let c := c.perform f 0 0; if c.whole then none else some c else s

/-- PATOM at the home's atomic unit: answered by ADATA (R132, R293). -/
def execPatom (n : Nat) (s : State) : Host.Outcome State Fault Refusal :=
  deliverWhen kPATOM n s (State.flitAdmitted .modify) fun d f s =>
    let func := bits (vget f.data 0 0) 9 0
    let size := if func / 32 % 2 = 1 then 8 else 4
    let op := if f.nwm1 = 2 then AmoOp.cas else AmoOp.ofCode (func / 64)
    let ps := s.flitPieces d f (bits f.enable 3 1) size
    if ps.any fun p => ((s.die d).placeOf p.addr).isNone then s.reply d f kADATA 2 [0] 0
    else
      let work : R (List (List Byte)) := ps.mapM fun p => modifyPiece (f.agent d) p op size (vget f.data 0 1) (vget f.data 0 2)
      match work.run.run s with
      | (.ok bs, s) => s.reply d f kADATA 0 [BitVec.ofNat 64 (leNat bs.flatten)] 0
      | (.error e, s) => s.reply d f kADATA 6 [0] e.cause

/-! ### Answers -/

/-- A request changed by an answer to one of its flits, and ended when none is out (R137). -/
def State.answered (s : State) (d msgid : Nat) (g : Request → Request) : State :=
  match s.reqOf d msgid with
  | none => s
  | some r =>
    let r' := g r
    let s := (s.returned d (r.flits.length - r'.flits.length)).mapReq d msgid fun _ => r'
    if r'.flits.isEmpty && r'.retry.isEmpty then s.finish d r' else s

/-- A status, and the error behind it, recorded in a request. -/
def Request.failed (r : Request) (status cause : BitVec 8) : Request :=
  if r.status = 0 ∧ status ≠ 0 then { r with status := status, cause := cause } else r

/-- The flit of a request that an answer names is no longer out. -/
def Request.without (r : Request) (seq : BitVec 6) : Request := { r with flits := r.flits.filter fun f => f.seq != seq }

/-- RDATA at the requester (R132). -/
def execRdata (n : Nat) (s : State) : Host.Outcome State Fault Refusal :=
  deliver kRDATA n s fun d f s =>
    s.answered d f.msgid.toNat fun r =>
      if r.kind ≠ kPREAD ∨ r.dest ≠ f.src ∨ !(r.flits.any fun q => q.seq == f.seq) then r
      else
        let words := (List.range (f.nwm1.toNat + 1)).foldl
          (fun t i => Tab.set t (8 * f.seq.toNat + i) (vget f.data 0 i)) r.words
        ({ r with words := words }.without f.seq).failed (f.addr.setWidth 8) f.cause

/-- ADATA at the requester: the old value of an atomic, at its place in its word (R132). -/
def execAdata (n : Nat) (s : State) : Host.Outcome State Fault Refusal :=
  deliver kADATA n s fun d f s =>
    s.answered d f.msgid.toNat fun r =>
      if r.kind ≠ kPATOM ∨ r.dest ≠ f.src then r
      else
        ({ r with words := Tab.set r.words 0 (vget f.data 0 0 <<< (8 * (r.addr % 8))) }.without 0).failed
          (f.addr.setWidth 8) f.cause

/-- ACK at the requester: its message is complete (R132, R137). -/
def execAck (n : Nat) (s : State) : Host.Outcome State Fault Refusal :=
  deliver kACK n s fun d f s =>
    s.answered d f.msgid.toNat fun r =>
      if (r.kind ≠ kPWRITE ∧ r.kind ≠ kCTRL) ∨ r.dest ≠ f.src ∨ !r.after.isEmpty then r
      else { r with flits := [], retry := [] }.failed (f.addr.setWidth 8) f.cause

/-- A request ends with LINK-LOST (R138, R418). -/
def State.linkLost (s : State) (d msgid : Nat) : State :=
  match s.reqOf d msgid with
  | none => s
  | some r =>
    let out := r.flits.filter fun f => !(s.die d).formed.contains f
    let s := s.returned d out.length
    let s := s.finish d { r with status := 0x0A, cause := 0, flits := [] }
    s.event physFn 0x0052 0xFFFF (r.dest.toNat + 4096 * d)

/-- NACK at the requester: a retry after the backoff, or the loss of the request (R138, R139). -/
def execNack (n : Nat) (s : State) : Host.Outcome State Fault Refusal :=
  deliver kNACK n s fun d f s =>
    let seq := bits (f.addr.setWidth 64) 7 2
    match s.reqOf d f.msgid.toNat with
    | none => s
    | some r =>
      if bits (f.addr.setWidth 64) 1 0 = nackLost then s.linkLost d r.msgid
      else match r.flits.find? fun q => q.seq.toNat == seq with
        | none => s
        | some q =>
          let due := s.kiln + BitVec.ofNat 64 (2 ^ (8 + min r.refusals 8))
          (s.returned d 1).mapReq d r.msgid fun r =>
            { r with flits := r.flits.filter (· != q), refusals := r.refusals + 1
                     retry := r.retry ++ [(due, { q with retry := true })] }

/-- A refused flit of a request is sent again once its backoff has passed (R137, R139). -/
def execFlitRetry (die n : Nat) (s : State) : Host.Outcome State Fault Refusal :=
  if 4 ≤ die then .fault .noSuchUnit
  else match s.reqOf die n with
    | none => .next s
    | some r =>
      match r.retry.find? fun p => decide (p.1.toNat ≤ s.kiln.toNat) with
      | none => .next s
      | some x => .next (s.retryFlit die n x)

/-- A request that has had no answer within 2^33 cycles of the injection of its last flit ends with LINK-LOST (R138). -/
def execRequestTimeout (die msgid : Nat) (s : State) : Host.Outcome State Fault Refusal :=
  if 4 ≤ die then .fault .noSuchUnit
  else match s.reqOf die msgid with
    | none => .next s
    | some r =>
      let waiting := (s.die die).formed.any fun f => f.msgid.toNat == msgid
      if !waiting && !r.ready && r.retry.isEmpty && decide (2 ^ 33 ≤ (s.kiln - r.lastSent).toNat) then .next (s.linkLost die msgid)
      else .next s

/-! ### Ranges translated at the destination (R133, R366) -/

/-- The fault bank of a die's firmware takes a stage-2 fault of a range (R366). -/
def State.recordRange (s : State) (d : Nat) (t : Trap) : State :=
  match t.syn with
  | some y =>
    if y.bank2 then
      let c := s.coreAt (d * 256)
      s.putCore (d * 256) { c with fsyn2 := y.fsyn, fva2 := y.fva, fipa2 := y.fipa }
    else s
  | none => s

/-- Why a die refuses an XLATREQ: it is for a parked core, or the table is full, which comes before the translation, an order
that R133 and R139 leave open (DESIGN CHOICE, assumption log 57). -/
def State.rangeRefusal (s : State) (d : Nat) (f : Flit) : Option Nat :=
  let w1 := vget f.data 0 1
  let part := (s.partOf d f.fpid).getD 0
  if (s.culletCore d part (bits w1 39 37) (bits w1 20 13) (bits w1 36 21)).any fun k => s.parkedAt part k then some nackParked
  else if culletSize ≤ (s.die d).cullet.length then some nackBusy
  else none

/-- The pieces of the range that an XLATREQ asks a die for. -/
def rangeWalk (part d : Nat) (f : Flit) : M (List Piece) :=
  let w1 := vget f.data 0 1
  let va := vget f.data 0 0
  translateParts {
    core := d * 256, st := .x, agent := 6, acc := if w1.getLsbD 12 then .xwrite else .xread, pl := 0
    part := BitVec.ofNat 4 part, vf := bits w1 47 40, pasid := BitVec.ofNat 20 (bits (vget f.data 0 2) 19 0), die := d }
    (split (pageOf va) va.toNat (bits w1 11 0 + 1)) false

/-- An XLATREQ waits while its walk waits for a table at a peer (R264). -/
def rangeWalked (d : Nat) (f : Flit) (s : State) : Except State State :=
  if (s.rangeRefusal d f).isSome then .ok s
  else match (rangeWalk ((s.partOf d f.fpid).getD 0) d f).run.run s with
    | (.error (.keep _), s') => .error s'
    | (.error (.hold _), _) => .error s
    | _ => .ok s

/-- XLATREQ at the destination: the range is translated at once (R133). -/
def execXlatreq (n : Nat) (s : State) : Host.Outcome State Fault Refusal :=
  deliverWhen kXLATREQ n s rangeWalked fun d f s =>
    let w1 := vget f.data 0 1
    let w2 := vget f.data 0 2
    let part := (s.partOf d f.fpid).getD 0
    let len := bits w1 11 0 + 1
    let va := vget f.data 0 0
    match s.rangeRefusal d f with
    | some reason => s.refuse d f reason
    | none => match (rangeWalk part d f).run.run s with
      | (.ok ps, s) =>
        if ps.all fun p => p.place == .hbm (s.nodeOf d) then
          let element := place 2 48 ||| place (bits w1 36 21) 32 ||| place f.src.toNat 20 ||| place (bits w2 27 20) 12 |||
            place (len - 1) 0
          let job := ((s.part part).running.map (·.job)).getD 0
          let c := { Cullet.of f s.kiln with
            write := w1.getLsbD 12, range := some (va, ps), action := bits w1 39 37, dcore := bits w1 20 13, element := element
            job := job }
          (s.mapDie d fun x => { x with cullet := x.cullet ++ [c] }).reply d f kXLATRSP 0 [] 0
        else s.reply d f kXLATRSP 3 [] 0
      | (.error (.trap t), s) => (s.recordRange d t).reply d f kXLATRSP (if t.cls = 0x07 then 3 else 2) [] 0
      | (.error _, s) => s.reply d f kXLATRSP 2 [] 0

/-- A translation of one of X's ranges has come: the word goes on once all have (R239). -/
def State.rangeReady (s : State) (k id : Nat) : State :=
  let c := s.coreAt k
  match c.xwait with
  | .peer pc ids got =>
    let ids := ids.erase id
    s.putCore k { c with xwait := if ids.isEmpty then .answered pc none got else .peer pc ids got }
  | _ => s

/-- The bytes at its node that a translated range covers, where this package holds its entry (R140). -/
def State.rangeCovers (s : State) (die : Nat) (r : Request) : List (Nat × Nat) :=
  match s.rangeEntry die r with
  | some { range := some (_, ps), .. } => ps.map fun p => (p.addr, p.len)
  | _ => []

/-- XLATRSP at the requester: its flits may go, or the request ends with the status; a range whose source had failed ends
with its own (R133, R137, R439). -/
def execXlatrsp (n : Nat) (s : State) : Host.Outcome State Fault Refusal :=
  deliver kXLATRSP n s fun d f s =>
    match s.reqOf d f.msgid.toNat with
    | none => s
    | some r =>
      if !r.asked || r.dest != f.src then s
      else
        let s := (s.returned d 1).mapReq d r.msgid fun r => { r with
          asked := false, flits := [], covers := r.covers ++ s.rangeCovers d r }
        if f.addr.setWidth 8 = 0#8 ∧ r.status ≠ 0 then
          (s.dropRange d r).finish d { r with flits := [] }
        else if f.addr.setWidth 8 = 0#8 then
          match r.owner with
          | .xword k => s.rangeReady k r.msgid
          | o => s.startRange d r.msgid o
        else s.finish d { r with status := f.addr.setWidth 8, flits := [] }

/-! ### Announces (R415 to R417) -/

/-- Every request of a die that is outstanding to a node ends with PEER-RESET (R417). -/
def State.peerReset (s : State) (d node : Nat) : State :=
  ((s.die d).reqs.filter fun r => r.dest.toNat == node).foldl (fun s r =>
    let out := r.flits.filter fun f => !(s.die d).formed.contains f
    (s.returned d out.length).finish d { r with status := 1, cause := 0, flits := [] }) s

/-- The pieces of a die's reshards to which a node supplies data, and the reshards that still wait for its digest, end
with PEER-RESET (R417). -/
def Reshard.lose (r : Reshard) (node : Nat) : Reshard :=
  if r.arrived then r
  else
    if !r.planned then r.ended 1
    else { r with
      pieces := r.pieces.map fun p => if p.suppliers.contains node ∧ p.status = 0 then { p with status := 1 } else p
      parts := r.parts.filter fun p => p.node != node }

/-- The worker cores of a partition on a die. -/
def State.workers (s : State) (part die : Nat) : List Nat :=
  ((List.range 256).map (die * 256 + ·)).filter fun k => s.owns (BitVec.ofNat 4 part) k

/-- A node of a partition's node set has reset: the home die's firmware stops the partition's running node. Its walkers
start nothing more, each surviving worker core that runs it abandons its job, the queue halts with code 0x08, and nothing
is expected of the lost node; where that is the home die, the invocation is lost (R419). -/
def State.loseNode (s : State) (part node : Nat) : State :=
  match (s.part part).running with
  | none => s
  | some r =>
    if !s.inNodeSet part node then s
    else if s.nodeOf r.die = node then s.mapPart part fun p => { p with running := none }
    else
      let lost (w : Vector (Option Walk) 4) : Vector (Option Walk) 4 := match s.dieOfNode node with
        | some d => vset w d none
        | none => w
      let s := s.mapPart part fun p => { p with running := p.running.map fun r =>
        { r with walks := lost r.walks, stopped := true, sent := r.sent ++ [node], told := r.told ++ [node] } }
      let left := ([0, 1, 2, 3].filter fun d => s.nodeOf d != node && s.inNodeSet part (s.nodeOf d)).flatMap fun d =>
        (s.workers part d).filter fun k => (s.coreAt k).job != 0 &&
          ((s.coreAt k).state == .running || (s.coreAt k).state == .rendezvous || (s.coreAt k).state == .trapped)
      let s := left.foldl (fun s k => s.abandonJob k) s
      match s.slot r.die r.slot with
      | some q => s.queueError q.pqn 0x08
      | none => s

/-- What an announce of a node outside the package does to the nodes that run here: those whose home die it reaches and whose
node sets hold it are stopped (R419). A die of the package has been seen to reset. -/
def State.lostOutside (s : State) (d node : Nat) : State :=
  if (s.dieOfNode node).isSome then s
  else (List.range 16).foldl (fun s p =>
    if (s.part p).running.any fun r => r.die == d then s.loseNode p node else s) s

/-- ANNOUNCE at a die: the node's new incarnation, the end of what was outstanding to it, and the acknowledgement. -/
def execAnnounce (n : Nat) (s : State) : Host.Outcome State Fault Refusal :=
  deliver kANNOUNCE n s fun d f s =>
    let inc := f.addr.setWidth 4
    let node := f.src.toNat
    let s := s.peerReset d node
    let s := s.mapDie d fun x =>
      { x with expinc := Tab.set x.expinc node inc, reshards := x.reshards.map (fun r => if s.inNodeSet r.part node then r.lose node else r), cullet := x.cullet.filter fun c => c.src != f.src || c.whole }
    let s := (s.lostOutside d node).event physFn 0x0050 0xFFFF (node + 4096 * inc.toNat)
    s.reply d f kANNACK (s.die d).inc.toNat [] 0

/-- ANNACK at the die that has left reset: it may send to that node. -/
def execAnnack (n : Nat) (s : State) : Host.Outcome State Fault Refusal :=
  deliver kANNACK n s fun d f s =>
    let node := f.src.toNat
    let go := (s.die d).delayed.filter fun q => q.dest == f.src
    let s := s.mapDie d fun x =>
      { x with expinc := Tab.set x.expinc node (f.addr.setWidth 4), unknown := x.unknown.erase node
               delayed := x.delayed.filter fun q => q.dest != f.src }
    go.foldl (fun s q => s.answer d q) s

/-! ### Control messages (R85, R321, R360, R361) -/

/-- The kinds of TLBINV in the order of R40: VA, PASID, IPA, PART (R360). -/
def TlbEntry.named (e : TlbEntry) (kind : Nat) (part : BitVec 4) (vf : Nat) (a b : Dword) : Bool :=
  let within (first size x : Nat) : Bool := decide (first ≤ x) && decide (x < first + size)
  match kind with
  | 0 => e.part == part && e.vf == vf && e.pasid == b.setWidth 20 && !e.host && within e.va.toNat e.size a.toNat
  | 1 => e.part == part && e.vf == vf && e.pasid == b.setWidth 20 && !e.host
  | 2 => e.part == b.setWidth 4 &&
      (match e.ipa with | some i => within i e.size (bits a 47 0) | none => false)
  | _ => e.part == a.setWidth 4

/-- The same on an entry of a bench's TLB: combined and stage-1 entries by VA and PASID, stage-2 entries by IPA, all by
partition; an entry named is marked. -/
def BenchEntry.mark (e : BenchEntry) (kind : Nat) (part : BitVec 4) (vf : Nat) (a b : Dword) : BenchEntry :=
  match e with
  | .combined e => .combined (if e.named kind part vf a b then { e with marked := true } else e)
  | .stage2 q ipa size node dpa ent level marked =>
    let hit : Bool := match kind with
      | 2 => q == b.setWidth 4 && decide (ipa ≤ bits a 47 0) && decide (bits a 47 0 < ipa + size)
      | 3 => q == a.setWidth 4
      | _ => false
    .stage2 q ipa size node dpa ent level (marked || hit)
  | .table q v pasid level tag ipa marked =>
    let hit : Bool := match kind with
      | 0 => q == part && v == vf && pasid == b.setWidth 20 && tag == tableTag a level
      | 1 => q == part && v == vf && pasid == b.setWidth 20
      | 3 => q == a.setWidth 4
      | _ => false
    .table q v pasid level tag ipa (marked || hit)

/-- Whether a removal has been asked for. -/
def BenchEntry.isMarked : BenchEntry → Bool
  | .combined e => e.marked
  | .stage2 _ _ _ _ _ _ _ m => m
  | .table _ _ _ _ _ _ m => m

/-- The translations of a die that a TLBINV names are marked for removal (R360). -/
def State.markTlb (s : State) (d kind : Nat) (part : BitVec 4) (vf : Nat) (a b : Dword) : State :=
  let mark (e : TlbEntry) : TlbEntry := if e.named kind part vf a b then { e with marked := true } else e
  { s with
    cores := s.cores.map fun p =>
      if dieOf p.1 = d then (p.1, { p.2 with tlb := p.2.tlb.map mark, xtlb := p.2.xtlb.map mark }) else p
    bench := s.bench.map fun p => if p.1 / 16 = d then (p.1, p.2.map fun e => e.mark kind part vf a b) else p }

/-- The marked translations of a die removed, and what walks have read and not used (R361). -/
def State.dropMarked (s : State) (d : Nat) : State :=
  { s with
    cores := s.cores.map fun p =>
      if dieOf p.1 = d then
        (p.1, { p.2 with tlb := p.2.tlb.filter fun e => !e.marked, xtlb := p.2.xtlb.filter fun e => !e.marked, remote := [] })
      else p
    bench := s.bench.map fun p => if p.1 / 16 = d then (p.1, p.2.filter fun e => !e.isMarked) else p }

/-- No access of a core is out that a removed translation might have served: none that has retired, and none of a word at
issue or of a fetch (R361). -/
def Core.settledAccess (c : Core) : Bool :=
  c.stores.isEmpty && c.fills.toList.all List.isEmpty && c.xfers.isEmpty && c.products.isEmpty &&
    c.ports.toList.all (fun p => p.active.isEmpty) && c.waiting.performed && c.xwait.performed &&
    c.fwait.toList.all Waiting.performed && c.ahead.isEmpty && c.remote.all fun r => r.answers.isSome

/-- Nor one of any core of a die, or to a range that the die has translated for another. -/
def State.settledDie (s : State) (d : Nat) : Bool :=
  (s.cores.all fun p => dieOf p.1 != d || p.2.settledAccess) && (s.die d).cullet.all fun c => c.range.isNone || c.whole

/-- A control message sent by a die: one flit, answered by ACK. -/
def State.control (s : State) (die : Nat) (owner : Owner) (dest : Nat) (part : Nat) (ws : List Dword) : Option (Nat × State) :=
  match (s.die die).freeMsg with
  | none => none
  | some id =>
    let f := s.flit die (BitVec.ofNat 12 dest) (s.fpid part) kCTRL id 0 true 0 ws
    some (id, s.send die { msgid := id, dest := BitVec.ofNat 12 dest, owner := owner, kind := kCTRL
                           part := BitVec.ofNat 4 part, addr := 0, len := 0, flits := [f] })

/-- A TLBSYNC is answered once no access that a removed translation served is out (R361). -/
def ctrlReady (d : Nat) (f : Flit) (s : State) : Except State State :=
  if bits (vget f.data 0 0) 7 0 != ctrlTlbsync || s.settledDie d then .ok s else .error s

/-- CTRL at its destination; a routing update is answered by nothing (R132, R135). -/
def execCtrl (n : Nat) (s : State) : Host.Outcome State Fault Refusal :=
  deliverWhen kCTRL n s ctrlReady fun d f s =>
    let w (i : Nat) : Dword := vget f.data 0 i
    let part := (s.partOf d f.fpid).getD 0
    let code := bits (w 0) 7 0
    if code = ctrlRouting then s.takeRoute d f
    else if code = ctrlBoundary then
      (s.mapPart part fun p => { p with running := p.running.map fun r =>
        if r.die = d then { r with told := r.told ++ [f.src.toNat] } else r }).ack d f 0 0 1
    else if code = ctrlDigest then
      let dst := (w 1).toNat
      let mine (r : Reshard) : Bool := r.part == part && r.dst == dst && !r.planned && !r.closed
      (s.mapDie d fun x =>
        if x.reshards.any mine then
          { x with reshards := x.reshards.map fun r => if mine r then { r with heard := r.heard ++ [f.src.toNat] } else r }
        else { x with early := x.early ++ [(part, dst, f.src.toNat, s.kiln)] }).ack d f 0 0 1
    else if code = ctrlTlbinv then
      (s.markTlb d (bits (w 0) 11 8) (BitVec.ofNat 4 part) (bits (w 0) 23 16) (w 1) (w 2)).ack d f 0 0 1
    else if code = ctrlTlbsync then
      (s.dropMarked d).ack d f 0 0 1
    else s.ack d f 0 0 1

end Sys2Proof.Machine
end

