-- ==== Sys2Proof/Machine/Matrix.lean ====
section
/-! DEFINITION. The matrix engine (R201 to R216): operand entries, steps and their retirement, the other accumulator words,
and timed issue. -/

namespace Sys2Proof.Machine

/-! ### Accumulators -/

/-- The 4096 FP32 codes of an accumulator, element (p, q) at 64p + q. -/
def accList (a : BitVec 131072) : List Nat := (List.range 4096).map fun i => (a.extractLsb' (32 * i) 32).toNat

/-- An accumulator from its codes. -/
def accOf (l : List Nat) : BitVec 131072 := BitVec.ofNat 131072 (l.foldr (fun c acc => c + 2 ^ 32 * acc) 0)

/-- An accumulator of a core. -/
def Core.accum (c : Core) (a : Nat) : BitVec 131072 := vget c.acc 0 a

/-! ### Operands (R201 to R204) -/

/-- The operands of MMA and MMAT. -/
structure StepOp where
  transposed : Bool
  sync : BitVec 4
  acc : Nat
  sta : Nat
  stb : Nat
  ta : Bool
  tb : Bool
  ow : Bool
  pa : Bool
  pb : Bool
  last : Bool
  stamp : Nat
  deriving DecidableEq, Repr

/-- A format of a Frit ring that R204 allows. -/
def Fmt.isFritB : Fmt → Bool
  | .b8 _ => true | .b8u _ => true | .i4 => true | .b4p2 => true | _ => false

/-- A format of a fixed B ring that R204 allows. -/
def Fmt.isFixedB (f : Fmt) : Bool := f == .bf16 || f.isFritB

/-- The check of R87 and those of R204: the detail of the first that fails. A ring of size 0 raises no fault. -/
def Core.stepFault (c : Core) (o : StepOp) : Option Nat :=
  let a := c.desc o.sta
  let b := c.desc o.stb
  let fb := Fmt.ofCode b.fmt
  if o.stamp ≠ 0 ∧ !c.timed then some 0x09
  else if a.size ≠ 0 ∧ (a.isFrit ∨ Fmt.ofCode a.fmt ≠ some .bf16 ∨ a.sstride ≠ 0) then some 0x01
  else if b.size ≠ 0 ∧ !b.isFrit ∧ !(fb.any Fmt.isFixedB) then some 0x02
  else if b.size ≠ 0 ∧ b.isFrit ∧ !(fb.any Fmt.isFritB) then some 0x03
  else if (a.size ≠ 0 ∧ a.size < 4096) ∨ (!b.isFrit ∧ b.size ≠ 0 ∧ b.size < b.fixedLen (fb.getD .bf16)) then some 0x04
  else if o.stamp ≠ 0 ∧ !(c.tvalid && c.steps.all fun m => !m.last) then some 0x05
  else none

/-- The bytes of a ring that steps in flight pop when they retire. -/
def Core.taken (c : Core) (r : Nat) : Nat :=
  (c.steps.flatMap (·.pops)).foldl (fun n p => if p.1 = r then n + p.2 else n) 0

/-- Where the next step's entry of a ring stands, and the complete bytes from there on. -/
def Core.stepHead (c : Core) (r : Nat) : Nat := ((c.desc r).head + c.taken r) % max (c.desc r).size 1
def Core.stepAvail (c : Core) (r : Nat) : Nat := (c.desc r).avail - c.taken r

/-- The length of the B entry, where it is complete. -/
def State.entryB (s : State) (r : Nat) : Option Nat :=
  let c := s.core
  let d := c.desc r
  if d.isFrit then s.fritEntry s.me d (c.stepHead r) (c.stepAvail r)
  else
    let n := d.fixedLen ((Fmt.ofCode d.fmt).getD .bf16)
    if n ≤ c.stepAvail r then some n else none

/-- A[m][k] of an A entry, as rows m (R201). -/
def rowsA (x : Nat) (ta : Bool) : List (List Num) :=
  (List.range 64).map fun m => (List.range 32).map fun k =>
    Fmt.bf16.decode true (entryField x (2 * (if ta then 64 * k + m else 32 * m + k)) 2)

/-- B′[k][n] of a B entry, as columns n: its codes, then its scales from byte `at0` (R159, R202, R203). -/
def colsB (d : Desc) (x at0 : Nat) (code : Nat → Nat) (tb : Bool) : List (List Num) :=
  let f := (Fmt.ofCode d.fmt).getD .bf16
  (List.range 64).map fun n => (List.range 32).map fun k =>
    let j := if d.block = 0 then k / 16 else 0
    let sc := if d.sstride = 0 then 0x3F80 else entryField x (at0 + (64 * j + n) * d.sstride) 2
    Fmt.bf16.decode true (dequant f d.inf (code (if tb then 32 * n + k else 64 * k + n)) sc)

/-- s5 of every element of the accumulator, (p, q) in order (R161, R205). -/
def stepSums (a b : List (List Num)) (transposed : Bool) : BitVec 131072 :=
  accOf (if transposed then b.flatMap fun col => a.map fun row => stepSum (row.zip col)
    else a.flatMap fun row => b.map fun col => stepSum (row.zip col))

/-! ### Starting a step (R205 to R207, R214 to R216) -/

/-- A bench of a core holds the window of a cycle with the span that WREQ requires (R215). -/
def State.inWindow (s : State) (t : Nat) : Bool :=
  let d := s.die (dieOf s.me)
  (tokenOf d.ntok.toNat (s.me / 16 % 16) (t / 256)).isSome && decide (t % 256 + 64 * s.core.wreq.toNat ≤ 256)

/-- The schedule-miss fault (R216, R398). -/
def missTrap (t reasons : Nat) : Trap := { cls := 0x10, detail := BitVec.ofNat 64 (256 * t + reasons) }

/-- The reasons of R216 that apply at the target. -/
def missReasons (token a b array window : Bool) : Nat :=
  (if token then 0 else 2) + (if a then 0 else 4) + (if b then 0 else 8) + (if array then 0 else 16) +
    (if window then 0 else 32)

/-- The bytes that a ring must hold for its B entry: the whole entry of a fixed ring, anything of a Frit ring, whose
entries complete one at a time. -/
def Desc.needB (d : Desc) : Nat := if d.isFrit then 1 else d.fixedLen ((Fmt.ofCode d.fmt).getD .bf16)

/-- Hold an untimed step on the lowest row of R88 that applies. -/
def stepHolds (o : StepOp) (need : Nat) (a b array window : Bool) : M Unit := do
  if !a then M.keep (.ringShort o.sta 4096)
  if !b then M.keep (.ringShort o.stb need)
  if !window then M.keep (.device 13)
  if !array then M.keep (.device 20)

/-- A late step that is met again after a resumption: decoding has started again, and a tile that is still malformed
raises its fault once more, before the miss (R227). -/
def lateAgain (ring : Nat) : M Unit := do
  let s ← get
  let c := s.core
  match s.entryB ring with
  | some n =>
    if c.again == some (vget c.seq 0 2) && (c.desc ring).isFrit then
      let symbols ← tileSymbols ring (c.stepHead ring) n
      if symbols.isNone then M.keep (.device 20)
  | none => pure ()

/-- A step's checks, holds and start. Once a step has reached issue before its target, M's first turn at or after the
target stands for that cycle. A target is taken modulo 2^64, which R214 leaves open (DESIGN CHOICE, assumption log 54). -/
def stepBody (o : StepOp) : M Ctl := do
  let s ← get
  let c := s.core
  match c.stepFault o with
  | some n => M.trap (Trap.operand n)
  | none => pure ()
  let timed := o.stamp != 0
  let target := (c.tref.toNat + 64 * o.stamp) % 2 ^ 64
  let hold : Hold := .timed (BitVec.ofNat 64 target)
  if timed && decide (target < s.kiln.toNat) && vget c.hold .none 2 != hold then
    lateAgain o.stb
    match c.failedBefore o.stb (c.stepHead o.stb) target with
    | some detail => M.trap { cls := 0x0F, detail := detail }
    | none => M.trap (missTrap target 1)
  let now := if timed then target else s.kiln.toNat
  let db := c.desc o.stb
  let eb := s.entryB o.stb
  let offB := c.stepHead o.stb
  let symbols ← (match eb with
    | some n => if db.isFrit then tileSymbols o.stb offB n else pure (some [])
    | none => pure none : M (Option (List Nat)))
  if timed && decide (s.kiln.toNat < target) then M.keep hold
  let okA := decide (4096 ≤ c.stepAvail o.sta)
  let array := match c.lastStep with
    | some l => decide (l.toNat + 64 ≤ now)
    | none => true
  let window := s.inWindow now
  if timed then do
    let r := missReasons (c.tokens .m o.sync) okA symbols.isSome array window
    if r != 0 then M.trap (missTrap target r)
  else stepHolds o db.needB okA eb.isSome (array && symbols.isSome) window
  let lenB := eb.getD 0
  let x := leNat (← readRing o.sta (c.stepHead o.sta) 4096)
  let y := leNat (← readRing o.stb offB lenB)
  let f := (Fmt.ofCode db.fmt).getD .bf16
  let code : Nat → Nat := if db.isFrit then fun i => (symbols.getD []).getD i 0
    else fun i => (y >>> (f.width * i)) % 2 ^ f.width
  let at0 := if db.isFrit then fritScales (entryField y 4 4) else codeBytes f
  let step : MStep :=
    { acc := o.acc, ow := o.ow, last := o.last
      sums := stepSums (rowsA x o.ta) (colsB db y at0 code o.tb) o.transposed
      rings := [o.sta, o.stb]
      pops := (if o.pa then [(o.sta, 4096)] else []) ++
        (if o.pb && (o.stb != o.sta || !o.pa) then [(o.stb, lenB)] else [])
      start := BitVec.ofNat 64 now, posts := postBits o.sync }
  M.mapCore fun c => { c with
    steps := c.steps ++ [step]
    lastStep := some (BitVec.ofNat 64 now)
    tref := if timed then BitVec.ofNat 64 target else c.tref }
  return .next

/-- A step word: its tokens are taken when it starts and its posts made when it retires; a timed one tests its tokens
at its target (R19, R214). -/
def runStep (i : Instr) (o : StepOp) (s : State) : Host.Outcome State Fault Refusal :=
  if o.stamp ≠ 0 ∨ s.core.tokens .m o.sync then finishWord i .m (o.sync &&& 0b1100) s ((stepBody o).run.run s)
  else .next (s.held .m (.waitToken o.sync))

/-- MMA. -/
def execMma (sync : BitVec 4) (acc : BitVec 2) (sta stb : BitVec 4) (ta tb ow pa pb last : BitVec 1) (stamp : BitVec 8)
    (s : State) : Host.Outcome State Fault Refusal :=
  runStep (.mma sync acc sta stb ta tb ow pa pb last stamp)
    { transposed := false, sync := sync, acc := acc.toNat, sta := sta.toNat, stb := stb.toNat, ta := ta == 1, tb := tb == 1
      ow := ow == 1, pa := pa == 1, pb := pb == 1, last := last == 1, stamp := stamp.toNat } s

/-- MMAT: the product is added into the transposed element. -/
def execMmat (sync : BitVec 4) (acc : BitVec 2) (sta stb : BitVec 4) (ta tb ow pa pb last : BitVec 1) (stamp : BitVec 8)
    (s : State) : Host.Outcome State Fault Refusal :=
  runStep (.mmat sync acc sta stb ta tb ow pa pb last stamp)
    { transposed := true, sync := sync, acc := acc.toNat, sta := sta.toNat, stb := stb.toNat, ta := ta == 1, tb := tb == 1
      ow := ow == 1, pa := pa == 1, pb := pb == 1, last := last == 1, stamp := stamp.toNat } s

/-! ### Retirement of a step (R205, R206, R208) -/

/-- An entry popped from a ring by M: the chunks decoded from it go with it. -/
def Core.popEntry (c : Core) (ring n : Nat) : Core :=
  let d := c.desc ring
  { c.setDesc ring (d.popBytes n) with
    decoded := c.decoded.filter fun x => !(x.ring == ring && x.entry == d.head) }

/-- What a retiring step makes of its core. -/
def MStep.commit (m : MStep) (c : Core) : Core :=
  if m.bare then c
  else
  let sums := accList m.sums
  let new := if m.ow then m.sums else accOf (((accList (c.accum m.acc)).zip sums).map fun p => addF32 p.1 p.2)
  let c := m.pops.foldl (fun c p => c.popEntry p.1 p.2) { c with acc := vset c.acc m.acc new }
  if m.last then { c with tvalid := false } else c

/-- The posts of a step carried to retirement for a trap, behind a word of M that holds there: those without room become
pending (R393), and two of them on one FIFO share its one bit (DESIGN CHOICE, assumption log 68). -/
def Core.postOrPend (c : Core) (st : Stream) (p : BitVec 2) : Core :=
  (posts st p).foldl (fun c f => if c.count f < 16 then c.addToken f else { c with pend := c.pend ||| (1#8 <<< f) }) c

/-- STEP_RETIREMENT (R205): the oldest step of a core commits, pops and posts, unless an earlier post of M stands. With
a trap pending, a step behind such a post is carried to retirement too (R208, R393). -/
def execStepRetirement (core : Nat) (s : State) : Host.Outcome State Fault Refusal :=
  if 1024 ≤ core then .fault .noSuchUnit
  else
    let c := s.coreAt core
    match c.steps with
    | [] => .next s
    | m :: rest =>
      let owes := vget c.owed 0 2 != 0 && m.posts != 0
      if owes && c.pending.isNone then .next s
      else
        let c := m.commit { c with steps := rest, stall := 0 }
        .next (s.putCore core (if owes then c.postOrPend .m m.posts else c.postOrOwe .m m.posts))

/-! ### Other accumulator words (R209 to R211) -/

/-- Hold until no step in flight is to commit into one of these accumulators or pops one of these rings. -/
def stepsDone (accs rings : List Nat) : M Unit := do
  let c ← M.core
  M.until (!(c.steps.any fun m => !m.bare && (accs.contains m.acc || rings.any fun r => m.rings.contains r))) (.device 20)

/-- MZERO. -/
def execMzero (sync : BitVec 4) (acc : BitVec 2) (s : State) : Host.Outcome State Fault Refusal :=
  runWord (.mzero sync acc) .m sync (do
    stepsDone [acc.toNat] []
    M.mapCore fun c => { c with acc := vset c.acc acc.toNat 0 }
    return .next) s

/-- MACC. -/
def execMacc (sync : BitVec 4) (acc src : BitVec 2) (s : State) : Host.Outcome State Fault Refusal :=
  runWord (.macc sync acc src) .m sync (do
    stepsDone [acc.toNat, src.toNat] []
    M.mapCore fun c =>
      let sum := ((accList (c.accum acc.toNat)).zip (accList (c.accum src.toNat))).map fun p => addF32 p.1 p.2
      { c with acc := vset c.acc acc.toNat (accOf sum) }
    return .next) s

/-- The bytes that an accumulator takes in a ring, and the checks of R210. -/
def drainBytes (d : Desc) : M Nat := do
  let f := Fmt.ofCode d.fmt
  M.check (!d.isFrit && (f == some .fp32 || f == some .bf16) && d.sstride == 0) (Trap.operand 0x06)
  let n := if f = some .fp32 then 16384 else 8192
  M.check (n ≤ d.size) (Trap.operand 0x07)
  return n

/-- MDRAIN. Where X fills a drain ring in the same node, which R210 leaves undefined, both write their bytes and advance
the tail (DESIGN CHOICE, assumption log 53). -/
def execMdrain (sync : BitVec 4) (acc : BitVec 2) (ring : BitVec 4) (last : BitVec 1) (s : State) :
    Host.Outcome State Fault Refusal :=
  runWord (.mdrain sync acc ring last) .m sync (do
    let r := ring.toNat
    let d := (← M.core).desc r
    let n ← drainBytes d
    M.until (n ≤ d.room) (.ringFull r n)
    stepsDone [acc.toNat] []
    let s ← get
    let l := accList (s.core.accum acc.toNat)
    let bytes := if n = 16384 then l.flatMap (leBytes 4) else l.flatMap fun x => leBytes 2 (roundBF16 (Fmt.fp32.decode true x))
    set (s.ringStore s.me d d.tail bytes)
    M.mapCore fun c =>
      let c := c.setDesc r (d.completeBytes n)
      if last = 1 then { c with acc := vset c.acc acc.toNat 0 } else c
    return .next) s

/-- MFILL. -/
def execMfill (sync : BitVec 4) (acc : BitVec 2) (ring : BitVec 4) (pa : BitVec 1) (s : State) :
    Host.Outcome State Fault Refusal :=
  runWord (.mfill sync acc ring pa) .m sync (do
    let r := ring.toNat
    let d := (← M.core).desc r
    let n ← drainBytes d
    M.until (n ≤ d.avail) (.ringShort r n)
    stepsDone [acc.toNat] [r]
    let x := leNat (← readRing r d.head n)
    let l := (List.range 4096).map fun i =>
      if n = 16384 then entryField x (4 * i) 4 else roundF32 (Fmt.bf16.decode true (entryField x (2 * i) 2))
    M.mapCore fun c =>
      let c := { c with acc := vset c.acc acc.toNat (accOf l) }
      if pa = 1 then c.popEntry r n else c
    return .next) s

/-! ### Timing state (R212, R213, R215) -/

/-- MSTAMP. The LAST of a step before it that has not retired no longer clears TVALID (R205, R213). -/
def execMstamp (sync : BitVec 4) (s : State) : Host.Outcome State Fault Refusal :=
  runWord (.mstamp sync) .m sync (do
    let c ← M.core
    M.until (c.readable 8) (.emptyScalar 2)
    M.mapCore fun c =>
      { c.popScalar 2 with
        tref := (c.scalar 2).top, tvalid := true, steps := c.steps.map fun m => { m with last := false } }
    return .next) s

/-- MWIN. -/
def execMwin (sync : BitVec 4) (n : BitVec 8) (s : State) : Host.Outcome State Fault Refusal :=
  runWord (.mwin sync n) .m sync (do
    M.check (n.toNat ≤ 4) (Trap.operand 0x08)
    M.mapCore fun c => { c with wreq := if n = 0 then 1 else n.setWidth 3 }
    return .next) s

end Sys2Proof.Machine
end

