-- ==== Sys2Proof/Machine/Engine.lean ====
section
/-! DEFINITION. The fabric engine and the stack engine: RSTORE, MSEND, SWRITE, STAB, SMV and the stack-side unit
(R305 to R310, R439, R440). An event of an engine takes the command at the head of its port; where there is none of its
kind, or the command cannot be taken yet, the event changes nothing. -/

namespace Sys2Proof.Machine

/-! ### Taking a command (R302, R303, R439) -/

/-- OP and NW of a command, and whether its reserved header bits are clear. -/
def Command.op (k : Command) : Nat := bits (k.words.headD 0) 63 56
def Command.nw (k : Command) : Nat := bits (k.words.headD 0) 55 48
def Command.plain (k : Command) : Bool := bits (k.words.headD 0) 30 0 == 0

/-- A further word of a command. -/
def Command.word (k : Command) (n : Nat) : Dword := k.words.getD n 0

/-- The command at the head of a port's FIFO. -/
def Core.head (c : Core) (port : Nat) : Option Command := (c.port port).fifo.head?

/-- The accesses that the push released are performed (R274, R303). -/
def Core.released (c : Core) : Bool := c.stores.isEmpty && c.fills.toList.all List.isEmpty

/-- The head command taken from its FIFO; the log of R397 empties with the last untaken command. -/
def Core.takeHead (c : Core) (port : Nat) : Core :=
  let p := c.port port
  (c.setPort port { p with fifo := p.fifo.drop 1 }).settleLog

/-- A taken command ends at once. -/
def State.endNow (s : State) (k port : Nat) (cmd : Command) (status : BitVec 8) (info : Nat) : State :=
  s.endCommand k port (cmd.words.headD 0) cmd.tagPc cmd.job status info

/-- What an engine makes of a command: it takes it, or leaves it until a later event; what its walks have left stands. -/
abbrev Taken := Except State State

/-- The end of a step that a full table of identifiers holds up. -/
def Taken.orWait (s : State) (x : Option State) : Taken := match x with
  | some s' => .ok s'
  | none => .error s

/-- A command whose words hold an uncorrectable error is taken and has no effect: it ends with the STATUS of such an error,
and an SMV with a record, its entries never complete (R411, where what follows is nowhere stated; DESIGN CHOICE, assumption
log 26). -/
def State.badCommand (s : State) (core port : Nat) (cmd : Command) : State :=
  match cmd.product with
  | none => s.endNow core port cmd 0x06 0
  | some d =>
    let c := s.coreAt core
    (s.putCore core { c with blocked := c.blocked ||| (1#16 <<< d.ring) }).async core
      { syn := arsyn 1 0x11 0 0, addr := d.pc, det := d.waddr, job := d.job }

/-- What an engine's step makes of a core's head command: taken, or left where it is. -/
def engine (core port : Nat) (mine : Command → Bool) (s : State) (run : Command → State → Taken) :
    Host.Outcome State Fault Refusal :=
  if 1024 ≤ core then .fault .noSuchUnit
  else
    let c := s.coreAt core
    match c.head port with
    | none => .next s
    | some cmd =>
      if !mine cmd || !(cmd.product.isSome || c.released) then .next s
      else if flipsBad cmd.flips then .next ((s.putCore core (c.takeHead port)).badCommand core port cmd)
      else match run cmd (s.putCore core (c.takeHead port)) with
        | .ok s' => .next s'
        | .error s' => .next (s'.putCore core { s'.coreAt core with ports := c.ports, logged := c.logged })

/-- Whether every address of a range lies in the translated device half; or in the scratchpad window. -/
def deviceRange (va : Dword) (n : Nat) : Bool :=
  bits va 63 56 == 0xFE && bits (va + BitVec.ofNat 64 (n - 1)) 63 56 == 0xFE
def windowRange (va : Dword) (n : Nat) : Bool :=
  (windowOf va).isSome && (windowOf (va + BitVec.ofNat 64 (n - 1))).isSome

/-- The request of an engine under the context a command was pushed in (R440). -/
def Command.req (cmd : Command) (core : Nat) (acc : Acc) : Req where
  core := core
  st := .x
  agent := 5
  acc := acc
  pl := BitVec.ofNat 2 (bits cmd.ctx 1 0)
  part := BitVec.ofNat 4 (bits cmd.ctx 7 4)
  vf := bits cmd.ctx 15 8
  pasid := BitVec.ofNat 20 (bits cmd.ctx 35 16)
  die := dieOf core

/-- The partition of a command. -/
def Command.part (cmd : Command) : Nat := bits cmd.ctx 7 4

/-- The pieces of an engine's range, or the STATUS of the check that fails, or neither while a walk waits for a table at a
peer: an SO page of a peer is of a kind that no command accepts (R253, R264, R439). -/
def State.enginePieces (s : State) (q : Req) (va : Dword) (n : Nat) : Except (Option (BitVec 8)) (List Piece) × State :=
  match (translateParts q (split (pageOf va) va.toNat n) false).run.run s with
  | (.ok ps, s) => if ps.any fun p => p.kind == .so && p.peer s q.die then (.error (some 0x03), s) else (.ok ps, s)
  | (.error (.trap t), s) =>
    (.error (some (if t.cls = 0x07 then 0x03 else if t.cls = 0x04 then (if windowRange va n then 0x03 else 0x05) else 0x02)), s)
  | (.error _, s) => (.error none, s)

/-- Whether a piece lies in the issuing die's own domain, or is a channel-resident page of it. -/
def Piece.home (p : Piece) (s : State) (die : Nat) : Bool := p.place == .hbm (s.nodeOf die)
def Piece.channelHome (p : Piece) (s : State) (die : Nat) : Bool := p.home s die && !isIL p.addr

/-- The data words of RSTORE and SWRITE as bytes. -/
def Command.data (cmd : Command) : List Byte := (cmd.words.drop 2).flatMap fun w => leBytes 8 w.toNat

/-- The command is taken and waits for messages (R305). -/
def State.await (s : State) (k port : Nat) (cmd : Command) (count : Nat) (ids : List Nat)
    (stab : Option (Nat × List Piece) := none) : State :=
  let c := s.coreAt k
  let p := c.port port
  s.putCore k (c.setPort port { p with active := p.active ++
    [{ header := cmd.words.headD 0, pc := cmd.tagPc, job := cmd.job, born := s.kiln, count := count, waits := ids
       ids := ids, stab := stab }] })

/-- The agent of an engine's accesses. -/
def Command.agent (cmd : Command) (core : Nat) : Agent := { core := core, st := .x, pc := cmd.tagPc, job := cmd.job }

/-! ### The fabric engine (R305, R440) -/

/-- RSTORE: translated at the pushing die, one page's part by its own flits. -/
def runRstore (core : Nat) (cmd : Command) (s : State) : Taken :=
  let bs := cmd.data
  let va := cmd.word 1
  if cmd.op ≠ 0x01 ∨ !cmd.plain then .ok (s.endNow core 0 cmd 0x07 0)
  else if cmd.nw < 2 ∨ 31 < cmd.nw ∨ !deviceRange va bs.length ∨ va.toNat % 8 ≠ 0 then .ok (s.endNow core 0 cmd 0x05 0)
  else match s.enginePieces (cmd.req core .store) va bs.length with
    | (.error none, s) => .error s
    | (.error (some status), s) => .ok (s.endNow core 0 cmd status 0)
    | (.ok ps, s) =>
      if ps.any fun p => p.kind == .so then .ok (s.endNow core 0 cmd 0x03 0)
      else
        let flits := ps.foldl (fun n p => n + ((wordsOf p.addr p.len).2 + 7) / 8) 0
        let sent := (offsets ps).foldlM (fun (acc : List Nat × State) o =>
          (acc.2.writePeer (dieOf core) (.engine core 0) o.2 ((bs.drop o.1).take o.2.len) {} (some (cmd.agent core))).map fun r =>
            (acc.1 ++ r.1, r.2)) ([], s)
        Taken.orWait s (sent.map fun r => r.2.await core 0 cmd flits r.1)

/-- RSTORE (R305): the fabric engine takes its next command, unless that is an MSEND. -/
def execRstore (core : Nat) (s : State) : Host.Outcome State Fault Refusal :=
  engine core 0 (fun cmd => cmd.op != 0x02) s (runRstore core)

/-- The bytes of pieces of this die, read by an engine. -/
def readAll (ag : Agent) : List Piece → R (List Byte)
  | [] => return []
  | p :: rest => do
    let bs ← readPiece ag p
    return bs ++ (← readAll ag rest)

/-- A worker core of a die that a partition owns; nodes outside the package are judged there. -/
def State.workerAt (s : State) (part node dcore : Nat) : Bool :=
  match s.dieOfNode node with
  | some d => s.owns (BitVec.ofNat 4 part) (d * 256 + dcore)
  | none => dcore != 0

/-- MSEND: the source is read here, and the destination translated at its node. A source that fails leaves the
destination's translation fault to decide the STATUS first (R439). -/
def runMsend (core : Nat) (cmd : Command) (s : State) : Taken :=
  let w1 := cmd.word 1
  let node := bits w1 43 32
  let len := bits w1 27 16 + 1
  let dcore := bits w1 7 0
  let src := cmd.word 2
  let dst := cmd.word 3
  let stop (status : BitVec 8) (s : State) : Taken := .ok (s.endNow core 0 cmd status 0)
  if !cmd.plain ∨ bits w1 63 44 ≠ 0 ∨ bits w1 31 28 ≠ 0 ∨ bits w1 15 8 ≠ 0 then stop 0x07 s
  else if !s.inNodeSet cmd.part node then stop 0x04 s
  else if cmd.nw ≠ 3 ∨ !(deviceRange src len || windowRange src len) ∨ !deviceRange dst len ∨ len % 8 ≠ 0 ∨
      src.toNat % 8 ≠ 0 ∨ dst.toNat % 8 ≠ 0 then stop 0x05 s
  else if !s.workerAt cmd.part node dcore then stop 0x08 s
  else
    let g : Range := {
      dest := BitVec.ofNat 12 node, part := BitVec.ofNat 4 cmd.part, vf := bits cmd.ctx 15 8
      pasid := BitVec.ofNat 20 (bits cmd.ctx 35 16), va := dst, len := len, write := true, dcore := dcore
      tag := bits (cmd.words.headD 0) 47 32, action := 1, score := core % 256 }
    let ask (status : BitVec 8) (bs : List Byte) (s : State) : Taken :=
      let flits (id : Nat) : List Flit := if status = 0 then s.rangeWrites (dieOf core) g (cmd.agent core) bs id else []
      Taken.orWait s ((s.askRange (dieOf core) (.engine core 0) g flits status).map fun r =>
        r.2.await core 0 cmd (if status = 0 then (len + 63) / 64 else 0) [r.1])
    match s.enginePieces (cmd.req core .load) src len with
    | (.error none, s) => .error s
    | (.error (some status), s) => if status = 0x03 then ask 0x03 [] s else stop status s
    | (.ok ps, s) =>
      let near (p : Piece) : Bool := match p.place with
        | .scratch k => k / 128 == core / 128
        | _ => p.home s (dieOf core)
      if !ps.all near then ask 0x03 [] s
      else match s.allow (holdNo core 8) ps .read with
        | .error s => .error s
        | .ok s =>
          match (readAll (cmd.agent core) ps).run.run s with
          | (.error _, s) => ask 0x06 [] s
          | (.ok bs, s) => ask 0 bs s

/-- MSEND (R305): the fabric engine takes its next command. -/
def execMsend (core : Nat) (s : State) : Host.Outcome State Fault Refusal :=
  engine core 0 (fun cmd => cmd.op == 0x02) s (runMsend core)

/-! ### The stack engine (R307) -/

/-- A stack-engine command is admitted by its budget and counts against it (R130, R307). -/
def State.stackAdmits (s : State) (core part : Nat) : Bool :=
  let d := s.die (dieOf core)
  let b := bits (vget d.budget 0 part) 15 4
  (b == 0xFFF || decide ((vget d.used {} part).stkc < b)) && s.firstOf (dieOf core) (part + 16) (holdNo core 10)
def State.stackCharge (s : State) (core part : Nat) : State :=
  s.mapDie (dieOf core) fun d => { d with
    heldBy := d.heldBy.filter (· != (part + 16, holdNo core 10))
    used := vset d.used part (let u := vget d.used {} part; { u with stkc := u.stkc + 1 }) }

/-- A command that the budget holds waits behind those of its partition that were held before it. -/
def State.stackHold (s : State) (core part : Nat) : State :=
  s.mapDie (dieOf core) fun d =>
    if d.heldBy.contains (part + 16, holdNo core 10) then d else { d with heldBy := d.heldBy ++ [(part + 16, holdNo core 10)] }

/-- A command of the stack engine, under its budget. -/
def stackEngine (core : Nat) (mine : Command → Bool) (s : State) (run : Command → State → Taken) :
    Host.Outcome State Fault Refusal :=
  engine core 2 mine s fun cmd s =>
    if s.stackAdmits core cmd.part then (run cmd s).map fun s => s.stackCharge core cmd.part
    else .error (s.stackHold core cmd.part)

/-- SWRITE: data words written through the channel's Glaze unit; a write that fails there is also reported to the issuing
stream as a store's would be (R263, R375, R376). -/
def runSwrite (core : Nat) (cmd : Command) (s : State) : Taken :=
  let bs := cmd.data
  let va := cmd.word 1
  let stop (status : BitVec 8) (s : State) : Taken := .ok (s.endNow core 2 cmd status 0)
  if cmd.op ≠ 0x10 ∨ !cmd.plain then stop 0x07 s
  else if cmd.nw < 2 ∨ 31 < cmd.nw ∨ !deviceRange va bs.length ∨ va.toNat % 8 ≠ 0 then stop 0x05 s
  else match s.enginePieces (cmd.req core .store) va bs.length with
    | (.error none, s) => .error s
    | (.error (some status), s) => stop status s
    | (.ok ps, s) =>
      if !ps.all fun p => p.channelHome s (dieOf core) then stop 0x03 s
      else match s.allow (holdNo core 10) ps .write with
        | .error s => .error s
        | .ok s =>
          let work : R Unit := (offsets ps).forM fun o =>
            tryCatch (writePiece (cmd.agent core) o.2 ((bs.drop o.1).take o.2.len)) fun e => do
              modify fun s => s.memRecord { cmd.agent core with st := .s } o.2.va e
              throw e
          match work.run.run s with
          | (.ok _, s) => stop 0 s
          | (.error _, s) => stop 0x06 s

/-- A command word pair that SMV pushed, not a command of its own. -/
def Command.isProduct (cmd : Command) : Bool := cmd.product.isSome

/-- SWRITE (R307): the stack engine takes its next command, unless that is a STAB or a product. -/
def execSwrite (core : Nat) (s : State) : Host.Outcome State Fault Refusal :=
  stackEngine core (fun cmd => cmd.op != 0x11 && !cmd.isProduct) s (runSwrite core)

/-- STAB: a table image loaded into a stack-side unit, once its pages at peers have been read by requests (R264). -/
def runStab (core : Nat) (cmd : Command) (s : State) : Taken :=
  let va := cmd.word 1
  let w2 := cmd.word 2
  let die := dieOf core
  let stop (status : BitVec 8) (s : State) : Taken := .ok (s.endNow core 2 cmd status 0)
  if !cmd.plain ∨ bits w2 63 9 ≠ 0 then stop 0x07 s
  else if cmd.nw ≠ 2 ∨ !deviceRange va 512 ∨ va.toNat % 2 ≠ 0 ∨ !(s.die die).live.getLsbD (bits w2 5 0) then stop 0x05 s
  else match s.enginePieces (cmd.req core .load) va 512 with
    | (.error none, s) => .error s
    | (.error (some status), s) => stop status s
    | (.ok ps, s) =>
      match s.allow (holdNo core 10) (ps.filter fun p => !p.peer s die) .read with
      | .error s => .error s
      | .ok s =>
        let key := stackTable (bits w2 5 0) cmd.part (bits w2 8 6)
        let sent := (ps.filter fun p => p.peer s die).foldlM (fun (acc : List Nat × State) p =>
          (acc.2.readPeer die (.engine core 2) p).map fun r => (acc.1 ++ r.1, r.2)) ([], s)
        match sent with
        | none => .error s
        | some ([], s) =>
          let r := s.loadTable die key (imageBytes (cmd.agent core) ps [])
          stop r.1 r.2
        | some (ids, s) => .ok (s.await core 2 cmd 0 ids (some (key, ps)))

/-- STAB (R307): the stack engine takes its next command. -/
def execStab (core : Nat) (s : State) : Host.Outcome State Fault Refusal :=
  stackEngine core (fun cmd => cmd.op == 0x11 && !cmd.isProduct) s (runStab core)

/-! ### SMV (R308, R309) -/

/-- The weights' descriptor as a stream descriptor with FORMAT as its word 1. -/
def formatDesc (format : Dword) : Desc := { w1 := format }

/-- Whether FORMAT is one that R158 and R299 allow for B. -/
def formatOk (format : Dword) : Bool :=
  Desc.okFormat format &&
    (Fmt.ofCode (formatDesc format).fmt).any fun f => if (formatDesc format).isFrit then f.isFritB else f.isFixedB

/-- The ranges of addresses that the weights occupy: the fixed tiles, or the stream with its index table, and the scales. -/
def weightRanges (d : Desc) (waddr soff : Dword) (nt stream : Nat) : List (Dword × Nat) :=
  if d.isFrit then
    [(waddr, max (4 * (nt + 1)) stream)] ++ (if d.sstride = 0 then [] else [(waddr + soff, nt * d.scaleRegion)])
  else [(waddr, nt * d.fixedLen ((Fmt.ofCode d.fmt).getD .bf16))]

/-- The pieces of several ranges: each step of R285 is taken over every page before the next. -/
def rangePieces (q : Req) (ranges : List (Dword × Nat)) : M (List Piece) := do
  ranges.forM fun r => checkEnds q r.1 r.2
  translateParts q (ranges.flatMap fun r => split (pageOf r.1) r.1.toNat r.2) false

/-- The length of a Frit stream: the last entry of its index table, read by S as the word issues, with the errors of such a
read (R285, R414), which R309 and R310 leave open (DESIGN CHOICE, assumption log 76). Where the entry's page faults or is not a channel's own, `rangePieces` or the check of the channel
raises the word's fault, and the length is not needed. -/
def streamLength (q : Req) (va : Dword) : M Nat := do
  match (translateParts q (split (pageOf va) va.toNat 4) false).run.run (← get) with
  | (.ok ps, s) => do
    if ps.all fun p => p.channelHome s q.die then
      set s
      return leNat (← loadBytes ps)
    else return 0
  | (.error (.trap _), _) => return 0
  | (.error h, s) => do
    set s
    throw h

/-- The words that an SMV takes in the FIFO. -/
def smvWords : Nat := 6

/-- SMV ga, gb, stN. -/
def smvBody (ga gb : BitVec 5) (ring : BitVec 4) : M Ctl := do
  let c ← M.core
  let me := (← get).me
  let p := c.port 2
  if p.part.isSome then do
    M.mapCore fun c => (c.setPort 2 { p with part := none }).settleLog
    M.trap (Trap.operand 0x41)
  let waddr := c.readG ga
  let dims := c.readG (ga + 1)
  let format := c.readG (ga + 2)
  let soff := c.readG (ga + 3)
  let x := c.readG gb
  let nnb := bits dims 41 32 + 1
  let nkb := bits dims 9 0 + 1
  let w := formatDesc format
  let d := c.desc ring.toNat
  M.check (bits dims 63 42 == 0 && bits dims 31 10 == 0 && formatOk format &&
    (soff == 0 || (w.isFrit && w.sstride != 0)) && !d.isFrit && Fmt.ofCode d.fmt == some .fp32 && d.sstride == 0 &&
    decide (256 ≤ d.size) && x.toNat % 2 == 0 && decide (x.toNat + 64 * nkb ≤ 0x100000)) (Trap.operand 0x20)
  let q := c.req me .s .smvRead
  let nt := nkb * nnb
  let stream ← if w.isFrit then streamLength q (waddr + BitVec.ofNat 64 (4 * nt)) else pure 0
  let ps ← rangePieces q (weightRanges w waddr soff nt stream)
  let s ← get
  let chans := ps.map fun p => bits (BitVec.ofNat 64 p.addr) 36 31
  M.check (ps.all (fun p => p.channelHome s (dieOf me)) && chans.all fun n => n == chans.headD 0) (Trap.operand 0x21)
  let vec : Piece := {
    va := 0, place := .scratch me, addr := x.toNat, len := 64 * nkb, kind := .rc, l1 := false, am := false
    part := c.part, key := 0, anyOwner := false }
  let bs ← loadBytes [vec]
  let c ← M.core
  let d := c.desc ring.toNat
  let p := c.port 2
  M.until (decide (256 * nnb ≤ d.room) && decide (p.words + smvWords ≤ 32)) (.device 19)
  let s ← get
  let product : Product := {
    pc := c.spc, pieces := ps, waddr := waddr, nnb := nnb, nkb := nkb, format := format, soff := soff
    x := (List.range (32 * nkb)).map fun i => BitVec.ofNat 16 (leNat ((bs.drop (2 * i)).take 2))
    ring := ring.toNat, off := (d.tail + d.rsvd) % d.size, chan := chans.headD 0, next := 0, job := c.job, born := s.kiln }
  let cmd : Command := {
    words := [place 0x55 56 ||| place 5 48, waddr, dims, format, soff, x], logAt := c.logged, tagPc := c.spc, tagSeq := vget c.seq 0 0
    g := c.g, loops := c.loop .s, whole := true, job := c.job, ctx := c.ctx, order := c.pushes
    rsv := some (ring.toNat, 256 * nnb), product := some product }
  M.mapCore fun c => { (c.setDesc ring.toNat (d.reserve (256 * nnb))).setPort 2 { p with fifo := p.fifo ++ [cmd] } with
    pushes := c.pushes + 1 }
  return .next

/-- SMV: a push, which may follow a command its engine has not taken (R397). -/
def execSmv (ga gb : BitVec 5) (ring : BitVec 4) (s : State) : Host.Outcome State Fault Refusal :=
  untrapped (.smv ga gb ring) s (runReg (.smv ga gb ring) Core.loopBack (smvBody ga gb ring))

/-! ### The stack-side unit (R309, R310) -/

/-- The parts of pieces that hold `n` bytes at a VA. -/
def piecesAt (ps : List Piece) : Nat → Nat → Nat → List Piece
  | 0, _, _ => []
  | f + 1, va, n =>
    if n = 0 then []
    else match ps.find? fun p => decide (p.va.toNat ≤ va) && decide (va < p.va.toNat + p.len) with
      | none => []
      | some p =>
        let o := va - p.va.toNat
        let k := min n (p.len - o)
        { p with va := BitVec.ofNat 64 va, addr := p.addr + o, len := k } :: piecesAt ps f (va + k) (n - k)

/-- What ends a product early: a memory error at a VA, or a Frit error with the word of R228. -/
inductive UnitStop where
  | memory (e : ReadErr) (va : Dword)
  | frit (reason : Nat) (detail : Dword)
  deriving DecidableEq, Repr

/-- A computation of a stack-side unit. -/
abbrev U (α : Type) := ExceptT UnitStop (StateM State) α

/-- Bytes of the weights; bytes that no page holds break the index table. -/
def unitRead (core : Nat) (d : Product) (tile va n : Nat) : U (List Byte) := do
  let ps := piecesAt d.pieces (n + 1) va n
  if (ps.map (·.len)).foldl (· + ·) 0 != n then throw (.frit 7 (fritDetail tile 0 0 0 d.ring 0 7))
  let s ← get
  match (readAll { core := core, st := .x, pc := d.pc } ps).run.run s with
  | (.ok bs, s) => set s; return bs
  | (.error e, s) => set s; throw (.memory e (BitVec.ofNat 64 va))

/-- The symbols of one chunk at a unit; what no rule gives is a free value. -/
def unitChunk (d : Product) (tables : Nat → FritTable) (x tile e fin n : Nat) : U (List Nat) := do
  let w4 := (Fmt.ofCode (formatDesc d.format).fmt).any fun f => f.width == 4
  match decodeChunk tables w4 x e fin with
  | .symbols l => return l
  | .undefined => do
    let (y, s) := (← get).draw 8192
    set s
    return (List.range 1024).map fun i => (y.extractLsb' (8 * i) 8).toNat % (if w4 then 16 else 256)
  | .bad reason tbl =>
    throw (.frit reason (fritDetail tile e n (tbl.getD (Config.unreadTable x).toNat) d.ring 0 reason))

/-- The columns of a tile of the weights, dequantised (R159, R217, R224, R230, R308). -/
def unitTile (core : Nat) (d : Product) (tables : Nat → FritTable) (tile : Nat) : U (List (List Num)) := do
  let w := formatDesc d.format
  let f := (Fmt.ofCode w.fmt).getD .bf16
  let nt := d.nkb * d.nnb
  if w.isFrit then do
    let ix ← unitRead core d tile (d.waddr.toNat + 4 * tile) 8
    let a := leNat (ix.take 4)
    let b := leNat (ix.drop 4)
    if a % 4 != 0 || b % 4 != 0 || decide (a < 4 * (nt + 1)) || decide (b ≤ a) || decide (4096 < b - a) then
      throw (.frit 7 (fritDetail tile 0 0 0 d.ring 0 7))
    let coded ← unitRead core d tile (d.waddr.toNat + a) (b - a)
    let x := 2 ^ 64 * leNat coded
    let y0 ← unitChunk d tables x tile 8 (8 + coded.length) 0
    let y1 ← unitChunk d tables x tile (8 + entryField x 8 2) (8 + coded.length) 1
    let sc ← (if w.sstride = 0 then pure []
      else unitRead core d tile (d.waddr + d.soff + BitVec.ofNat 64 (tile * w.scaleRegion)).toNat w.scaleRegion)
    let codes := y0 ++ y1
    return colsB w (leNat sc) 0 (fun i => codes.getD i 0) false
  else do
    let n := w.fixedLen f
    let bs ← unitRead core d tile (d.waddr.toNat + tile * n) n
    let y := leNat bs
    return colsB w y (codeBytes f) (fun i => (y >>> (f.width * i)) % 2 ^ f.width) false

/-- The 64 sums of an output tile, over its K blocks in ascending order (R162). -/
def unitSums (core : Nat) (d : Product) (tables : Nat → FritTable) (nb : Nat) : Nat → U (List Nat)
  | 0 => return []
  | kb + 1 => do
    let before ← unitSums core d tables nb kb
    let cols ← unitTile core d tables (nb * d.nkb + kb)
    let row := (List.range 32).map fun k => Fmt.bf16.decode true (d.x.getD (32 * kb + k) 0).toNat
    let sums := cols.map fun col => stepSum (row.zip col)
    return if kb = 0 then sums else (before.zip sums).map fun p => addF32 p.1 p.2

/-- The unit ends a product early: its entry and every later one never become complete (R310). -/
def State.endProduct (s : State) (core : Nat) (d : Product) (r : Record) : State :=
  let c := s.coreAt core
  (s.putCore core { c with products := c.products.drop 1, blocked := c.blocked ||| (1#16 <<< d.ring) }).async core r

/-- The reads of the weights' memory that an output tile makes, as its unit's seal-tile accesses (R130). -/
def Product.needs (d : Product) (s : State) : List Units :=
  let w := formatDesc d.format
  let nt := d.nkb * d.nnb
  let word (va : Nat) : Nat := leNat ((piecesAt d.pieces 5 va 4).flatMap fun p => p.raw s)
  let reads : List (Nat × Nat) := (List.range d.nkb).flatMap fun kb =>
    let tile := d.next * d.nkb + kb
    if w.isFrit then
      let ix := d.waddr.toNat + 4 * tile
      let a := word ix
      let b := word (ix + 4)
      let coded := if a % 4 != 0 || b % 4 != 0 || decide (a < 4 * (nt + 1)) || decide (b ≤ a) || decide (4096 < b - a) then []
        else [(d.waddr.toNat + a, b - a)]
      let scales := if w.sstride = 0 then []
        else [((d.waddr + d.soff + BitVec.ofNat 64 (tile * w.scaleRegion)).toNat, w.scaleRegion)]
      [(ix, 8)] ++ coded ++ scales
    else
      let n := w.fixedLen ((Fmt.ofCode w.fmt).getD .bf16)
      [(d.waddr.toNat + tile * n, n)]
  reads.flatMap fun r => (piecesAt d.pieces (r.2 + 1) r.1 r.2).flatMap fun p => s.unitsOf p .read

/-- A core's first product forms its next output tile, once its channel's budget has admitted what it reads (R130, R309). -/
def State.unitStep (s : State) (core : Nat) (d : Product) : State :=
  let die := dieOf core
  let part := (d.pieces.map (·.part)).headD 0
  let tables (t : Nat) : FritTable := Tab.get {} (s.die die).stackTables (stackTable d.chan part.toNat t)
  match s.admitUnits (holdNo core 6) (d.needs s) with
  | .error s => s
  | .ok s =>
    match (unitSums core d tables d.next d.nkb).run.run s with
    | (.error (.memory e va), s) =>
      s.endProduct core d { syn := arsyn e.kindCode.1 e.kindCode.2 0 0, addr := d.pc, det := va, job := d.job }
    | (.error (.frit reason detail), s) =>
      s.endProduct core d { syn := arsyn 4 reason 0 0, addr := d.pc, det := detail, job := d.job }
    | (.ok y, s) =>
      let ring := (s.coreAt core).desc d.ring
      let s := s.ringStore core ring ((d.off + 256 * d.next) % max ring.size 1) (y.flatMap (leBytes 4))
      let c := s.coreAt core
      let rest := if d.next + 1 = d.nnb then c.products.drop 1 else { d with next := d.next + 1 } :: c.products.drop 1
      let ring' := if c.blocked.getLsbD d.ring then ring else (ring.completeBytes 256).release 256
      s.putCore core { c.setDesc d.ring ring' with products := rest }

/-- STACK_SIDE_PRODUCT (R309): the unit forms the next output tile of the core's oldest product; where it has none, the
stack engine takes the SMV at the head of ep2. -/
def execStackSideProduct (core : Nat) (s : State) : Host.Outcome State Fault Refusal :=
  if 1024 ≤ core then .fault .noSuchUnit
  else match (s.coreAt core).products with
    | d :: _ => .next (s.unitStep core d)
    | [] => stackEngine core Command.isProduct s fun cmd s =>
        Taken.orWait s (cmd.product.map fun d =>
          let c := s.coreAt core; s.putCore core { c with products := c.products ++ [d] })

end Sys2Proof.Machine
end

