-- ==== Sys2Proof/Machine/Tick.lean ====
section
/-! DEFINITION. The passing of time: the kiln counter, the stall counters, and what happens at a kiln tick boundary
(R92, R109, R128, R130, R137, R256, R280, R345, R379). -/

namespace Sys2Proof.Machine

/-- A partition's counters on a die at a tick boundary: cleared, but for the units admitted ahead of an access that still
waits (R130). -/
def Counters.clear (u : Counters) (waits : Bool) : Counters :=
  if waits then { paid := u.paid } else {}

/-- The throttle level that DFR alone gives (R137). -/
def throttleOfDfr (deflected transit : Nat) : Nat :=
  if transit = 0 then 0 else if transit ≤ 2 * deflected then 3 else if transit ≤ 4 * deflected then 2
  else if transit ≤ 8 * deflected then 1 else 0

/-- A key slot at a tick boundary: a pending installation becomes current (R379). -/
def KeySlot.install (k : KeySlot) : KeySlot :=
  match k.pending with
  | none => k
  | some (v, fresh) =>
    let n := genIx (!k.cur)
    { k with cur := !k.cur, val := vset k.val n v, full := vset k.full n true, fresh := vset k.fresh n fresh
             hctr := vset k.hctr n 0, epoch := k.epoch + 1, pending := none }

/-- What `ticks` tick boundaries do on a die. -/
def Die.tick (ticks : Nat) (d : Die) : Die :=
  { d with
    used := Vector.ofFn fun p => (vget d.used {} p.val).clear (d.heldBy.any fun h => h.1 == p.val)
    ilrows := d.ilrowsNext.getD d.ilrows
    ilrowsNext := none
    ntok := d.ntokNext.getD d.ntok
    ntokNext := none
    scown := d.scownNext.foldl (fun v p => vset v p.1 p.2) d.scown
    scownNext := []
    keys := d.keys.map fun p => (p.1, p.2.install)
    dfrLevel := if ticks = 1 then throttleOfDfr d.deflected d.transit else 0
    transit := 0
    links := d.links.map fun l => { l with fails := 0 }
    deflected := 0 }

/-- A core of a bench that changes owner: its state is zeroed and its TLB and L1 emptied (R345). -/
def Core.scrubbed (c : Core) : Core :=
  { c with
    g := Vector.replicate 32 0, cx := Vector.replicate 16 0, cm := Vector.replicate 16 0, cv := Vector.replicate 16 0
    v := Vector.replicate 28 0, acc := Vector.replicate 4 0, bar := Vector.replicate 48 {}
    frit := Vector.replicate 8 {}, tlb := [], xtlb := [], l1 := [], flips := [] }

/-- Whether a pending PBENCH write moves a bench. -/
def Part.moves (p : Part) (b : Nat) : Bool :=
  match p.pbenchNext with
  | some n => n.getLsbD b != p.pbench.getLsbD b
  | none => false

/-- The limits of R346 on a partition: the quotas of one home die do not pass 256, and no other valid partition shares a
node with it on which either owns a bench. -/
def State.sharesOk (s : State) (p : Nat) : Bool :=
  let home := s.homeDie p
  let total := (List.range 16).foldl (fun n q =>
    if q = p ∨ (home.isSome ∧ s.homeDie q = home) then n + bits (s.part q).pnset 56 48 else n) 0
  let owns (q d : Nat) : Bool := bits (s.part q).pbench (16 * d + 15) (16 * d) != 0
  let clash := (List.range 16).any fun q => q != p && [0, 1, 2, 3].any fun d =>
    s.inNodeSet p (s.nodeOf d) && s.inNodeSet q (s.nodeOf d) && (owns p d || owns q d)
  decide (total ≤ 256) && !clash

/-- The pending PBENCH writes of some partitions in force. -/
def State.withMoves (s : State) (ps : List Nat) : State :=
  ps.foldl (fun s p => s.mapPart p fun q => { q with pbench := q.pbenchNext.getD q.pbench, pbenchNext := none }) s

/-- Of some partitions with pending PBENCH writes, those whose writes keep the limits of R346 when they alone take effect,
found in at most `n` rounds. -/
def State.movers (s : State) : Nat → List Nat → List Nat
  | 0, _ => []
  | n + 1, ps =>
    let ok (p : Nat) : Bool := (s.withMoves ps).sharesOk p
    if ps.all ok then ps else s.movers n (ps.filter ok)

/-- The partitions whose pending PBENCH writes take effect at the boundary. A bench changes owner only while its cores are
FREE or OFFLINE: a write that moves a bench on which a job has started since waits for a later boundary, and so does one
that would break a limit while another waits (R345, R346; DESIGN CHOICE, assumption log 63). -/
def State.moving (s : State) : List Nat :=
  s.movers 17 ((List.range 16).filter fun p =>
    (s.part p).pbenchNext.isSome && (List.range 64).all fun b => !(s.part p).moves b || s.quiescent b)

/-- The benches whose owner changes at the boundary. -/
def State.movedBenches (s : State) : List Nat :=
  (List.range 64).filter fun b => s.moving.any fun p => (s.part p).moves b

/-- Every line of a core's L1 written back and invalidated (R345). -/
def State.flushL1 (s : State) (k : Nat) : State :=
  let work : R Unit := ((s.coreAt k).l1).forM fun e => do
    if e.2 == .m || e.2 == .o then writeBack k e.1
    modify fun s => s.setL1 k e.1 none
  (work.run.run s).2

/-- The bytes of a core's scratchpad written zero (R345). -/
def State.zeroScratch (s : State) (k : Nat) : State :=
  let s := if (s.coreAt k).seed.isNone then s else s.putCore k { s.coreAt k with seed := none, known := [] }
  { s with mem := s.mem.filter fun p => !(decide (Key.scratch k 0 ≤ p.1) && decide (p.1 < Key.scratch (k + 1) 0)) }

/-- The cores of a bench that run work for its owner: all but the reserved one (R12). -/
def benchWorkers (b : Nat) : List Nat := ((List.range 16).map (16 * b + ·)).filter fun k => k % 256 != 0

/-- A core of a bench that changes owner is cleared: its L1 is written back, its state and its scratchpad are zero (R345). -/
def State.clearCore (s : State) (k : Nat) : State :=
  if Tab.has s.cores k then ((s.flushL1 k).putCore k ((s.flushL1 k).coreAt k).scrubbed).zeroScratch k else s.zeroScratch k

/-- PBENCH writes take effect, the cores of the benches that move are cleared, and their bench TLBs are emptied (R345). -/
def State.moveBenches (s : State) : State :=
  let moved := s.movedBenches
  let t := (moved.flatMap benchWorkers).foldl State.clearCore s
  { t.withMoves s.moving with bench := t.bench.filter fun p => !moved.contains p.1 }

/-- The flits dropped in a tick, reported in one event (R416, R421). -/
def State.reportDrops (s : State) : State :=
  if s.drops = 0 then s else { s.event physFn 0x0051 0xFFFF s.drops with drops := 0 }

/-- Agents that wait for a budget no more leave the order in which its accesses are held (R130). -/
def State.letGo (s : State) : State :=
  { s with dies := s.dies.map fun d => { d with heldBy := d.heldBy.filter fun p => s.stillHeld p.2 } }

/-- Everything that `ticks` kiln tick boundaries do (R130). -/
def State.tickBoundary (s : State) (ticks : Nat) : State :=
  let s := s.reportDrops.moveBenches.letGo
  { s with dies := s.dies.map (Die.tick ticks) }

/-- The stall counter of a core after `n` cycles; when it wraps, the stall fault is due (R92). -/
def Core.countStall (c : Core) (n : Nat) : Core :=
  if c.stalled then
    { c with stall := BitVec.ofNat 20 (c.stall.toNat + n), wrapped := c.wrapped || decide (2 ^ 20 ≤ c.stall.toNat + n) }
  else { c with stall := 0, wrapped := false }

/-- The cores after `n` cycles: their stall counters, and what their FIFOs and queues show. -/
def State.countStalls (s : State) (n : Nat) : State :=
  { s with cores := s.cores.map fun p => (p.1, (p.2.countStall n).newCycle) }

/-- A piece that lies in a range of a function's host addresses. -/
def Piece.inHost (p : Piece) (fn base len : Nat) : Bool :=
  match p.place with
  | .host f => f == fn && decide (base < p.va.toNat + p.len) && decide (p.va.toNat < base + len)
  | _ => false

/-- Accesses of a core that have been translated and are not complete. -/
def Core.inFlight (c : Core) : List Piece :=
  (c.stores.flatMap (·.pieces)) ++ (c.xfers.flatMap fun x => (x.reads ++ x.writes).flatMap fun r => r.pieces ++ r.seals.flatten) ++
    (c.fills.toList.flatMap fun l => l.flatMap (·.pieces)) ++ match c.waiting with
      | .sc _ _ ps _ => ps
      | _ => []

/-- The completions of ATS invalidations, each once no access uses a translation that it removed (R362). -/
def State.settleInvals (s : State) : State :=
  let busy (x : Nat × Nat × Nat) : Bool := s.cores.any fun p => p.2.inFlight.any fun q => q.inHost x.1 x.2.1 x.2.2
  let ready := s.atsInvals.filter fun x => !busy x
  { s with atsInvals := s.atsInvals.filter busy, hostOut := s.hostOut ++ ready.map fun x => .invalidationDone x.1 }

/-- `n` cycles pass, with the SC accesses that come due and the kiln tick boundaries crossed. -/
def State.pass (s : State) (n : Nat) : State :=
  let k := s.kiln.toNat + n
  let s := { s.countStalls n with kiln := BitVec.ofNat 64 k }
  let s := s.scDue k
  let ticks := k / 4096 - (k - n) / 4096
  let s := if ticks = 0 then s else s.tickBoundary ticks
  if s.atsInvals.isEmpty then s else s.settleInvals

end Sys2Proof.Machine
end

