-- ==== Sys2Proof/Machine/HostPort.lean ====
section
/-! DEFINITION. What the host's port does on its own: ATS invalidations, and page request groups with their responses
(R362 to R364). -/

namespace Sys2Proof.Machine

/-! ### ATS invalidations (R362) -/

/-- Whether an invalidation names a page: its function, its PASID (from 2^20 on: none), and a range of addresses. -/
def invalNames (vf pasid : Nat) (base len : Dword) (fn : Nat) (p : Option (BitVec 20)) (page : Nat) : Bool :=
  fn == vf && (match p with | some p => p.toNat == pasid | none => decide (2 ^ 20 ≤ pasid)) &&
    decide (base.toNat < page * 4096 + 4096) && decide (page * 4096 < base.toNat + len.toNat)

/-- ATS_INVALIDATION (R362): the translations named leave every cache of the package; the completion is sent once every
access that used one is complete. -/
def execAtsInvalidation (vf pasid : Nat) (base len : Dword) (s : State) : Host.Outcome State Fault Refusal :=
  if physFn < vf then .fault .noSuchUnit
  else
    let kept (e : TlbEntry) : Bool :=
      !(e.host && invalNames vf pasid base len e.vf (if e.noPasid then none else some e.pasid) (e.va.toNat / 4096))
    let drop (c : Core) : Core := { c with tlb := c.tlb.filter kept, xtlb := c.xtlb.filter kept }
    let s := { s with
      bench := s.bench.map fun (p : Nat × List BenchEntry) =>
        (p.1, p.2.filter fun (b : BenchEntry) => match b with | .combined e => kept e | _ => true)
      cores := s.cores.map (fun (p : Nat × Core) => (p.1, drop p.2))
      atsInvals := s.atsInvals ++ [(vf, base.toNat, len.toNat)] }
    .next s.settleInvals

/-! ### Page request groups (R363) -/

/-- Requests of a function that await their response. -/
def State.requestsOut (s : State) (fn : Nat) : Nat :=
  (s.groups.filter fun g => g.fn == fn && g.index.isSome).foldl (fun n g => n + g.pages.length) 0

/-- A closed group sent: after those of its function that closed before it, under a free index, within the allowance. -/
def State.sendGroup (s : State) (g : Group) : State :=
  let mine := s.groups.filter fun x => x.fn == g.fn
  let first := (mine.find? fun x => x.closed && x.index.isNone).map (·.id)
  let free := (List.range 512).find? fun i => !mine.any fun x => x.index == some i
  match free with
  | none => s
  | some i =>
    if first ≠ some g.id ∨ (s.fn g.fn).allowance < s.requestsOut g.fn + g.pages.length then s
    else
      let g' := { g with index := some i }
      { s with groups := s.groups.map (fun x => if x.id = g.id then g' else x), hostOut := s.hostOut ++ [.pageRequest g'] }

/-- PAGE_REQUEST_GROUP_CLOSE (R363): a group closes 256 cycles after it opened, or at its sixteenth page; then it is sent
as soon as it may be. -/
def execPageRequestGroupClose (n : Nat) (s : State) : Host.Outcome State Fault Refusal :=
  match s.groups.find? fun g => g.id == n with
  | none => .next s
  | some g =>
    if g.index.isSome then .next s
    else
      let due := g.closed || decide (g.opened.toNat + 256 ≤ s.kiln.toNat)
      if !due then .next s
      else
        let s := s.closeDue
        let s := match s.groups.find? fun g => g.id == n with
          | some g => if g.pages.length ≤ max 1 (s.fn g.fn).allowance then s else s.closeGroup g
          | none => s
        match s.groups.find? fun g => g.id == n with
        | none => .next s
        | some g => .next (s.sendGroup g)

/-- The accesses that wait on a group go on with a cause: 0 asks ATS again. -/
def State.answerGroup (s : State) (id cause : Nat) : State :=
  { s with
    groups := s.groups.filter fun g => g.id != id
    cores := s.cores.map fun (p : Nat × Core) => (p.1, p.2.rewait fun w => if w.group = some id then { w with group := none, cause := cause } else w) }

/-- PAGE_REQUEST_RESPONSE (R364): code 0 is Success, 1 Invalid Request, any other Response Failure, which stops the PRI of
the function and with it the groups not yet sent. -/
def execPageRequestResponse (n code : Nat) (s : State) : Host.Outcome State Fault Refusal :=
  match s.groups.find? fun g => g.id == n && g.index.isSome with
  | none => .next s
  | some g =>
    if code = 0 then .next (s.answerGroup n 0)
    else if code = 1 then .next (s.answerGroup n 6)
    else
      let unsent := s.groups.filter fun x => x.fn == g.fn && x.index.isNone
      let s := unsent.foldl (fun s x => s.answerGroup x.id 7) (s.answerGroup n 7)
      let s := s.mapFn g.fn fun f => { f with priStopped := true }
      let (x, s) := s.draw 32
      .next (s.event g.fn 0x0010 0xFFFF x.toNat)

end Sys2Proof.Machine
end

