-- ==== Sys2Proof/Machine/Tensor.lean ====
section
/-! DEFINITION. Tensors, the mesh, sharding maps and TLOC (R311 to R320), and resharding: the word, Marver's plan and the
reshard engine (R321 to R329, R333, R441). -/

namespace Sys2Proof.Machine

/-! ### The mesh (R311, R312) -/

/-- Origin and extents of a partition's node set on x, y and z (R346). -/
def State.box (s : State) (part : Nat) : List Nat × List Nat :=
  let r := (s.part part).pnset
  ([bits r 27 24, bits r 31 28, bits r 35 32], [bits r 15 12 + 1, bits r 19 16 + 1, bits r 23 20 + 1])

/-- The extents of the torus. -/
def State.extents (s : State) : List Nat := [s.torus.1, s.torus.2.1, s.torus.2.2]

/-- A node's torus coordinates (R13). -/
def torusOf (node : Nat) : List Nat := [node % 16, node / 16 % 16, node / 256]

/-- The nodes of a partition, in ascending number. -/
def State.nodesOf (s : State) (part : Nat) : List Nat :=
  let (o, e) := s.box part
  let t := s.extents
  let at1 (a i : Nat) : Nat := (o.getD a 0 + i) % max (t.getD a 1) 1
  sortBy (fun a b => decide (a ≤ b))
    ((List.range (e.getD 2 1)).flatMap fun k => (List.range (e.getD 1 1)).flatMap fun j =>
      (List.range (e.getD 0 1)).map fun i => at1 2 k * 256 + at1 1 j * 16 + at1 0 i)

/-- Axis a of a MESH image: VALID, PLACE and size. -/
def axisOf (mesh : Dword) (a : Nat) : Bool × Nat × Nat :=
  (mesh.getLsbD (16 * a + 15), bits mesh (16 * a + 14) (16 * a + 12), bits mesh (16 * a + 11) (16 * a) + 1)

/-- NAX: the valid axes from 0 on. -/
def naxOf (mesh : Dword) : Nat :=
  if !(axisOf mesh 0).1 then 0 else if !(axisOf mesh 1).1 then 1 else if !(axisOf mesh 2).1 then 2
  else if !(axisOf mesh 3).1 then 3 else 4

/-- The sizes of the four axes; an axis that is not valid has size 1. -/
def sizesOf (mesh : Dword) : List Nat :=
  (List.range 4).map fun a => if a < naxOf mesh then (axisOf mesh a).2.2 else 1

/-- Torus axis t is in PLACE. -/
def inPlace (place t : Nat) : Bool := place / 2 ^ t % 2 == 1

/-- Whether a MESH image is valid for a partition (R311). -/
def State.meshOk (s : State) (part : Nat) (mesh : Dword) : Bool :=
  let e := (s.box part).2
  let n := naxOf mesh
  let place (a : Nat) : Nat := (axisOf mesh a).2.1
  let axes := List.range n
  decide (1 ≤ n) && bits mesh 63 0 / 2 ^ (16 * n) == 0 &&
    axes.all (fun a => place a != 0 &&
      (axisOf mesh a).2.2 == ((List.range 3).filter fun t => inPlace (place a) t).foldl (fun p t => p * e.getD t 1) 1) &&
    (List.range 3).all fun t =>
      let k := (axes.filter fun a => inPlace (place a) t).length
      if e.getD t 1 = 1 then decide (k ≤ 1) else k == 1

/-- u(a) of a node on the four axes (R312). -/
def State.coordsOf (s : State) (part : Nat) (mesh : Dword) (node : Nat) : List Nat :=
  let (o, e) := s.box part
  let t := s.extents
  (List.range 4).map fun a =>
    if naxOf mesh ≤ a then 0
    else ((List.range 3).foldl (fun (acc : Nat × Nat) x =>
      if inPlace (axisOf mesh a).2.1 x then
        let n := max (t.getD x 1) 1
        let rel := ((torusOf node).getD x 0 + n - o.getD x 0 % n) % n
        (acc.1 + rel * acc.2, acc.2 * e.getD x 1)
      else acc) (0, 1)).1

/-- The node of mesh coordinates. -/
def State.nodeAt (s : State) (part : Nat) (mesh : Dword) (u : List Nat) : Nat :=
  ((s.nodesOf part).find? fun n => s.coordsOf part mesh n == u).getD 0

/-! ### Sharding maps (R314 to R317) -/

/-- A map register's fields. -/
structure ShardMap where
  role : List Nat
  balanced : List Bool
  hlo : List Nat
  hhi : List Nat
  pad : List Nat
  deriving DecidableEq, Repr

/-- The fields of R314. -/
def ShardMap.of (m : BitVec 128) : ShardMap :=
  let f (hi lo : Nat) : Nat := (m.extractLsb' lo (hi + 1 - lo)).toNat
  { role := (List.range 4).map fun a => f (4 * a + 3) (4 * a)
    balanced := (List.range 6).map fun d => m.getLsbD (76 + d)
    hlo := (List.range 6).map fun d => f (25 + 10 * d) (22 + 10 * d)
    hhi := (List.range 6).map fun d => f (21 + 10 * d) (18 + 10 * d)
    pad := (List.range 6).map fun d => f (17 + 10 * d) (16 + 10 * d) }

/-- The roles. -/
def roleReplicate : Nat := 0
def rolePartial : Nat := 7

def ShardMap.roleOf (m : ShardMap) (a : Nat) : Nat := m.role.getD a 0

/-- X(d): the axes that split a dimension, in ascending number (R316). -/
def ShardMap.splits (m : ShardMap) (d : Nat) : List Nat := (List.range 4).filter fun a => m.roleOf a == d + 1

/-- The number of shards along a dimension. -/
def ShardMap.shards (m : ShardMap) (sizes : List Nat) (d : Nat) : Nat :=
  (m.splits d).foldl (fun n a => n * sizes.getD a 1) 1

/-- k(d) of a node: the lowest axis most significant. -/
def ShardMap.shard (m : ShardMap) (sizes : List Nat) (d : Nat) (u : List Nat) : Nat :=
  (m.splits d).foldl (fun k a => k * sizes.getD a 1 + u.getD a 0) 0

/-- Start and Len of shard k of an extent cut in n (R316). -/
def blockOf (balanced : Bool) (e n k : Nat) : Nat × Nat :=
  if balanced then (k * (e / n) + min k (e % n), e / n + (if k < e % n then 1 else 0))
  else
    let b := (e + n - 1) / n
    (min (k * b) e, min ((k + 1) * b) e - min (k * b) e)

/-- Start and Len of a node's block along a dimension. -/
def ShardMap.span (m : ShardMap) (sizes : List Nat) (d : Nat) (u : List Nat) (e : Nat) : Nat × Nat :=
  blockOf (m.balanced.getD d false) e (m.shards sizes d) (m.shard sizes d u)

/-- The owning shard of an index along a dimension. -/
def ShardMap.ownerShard (m : ShardMap) (sizes : List Nat) (d e i : Nat) : Nat :=
  ((List.range (m.shards sizes d)).find? fun k =>
    let b := blockOf (m.balanced.getD d false) e (m.shards sizes d) k
    decide (b.1 ≤ i) && decide (i < b.1 + b.2)).getD 0

/-- The coordinates of the owner of an index along a dimension, the other axes as given. -/
def ShardMap.ownerAlong (m : ShardMap) (sizes : List Nat) (d e i : Nat) (u : List Nat) : List Nat :=
  ((m.splits d).reverse.foldl (fun (acc : Nat × List Nat) a =>
    (acc.1 / max (sizes.getD a 1) 1, acc.2.set a (acc.1 % max (sizes.getD a 1) 1))) (m.ownerShard sizes d e i, u)).2

/-- The coordinates of the owner of a global index, the axes that split nothing as given. -/
def ShardMap.owner (m : ShardMap) (sizes ext : List Nat) (i : List Nat) (u : List Nat) : List Nat :=
  (List.range ext.length).foldl (fun u d =>
    if (m.splits d).isEmpty then u else m.ownerAlong sizes d (ext.getD d 1) (i.getD d 0) u) u

/-- Whether a map is valid for a rank under a mesh (R315). -/
def ShardMap.validFor (m : ShardMap) (rank nax : Nat) : Bool :=
  (List.range 4).all fun a => (m.roleOf a == roleReplicate || m.roleOf a == rolePartial || decide (m.roleOf a ≤ rank)) &&
    (decide (a < nax) || m.roleOf a == roleReplicate)

/-- A node holds a shard: no block along a split dimension is empty (R317). -/
def ShardMap.holdsShard (m : ShardMap) (sizes ext u : List Nat) : Bool :=
  (List.range ext.length).all fun d => (m.splits d).isEmpty || (m.span sizes d u (ext.getD d 1)).2 != 0

/-! ### Tensor records (R318, R319) -/

/-- A tensor record's fields. -/
structure Tensor where
  id : Nat
  fmt : BitVec 5
  ext : List Nat
  stride : List Nat
  base : Dword
  deriving DecidableEq, Repr

/-- The fields of R318. -/
def Tensor.of (t : BitVec 512) : Tensor :=
  let f (hi lo : Nat) : Nat := (t.extractLsb' lo (hi + 1 - lo)).toNat
  let rank := f 23 21
  { id := f 15 0, fmt := BitVec.ofNat 5 (f 20 16)
    ext := (List.range rank).map fun d => f (111 + 32 * d) (80 + 32 * d)
    stride := (List.range rank).map fun d => f (311 + 40 * d) (272 + 40 * d)
    base := place 0xFE 56 ||| place (f 79 30) 6 }

def Tensor.rank (t : Tensor) : Nat := t.ext.length

/-- Bits of an element. -/
def Tensor.width (t : Tensor) : Nat := ((Fmt.ofCode t.fmt).map Fmt.width).getD 8

/-- The bit offset of a local element from BASE (R319). -/
def Tensor.offset (t : Tensor) (j : List Nat) : Nat := t.width * ((j.zip t.stride).foldl (fun n p => n + p.1 * p.2) 0)

/-- A tensor of a partition's table. -/
def State.tensor (s : State) (part id : Nat) : Option Tensor :=
  ((s.part part).tensors.find? fun p => p.1 == id).map fun p => Tensor.of p.2

/-- The local index of a global one on a node (R317). -/
def ShardMap.local (m : ShardMap) (sizes ext u i : List Nat) : List Nat :=
  (List.range ext.length).map fun d => i.getD d 0 + m.hlo.getD d 0 - (m.span sizes d u (ext.getD d 1)).1

/-! ### The words TSMAP, TMESH and TLOC (R313, R315, R320) -/

/-- TSMAP mpN, ga, gb. -/
def execTsmap (ga gb : BitVec 5) (mp : BitVec 4) (s : State) : Host.Outcome State Fault Refusal :=
  runOther (.tsmap ga gb mp) 0 (do
    let c ← M.core
    let lo := c.readG ga
    let hi := c.readG gb
    M.check (bits hi 63 18 == 0 && (List.range 4).all fun a => bits lo (4 * a + 3) (4 * a) < 8) (Trap.operand 0x55)
    M.mapCore fun c => { c with mp := vset c.mp mp.toNat (hi ++ lo) }
    return .next) s

/-- TMESH ga. -/
def execTmesh (ga : BitVec 5) (s : State) : Host.Outcome State Fault Refusal :=
  runOther (.tmesh ga) 0 (do
    let c ← M.core
    M.check ((← get).meshOk c.part.toNat (c.readG ga)) (Trap.operand 0x56)
    M.mapCore fun c => { c with mesh := c.readG ga }
    return .next) s

/-- Holds(u, i) of R320. -/
def ShardMap.holds (m : ShardMap) (sizes ext u i : List Nat) : Bool :=
  (List.range ext.length).all fun d =>
    let b := m.span sizes d u (ext.getD d 1)
    (m.splits d).isEmpty || (b.2 != 0 && decide (b.1 ≤ i.getD d 0 + m.hlo.getD d 0) &&
      decide (i.getD d 0 < b.1 + b.2 + m.hhi.getD d 0))

/-- TLOC.R and TLOC.D (R320). -/
def tlocBody (copy : Bool) (ga gb : BitVec 5) (mp : BitVec 4) : M Ctl := do
  let s ← get
  let c := s.core
  let part := c.part.toNat
  match s.tensor part (bits (c.readG gb) 15 0) with
  | none => M.trap (Trap.operand 0x50)
  | some t =>
    M.check (bits (c.readG gb) 63 16 == 0) (Trap.operand 0x50)
    M.check (decide (gb.toNat + t.rank ≤ 31)) (Trap.operand 0x51)
    let i := (List.range t.rank).map fun d => (c.readG (gb + 1 + BitVec.ofNat 5 d)).toNat
    M.check ((i.zip t.ext).all fun p => decide (p.1 < p.2)) (Trap.operand 0x52)
    let m := ShardMap.of (vget c.mp 0 mp.toNat)
    let sizes := sizesOf c.mesh
    M.check (m.validFor t.rank (naxOf c.mesh)) (Trap.operand 0x53)
    M.check (!copy || !m.role.contains rolePartial) (Trap.operand 0x54)
    let me := s.coordsOf part c.mesh (s.nodeOf (dieOf s.me))
    let u := if copy && m.holds sizes t.ext me i then me else m.owner sizes t.ext i me
    let addr := t.base + BitVec.ofNat 64 (t.offset (m.local sizes t.ext u i) / 8)
    let node := s.nodeAt part c.mesh u
    M.mapCore fun c => (c.writeG ga addr).writeG (ga + 1) (BitVec.ofNat 64 node)
    return .next

/-- The entries of the log that TLOC takes (R397). -/
def tlocWrites (ga : BitVec 5) (c : Core) : Nat := gWrite ga + gWrite (ga + 1) + c.loopBack

/-- TLOC.R ga, gb, mpN. -/
def execTlocR (ga gb : BitVec 5) (mp : BitVec 4) (s : State) : Host.Outcome State Fault Refusal :=
  runReg (.tlocR ga gb mp) (tlocWrites ga) (tlocBody true ga gb mp) s

/-- TLOC.D ga, gb, mpN. -/
def execTlocD (ga gb : BitVec 5) (mp : BitVec 4) (s : State) : Host.Outcome State Fault Refusal :=
  runReg (.tlocD ga gb mp) (tlocWrites ga) (tlocBody false ga gb mp) s

/-! ### RESHARD and RSTAT (R323, R329) -/

/-- The formats in which partial sums may stand (R322). -/
def sumFormat (f : BitVec 5) : Bool :=
  match Fmt.ofCode f with
  | some .fp32 => true | some .bf16 => true | some .i32 => true | some .i64 => true | _ => false

/-- Some destination shard needs a pad element in a dimension with PAD = fault (R323). -/
def ShardMap.padFault (m : ShardMap) (sizes ext : List Nat) : Bool :=
  (List.range ext.length).any fun d => m.pad.getD d 0 == 3 &&
    (List.range (m.shards sizes d)).any fun k =>
      let e := ext.getD d 1
      let b := blockOf (m.balanced.getD d false) e (m.shards sizes d) k
      b.2 != 0 && (decide (b.1 < m.hlo.getD d 0) || decide (e < b.1 + b.2 + m.hhi.getD d 0))

/-- The checks of R323 on the tensors and maps: the detail of the first that fails. -/
def reshardFault (g : Images) (srcId dstId : Nat) : Option Nat :=
  match g.src.map Tensor.of, g.dst.map Tensor.of with
  | some a, some b =>
    let ms := ShardMap.of g.mapS
    let md := ShardMap.of g.mapD
    let sizes := sizesOf g.mesh
    if srcId = dstId then some 0x58
    else if a.ext ≠ b.ext ∨ a.fmt ≠ b.fmt then some 0x59
    else if !(ms.validFor a.rank (naxOf g.mesh) && md.validFor b.rank (naxOf g.mesh)) then some 0x5A
    else if (ms.role.contains rolePartial ∨ md.role.contains rolePartial) ∧ !sumFormat b.fmt then some 0x5B
    else if md.padFault sizes b.ext then some 0x5C
    else none
  | _, _ => some 0x58

/-- The reshards in flight on a die: those its engine has taken, and those pushed by its cores and not taken. -/
def State.reshardsInFlight (s : State) (die : Nat) : List (Nat × Nat) :=
  ((s.die die).reshards.filter fun r => !r.closed).map (fun r => (r.part, r.dst)) ++
    s.cores.flatMap fun p =>
      if dieOf p.1 = die then
        ((p.2.port 1).fifo.filter fun k => k.op == 0x20).map fun k => (k.part, bits (k.words.headD 0) 47 32)
      else []

/-- RESHARD ga, gb, mpS, mpD. -/
def reshardBody (ga gb : BitVec 5) (mps mpd : BitVec 4) : M Ctl := do
  let s ← get
  let c := s.core
  let a := c.readG ga
  let b := c.readG gb
  let die := dieOf s.me
  let p := c.port 1
  let dst := bits a 15 0
  let piece := bits a 16 16
  let res := bits a 17 17
  M.check (bits a 63 18 == 0 && bits b 63 16 == 0) (Trap.operand 0x5F)
  let header := place 0x20 56 ||| place 1 48 ||| place dst 32 ||| place res 31 ||| place piece 8 ||| place mps.toNat 4 |||
    place mpd.toNat 0
  let g := s.images header b
  match reshardFault g (bits b 15 0) dst with
  | some n => M.trap (Trap.operand n)
  | none => pure ()
  let out := s.reshardsInFlight die
  M.check (!out.contains (c.part.toNat, dst)) (Trap.operand 0x5E)
  if p.part.isSome then do
    M.mapCore fun c => (c.setPort 1 { p with part := none }).settleLog
    M.trap (Trap.operand 0x41)
  M.until (decide (out.length < 8) && decide (p.words + 2 ≤ 32) && (res == 0 || p.rout + p.results.length != 32))
    (.device 19)
  let cmd : Command := {
    words := [header, b], logAt := c.logged, tagPc := c.spc, tagSeq := vget c.seq 0 0, g := c.g, loops := c.loop .s, whole := true
    job := c.job, ctx := c.ctx, order := c.pushes, rsv := none, images := some g }
  M.mapCore fun c => { c.setPort 1 { p with fifo := p.fifo ++ [cmd] } with pushes := c.pushes + 1 }
  return .next

/-- RESHARD: a push, which may follow a command its engine has not taken (R397). -/
def execReshard (ga gb : BitVec 5) (mps mpd : BitVec 4) (s : State) : Host.Outcome State Fault Refusal :=
  untrapped (.reshard ga gb mps mpd) s (runReg (.reshard ga gb mps mpd) Core.loopBack (reshardBody ga gb mps mpd))

/-- The step that runs at a die: the first with something left to send or to land; NSTEP once done (R329). -/
def Reshard.step (r : Reshard) : Nat :=
  if r.arrived then r.nstep else (r.parts.map (·.step) ++ r.pieces.map (·.step)).foldl min r.nstep

/-- The progress of a reshard (R329). -/
def Reshard.progress (r : Reshard) : Dword :=
  place (if r.arrived then 1 else 0) 63 ||| place (if r.closed then 0 else 1) 62 ||| place (r.nstep % 16) 58 |||
    place (r.step % 8) 55 ||| place r.status.toNat 40 ||| place (r.landed % 2 ^ 40) 0

/-- RSTAT ga, gb. -/
def execRstat (ga gb : BitVec 5) (s : State) : Host.Outcome State Fault Refusal :=
  runOther (.rstat ga gb) 0 (do
    let s ← get
    let c := s.core
    let mine (r : Reshard) : Bool := r.part == c.part.toNat && r.dst == bits (c.readG gb) 15 0
    let x := match (s.die (dieOf s.me)).reshards.reverse.find? mine with
      | some r => r.progress
      | none => 0
    M.mapCore fun c => c.writeG ga x
    return .next) s

/-! ### Marver's plan (R326 to R328, R333, R441) -/

/-- A reshard as every die derives it: the maps and records, the axes' sizes, and the nodes with their coordinates. -/
structure Job where
  ms : ShardMap
  md : ShardMap
  src : Tensor
  dst : Tensor
  sizes : List Nat
  nodes : List (Nat × List Nat)
  deriving DecidableEq, Repr

/-- The job of a reshard. -/
def State.jobOf (s : State) (part : Nat) (g : Images) : Job where
  ms := ShardMap.of g.mapS
  md := ShardMap.of g.mapD
  src := Tensor.of (g.src.getD 0)
  dst := Tensor.of (g.dst.getD 0)
  sizes := sizesOf g.mesh
  nodes := (s.nodesOf part).map fun n => (n, s.coordsOf part g.mesh n)

def Job.ext (j : Job) : List Nat := j.dst.ext
def Job.dims (j : Job) : List Nat := List.range j.ext.length
def Job.size (j : Job) (a : Nat) : Nat := j.sizes.getD a 1

/-- The nodes that differ from given coordinates on one axis alone, by that axis. -/
def Job.group (j : Job) (u : List Nat) (a : Nat) : List (Nat × List Nat) :=
  (List.range (j.size a)).filterMap fun x => j.nodes.find? fun n => n.2 == u.set a x

/-- The steps of a plan, in the order of R326. -/
inductive StepKind where
  | rs | a2a | perm | ag | slice
  deriving DecidableEq, Repr

def StepKind.rank : StepKind → Nat
  | .rs => 0 | .a2a => 1 | .perm => 2 | .ag => 3 | .slice => 4

/-- A step and its axis; PERM and SLICE have none. -/
abbrev PlanStep := StepKind × Nat

def PlanStep.before (x y : PlanStep) : Bool :=
  decide (x.1.rank < y.1.rank) || (x.1.rank == y.1.rank && decide (x.2 ≤ y.2))

/-- The global index after the pad rule along one dimension; none for a zero pad, and where no pad is allowed (R317). -/
def padIndex (pad e : Nat) (g : Int) : Option Nat :=
  if 0 ≤ g ∧ g < (e : Int) then some g.toNat
  else if pad = 0 ∨ pad = 3 then none
  else if pad = 1 then some (min (max g 0) ((e : Int) - 1)).toNat
  else some (g % (e : Int)).toNat

/-- An element that a destination shard needs: its bit offset, its global index (none for a zero), and whether it is a
pad element. -/
structure Need where
  off : Nat
  index : Option (List Nat)
  pad : Bool
  deriving DecidableEq, Repr

/-- The partial-sum destination axes keep a value at one coordinate only (R322). -/
def Job.zeroed (j : Job) (u i : List Nat) : Bool :=
  (List.range 4).any fun a =>
    j.md.roleOf a == rolePartial && j.ms.roleOf a != rolePartial &&
      (if j.ms.roleOf a = roleReplicate then u.getD a 0 != 0
       else
         let d := j.ms.roleOf a - 1
         (j.ms.ownerAlong j.sizes d (j.ext.getD d 1) (i.getD d 0) u).getD a 0 != u.getD a 0)

/-- Every local index of a shard, the last dimension fastest. -/
def tuples : List Nat → List (List Nat)
  | [] => [[]]
  | n :: rest => (List.range n).flatMap fun i => (tuples rest).map fun t => i :: t

/-- What a node's destination shard needs (R317, R322). -/
def Job.needs (j : Job) (u : List Nat) : List Need :=
  if !j.md.holdsShard j.sizes j.ext u then []
  else
    let span (d : Nat) : Nat × Nat := j.md.span j.sizes d u (j.ext.getD d 1)
    (tuples (j.dims.map fun d => (span d).2 + j.md.hlo.getD d 0 + j.md.hhi.getD d 0)).map fun t =>
      let g (d : Nat) : Int := ((span d).1 : Int) - (j.md.hlo.getD d 0 : Int) + (t.getD d 0 : Int)
      let outside := j.dims.any fun d => decide (g d < 0) || decide ((j.ext.getD d 1 : Int) ≤ g d)
      let index := j.dims.mapM fun d => padIndex (j.md.pad.getD d 0) (j.ext.getD d 1) (g d)
      { off := j.dst.offset t
        index := match index with | some i => if j.zeroed u i then none else some i | none => none
        pad := outside }

/-- The indices of a dimension that a node has before or after a step, for each dimension. -/
abbrev Held := List (List Nat)

def Held.count (h : Held) : Nat := h.foldl (fun n l => n * l.length) 1
def Held.has (h : Held) (i : List Nat) : Bool := (i.zip h).all fun p => p.2.contains p.1

/-- Where a plan stands while it is built: what each node holds, the axes over which RS has scattered equal blocks, what
was held before each step, the cost so far, and what was held before the first AG. -/
structure Build where
  held : List Held
  scat : List Nat := []
  past : List (PlanStep × List Held × List Nat) := []
  cost : Nat := 0
  mid : Option (List Held) := none
  deriving DecidableEq, Repr

/-- Elements that a node holds while RS has scattered blocks. -/
def Job.count (j : Job) (h : Held) (u : List Nat) (scat : List Nat) : Nat :=
  scat.foldl (fun n a => (blockOf false n (j.size a) (u.getD a 0)).2) h.count

/-- The indices of a dimension whose destination owner stands at a coordinate of an axis. -/
def Job.owned (j : Job) (d a x : Nat) : List Nat :=
  (List.range (j.ext.getD d 1)).filter fun i =>
    (j.md.ownerAlong j.sizes d (j.ext.getD d 1) i [0, 0, 0, 0]).getD a 0 == x

/-- What the nodes of a group hold together along a dimension. -/
def Job.together (j : Job) (held : List Held) (u : List Nat) (a d : Nat) : List Nat :=
  (List.range (j.ext.getD d 1)).filter fun i =>
    (j.nodes.zip held).any fun p => p.1.2.set a 0 == u.set a 0 && (p.2.getD d []).contains i

/-- One step of a plan: what it leaves at each node, and the most that one node sends (R326, R327). -/
def Job.advance (j : Job) (b : Build) (st : PlanStep) : Build :=
  let a := st.2
  let nd := j.md.roleOf a - 1
  let sd := j.ms.roleOf a - 1
  let at1 (n : (Nat × List Nat) × Held) : List Nat := n.1.2
  let all := j.nodes.zip b.held
  let b := { b with past := b.past ++ [(st, b.held, b.scat)]
                    mid := if st.1 = .ag ∧ b.mid.isNone then some b.held else b.mid }
  let most (l : List Nat) : Nat := l.foldl max 0
  let moved (n : (Nat × List Nat) × Held) (kept : Held) : Nat := j.count n.2 (at1 n) b.scat - j.count kept (at1 n) b.scat
  match st.1 with
  | .rs =>
    if j.md.roleOf a = roleReplicate then
      let sent := all.map fun n => j.count n.2 (at1 n) b.scat - j.count n.2 (at1 n) (b.scat ++ [a])
      { b with scat := b.scat ++ [a], cost := b.cost + most sent }
    else
      let keep (n : (Nat × List Nat) × Held) : Held :=
        n.2.set nd ((n.2.getD nd []).filter fun i => (j.owned nd a ((at1 n).getD a 0)).contains i)
      { b with held := all.map keep, cost := b.cost + most (all.map fun n => moved n (keep n)) }
  | .a2a =>
    let keep (n : (Nat × List Nat) × Held) : Held :=
      n.2.set nd ((n.2.getD nd []).filter fun i => (j.owned nd a ((at1 n).getD a 0)).contains i)
    let new (n : (Nat × List Nat) × Held) : Held := (keep n).set sd (j.together b.held (at1 n) a sd)
    { b with held := all.map new, cost := b.cost + most (all.map fun n => moved n (keep n)) }
  | .ag =>
    let sent := all.map fun n => j.count n.2 (at1 n) b.scat * (j.size a - 1)
    let b := { b with cost := b.cost + most sent }
    if b.scat.contains a then { b with scat := b.scat.erase a }
    else { b with held := all.map fun n => n.2.set sd (j.together b.held (at1 n) a sd) }
  | .perm => b
  | .slice => b

/-- A plan: its steps in order, whether a change of role needs SLICE, PERM's elements with their suppliers, what was held
before each step, and its cost in elements. -/
structure Plan where
  steps : List PlanStep
  slices : Bool
  perm : List (Nat × List Nat × Nat)
  past : List (PlanStep × List Held × List Nat)
  cost : Nat
  deriving DecidableEq, Repr

/-- The axes on which R326 offers two candidates. -/
def Job.choices (j : Job) : List Nat :=
  (List.range 4).filter fun a => j.ms.roleOf a != j.md.roleOf a && decide (1 ≤ j.ms.roleOf a) && decide (j.ms.roleOf a ≤ 6) &&
    decide (1 ≤ j.md.roleOf a) && decide (j.md.roleOf a ≤ 6)

/-- The steps of one axis, and whether it needs SLICE (R326); `gather` picks AG then SLICE where there is a choice. -/
def Job.axisSteps (j : Job) (a : Nat) (gather : Bool) : List PlanStep × Bool :=
  let s := j.ms.roleOf a
  let t := j.md.roleOf a
  if s = t then ([], false)
  else if s = roleReplicate ∨ t = rolePartial then ([], true)
  else if s = rolePartial then (if t = roleReplicate then ([(.rs, a), (.ag, a)], false) else ([(.rs, a)], false))
  else if t = roleReplicate then ([(.ag, a)], false)
  else if gather then ([(.ag, a)], true)
  else ([(.a2a, a)], false)

/-- The axes on which a destination node reads at its own coordinate (R322). -/
def Job.own (j : Job) : List Nat :=
  (List.range 4).filter fun a => j.ms.roleOf a == roleReplicate ||
    (j.ms.roleOf a == rolePartial && j.md.roleOf a == rolePartial)

/-- The node that supplies an element to PERM: the destination's owner, or the first node that holds it, the axes of
`own` as at the receiver. -/
def Job.permFrom (j : Job) (mid : List Held) (u i : List Nat) : Nat :=
  let o := j.md.owner j.sizes j.ext i u
  let want := (List.range 4).map fun a => if j.own.contains a then u.getD a 0 else o.getD a 0
  let all := j.nodes.zip mid
  let ok (n : (Nat × List Nat) × Held) : Bool := (j.own.all fun a => n.1.2.getD a 0 == u.getD a 0) && n.2.has i
  match (all.filter fun n => n.1.2 == want).find? ok with
  | some n => n.1.1
  | none => ((all.find? ok).map fun n => n.1.1).getD 0

/-- The global indices that a node's source shard holds along each dimension, halos and pads with them (R317). -/
def Job.shard (j : Job) (u : List Nat) : Held := j.dims.map fun d =>
  let e := j.ext.getD d 1
  let b := j.ms.span j.sizes d u e
  let lo := j.ms.hlo.getD d 0
  if !j.ms.holdsShard j.sizes j.ext u then []
  else ((List.range (lo + b.2 + j.ms.hhi.getD d 0)).filterMap fun (k : Nat) =>
    padIndex (j.ms.pad.getD d 0) e ((b.1 : Int) - (lo : Int) + (k : Int))).eraseDups

/-- The most steps of a plan (R326). -/
def maxSteps : Nat := 6

/-- The steps of a plan as they run. The table of R326 can give more than six; the first of them then run as one
(DESIGN CHOICE, assumption log 61). -/
def Plan.nstep (p : Plan) : Nat := min maxSteps p.steps.length
def Plan.runsAs (p : Plan) (n : Nat) : Nat := n - (p.steps.length - maxSteps)

/-- PERM lands an element at a node: it moves it, and the cell is no pad that SLICE can write from the node's own cell of the
same element (R326). -/
def permLands (perm : List (Nat × List Nat × Nat)) (node : Nat) (needs : List Need) (x : Need) : Bool :=
  (perm.any fun q => q.1 == node && some q.2.1 == x.index) && !(x.pad && needs.any fun y => !y.pad && y.index == x.index)

/-- The plan of one set of choices. Steps move the owned elements of the blocks; where there are none, a node still holds
all of its source shard (R326, R327). -/
def Job.plan (j : Job) (gathers : List Nat) : Plan :=
  let per := (List.range 4).map fun a => j.axisSteps a (gathers.contains a)
  let main := sortBy PlanStep.before (per.flatMap (·.1))
  let slices := per.any (·.2)
  let owned (n : Nat × List Nat) : Held := j.dims.map fun d =>
    let b := j.ms.span j.sizes d n.2 (j.ext.getD d 1)
    (List.range b.2).map fun i => b.1 + i
  let start : Build := { held := j.nodes.map owned }
  let moved := main.foldl j.advance start
  let mid := moved.mid.getD moved.held
  let b := if main.isEmpty then { moved with held := j.nodes.map fun n => j.shard n.2 } else moved
  let perm := (j.nodes.zip b.held).flatMap fun n =>
    (((j.needs n.1.2).filterMap (·.index)).eraseDups.filter fun i => !n.2.has i).map fun i =>
      (n.1.1, i, j.permFrom mid n.1.2 i)
  let permCost := (j.nodes.map fun n => (perm.filter fun p => p.2.2 == n.1).length).foldl max 0
  let lone := j.nodes.any fun n => (j.needs n.2).any fun x => match x.index with
    | none => true
    | some _ => x.pad && !permLands perm n.1 (j.needs n.2) x
  let steps := main ++ (if perm.isEmpty then [] else [(.perm, 9)])
  let steps := steps ++ (if slices || lone || steps.isEmpty then [(.slice, 9)] else [])
  { steps := sortBy PlanStep.before steps, slices := slices, perm := perm, past := b.past, cost := b.cost + permCost }

/-- Every sublist of a list. -/
def sublists {α : Type} : List α → List (List α)
  | [] => [[]]
  | x :: rest => let l := sublists rest; l ++ l.map (x :: ·)

/-- Steps compared one by one: the list whose first differing step comes earlier. -/
def stepsBefore : List PlanStep → List PlanStep → Bool
  | [], _ => true
  | _ :: _, [] => false
  | x :: xs, y :: ys => if x = y then stepsBefore xs ys else PlanStep.before x y

/-- The plan of least cost; of equal cost, the one whose first differing step comes earlier (R327). -/
def Job.best (j : Job) : Plan :=
  ((sublists j.choices).map j.plan).foldl (fun o p => match o with
    | none => some p
    | some q => if p.cost < q.cost ∨ (p.cost = q.cost ∧ stepsBefore p.steps q.steps) then some p else some q) none
  |>.getD (j.plan [])

/-- The last place of a kind of step in a plan. -/
def Plan.lastOf (p : Plan) (k : StepKind) : Option Nat :=
  ((p.steps.zipIdx).filter fun x => x.1.1 == k).getLast?.map (·.2)

/-- How an element lands at a node: the step, the nodes that supply it there, and the axis over which an RS step combines. An
element that several main steps move lands in the last of them alone, a node's own block too: the steps before it form no
piece of it and send no flit of it (DESIGN CHOICE, assumption log 35). -/
structure Landing where
  step : Nat
  suppliers : List Nat
  axis : Option Nat := none
  deriving DecidableEq, Repr

/-- The step in which an element lands at a node, and the nodes that supply it there (R328, R333, R441). An element that
several main steps move, as RS then AG do, lands in the last of them alone, the node's own block too: the earlier ones form
no piece of it and send no flit of it (DESIGN CHOICE, assumption log 35). -/
def Job.landing (j : Job) (p : Plan) (node : Nat) (u : List Nat) (x : Need) : Landing :=
  let slice : Landing := { step := (p.lastOf .slice).getD 0, suppliers := [node] }
  match x.index with
  | none => slice
  | some i =>
    match p.perm.find? fun q => q.1 == node && q.2.1 == i with
    | some q =>
      if permLands p.perm node (j.needs u) x then { step := (p.lastOf .perm).getD 0, suppliers := [q.2.2] } else slice
    | none =>
      if x.pad || p.slices then slice
      else match ((p.steps.zipIdx).filter fun y => y.1.1 == .rs || y.1.1 == .a2a || y.1.1 == .ag).getLast? with
        | none => { slice with step := (p.lastOf .perm).getD slice.step }
        | some (st, n) =>
          let grp := (j.group u st.2).map (·.1)
          let past : List Held × List Nat := ((p.past.find? fun q => q.1 == st).map (·.2)).getD ([], [])
          let held := past.1
          let scat := past.2
          let mine : Held := (((j.nodes.zip held).find? fun q => q.1.1 == node).map (·.2)).getD []
          if st.1 = .rs then { step := n, suppliers := grp, axis := some st.2 }
          else if scat.contains st.2 then
            let ix := (i.zip mine).foldl (fun (k : Nat) (q : Nat × List Nat) => k * q.2.length + List.idxOf q.1 q.2) 0
            let b := (mine.count + j.size st.2 - 1) / j.size st.2
            { step := n, suppliers := [grp.getD (ix / max b 1) node] }
          else
            { step := n, suppliers := grp.filter fun m => ((j.nodes.zip held).any fun q => q.1.1 == m && q.2.has i) }

/-- The pieces of a node, in the order of their numbers (R328, R333, R441). -/
def Job.pieces (j : Job) (p : Plan) (node : Nat) (u : List Nat) : List ReshardPiece :=
  let els := (j.needs u).map fun x =>
    let l := j.landing p node u x
    ((p.runsAs l.step, (j.dst.base + BitVec.ofNat 64 (x.off / 8)).toNat / 2048),
      ({ off := x.off, index := x.index, suppliers := l.suppliers, axis := l.axis } : Element))
  let keys := sortBy (fun a b : Nat × Nat => decide (a.1 < b.1) || (a.1 == b.1 && decide (a.2 ≤ b.2)))
    (els.map (·.1)).eraseDups
  (keys.zipIdx).map fun k =>
    let here := (els.filter fun e => e.1 == k.1).map (·.2)
    { number := k.2, step := k.1.1, tile := k.1.2, elements := here, suppliers := (here.flatMap (·.suppliers)).eraseDups }

/-! ### Values (R322, R164) -/

/-- The coordinates of a node. -/
def Job.coordsAt (j : Job) (node : Nat) : List Nat := ((j.nodes.find? fun n => n.1 == node).map (·.2)).getD []

/-- The axes over which a value is combined, the highest first: the outermost of R322's combination. -/
def Job.sums (j : Job) : List Nat :=
  ((List.range 4).filter fun a => j.ms.roleOf a == rolePartial && j.md.roleOf a != rolePartial).reverse

/-- What a supplier's contribution to an element at coordinates `u` is formed from: the source coordinates of R322, those of
an RS step's axis its own, and the axes that it combines itself. -/
def Job.share (j : Job) (u : List Nat) (supplier : Nat) (e : Element) (i : List Nat) : List Nat × List Nat :=
  let c := j.ms.owner j.sizes j.ext i u
  match e.axis with
  | some a => (c.set a ((j.coordsAt supplier).getD a 0), j.sums.filter (· != a))
  | none => (c, j.sums)

/-- The source elements of a combination: the node of each, and the bit offset in its shard (R319). -/
def Job.sites (j : Job) (i : List Nat) : List Nat → List Nat → List (Nat × Nat)
  | [], c => [(((j.nodes.find? fun n => n.2 == c).map (·.1)).getD 0, j.src.offset (j.ms.local j.sizes j.ext c i))]
  | a :: rest, c => (List.range (j.size a)).flatMap fun x => Job.sites j i rest (c.set a x)

/-- One addition of a combination. -/
def sumCodes (f : BitVec 5) (a b : Nat) : Nat :=
  match Fmt.ofCode f with
  | some .fp32 => addF32 a b
  | some .bf16 => roundBF16 ((Fmt.bf16.decode true a).add .rne (Fmt.bf16.decode true b))
  | some .i32 => (a + b) % 2 ^ 32
  | _ => (a + b) % 2 ^ 64

/-- A computation of the reshard engine: it ends with a STATUS, or waits while a walk waits for a table at a peer. -/
abbrev E (α : Type) := ExceptT (Option (BitVec 8)) (StateM State) α

/-- The pieces of a range at a node under the context of a reshard. -/
def rangeAt (r : Reshard) (node : Nat) (acc : Acc) (va n : Nat) : E (List Piece) := do
  let s ← get
  let die := (s.dieOfNode node).getD 0
  if (s.die die).inReset then throw (some 0x01)
  let core := (((s.die die).reshards.find? fun x => x.part == r.part && x.dst == r.dst).map (·.core)).getD (die * 256)
  let q : Req := {
    core := core, st := .x, agent := 5, acc := acc, pl := BitVec.ofNat 2 (bits r.ctx 1 0)
    part := BitVec.ofNat 4 r.part, vf := bits r.ctx 15 8, pasid := BitVec.ofNat 20 (bits r.ctx 35 16), die := die }
  let (x, s) := s.enginePieces q (BitVec.ofNat 64 va) n
  set s
  match x with
  | .ok ps => return ps
  | .error e => throw e

/-- Numbers of bytes at addresses, in ascending order, joined where they touch. -/
def joinRuns : List (Nat × Nat) → List (Nat × Nat)
  | [] => []
  | (a, n) :: rest => match joinRuns rest with
    | (b, m) :: more => if b ≤ a + n then (a, max (a + n) (b + m) - a) :: more else (a, n) :: (b, m) :: more
    | [] => [(a, n)]

/-- The bytes of a run of a node's source shard; those of a node outside the package are free values (assumption log 28). -/
def readRun (r : Reshard) (node va n : Nat) : E (List Byte) := do
  let s ← get
  if (s.dieOfNode node).isNone then do
    let (x, s) := s.draw (8 * n)
    set s
    return leBytes n x.toNat
  let ps ← rangeAt r node .load va n
  match (readAll { core := r.core, st := .x, pc := r.pc, job := r.job } ps).run.run (← get) with
  | (.ok bs, s) => set s; return bs
  | (.error _, s) => set s; throw (some 0x06)

/-- The source bytes that some elements are read from, each run of a shard once: by node, the address of its first byte and
its bytes. -/
def readSites (r : Reshard) (j : Job) (sites : List (Nat × Nat)) : E (List (Nat × Nat × List Byte)) := do
  let w := max 1 (j.src.width / 8)
  let runs := (sites.map (·.1)).eraseDups.flatMap fun node =>
    (joinRuns (sortBy (fun a b => decide (a.1 ≤ b.1)) ((sites.filter fun x => x.1 == node).map fun x =>
      (j.src.base.toNat + x.2 / 8, w)))).map fun q => (node, q)
  runs.mapM fun x => return (x.1, x.2.1, ← readRun r x.1 x.2.1 x.2.2)

/-- The code at a site, among bytes that have been read. -/
def codeAt (j : Job) (read : List (Nat × Nat × List Byte)) (site : Nat × Nat) : Nat :=
  let a := j.src.base.toNat + site.2 / 8
  match read.find? fun x => x.1 == site.1 && decide (x.2.1 ≤ a) && decide (a < x.2.1 + x.2.2.length) with
  | some x => (leNat ((x.2.2.drop (a - x.2.1)).take (max 1 (j.src.width / 8))) >>> (site.2 % 8)) % 2 ^ j.src.width
  | none => 0

/-- Codes added in order. -/
def sumAll (f : BitVec 5) : List Nat → Nat
  | [] => 0
  | v :: rest => rest.foldl (sumCodes f) v

/-- The elements of several axes combined, the lowest innermost (R164). -/
def combine (j : Job) (read : List (Nat × Nat × List Byte)) (i : List Nat) : List Nat → List Nat → Nat
  | [], c => ((j.sites i [] c).map (codeAt j read)).headD 0
  | a :: rest, c => sumAll j.dst.fmt ((List.range (j.size a)).map fun x => combine j read i rest (c.set a x))

/-- The codes that a supplier forms for elements of a node, by their offsets (R322). -/
def formCodes (r : Reshard) (j : Job) (supplier node : Nat) (els : List Element) : E (List (Nat × Nat)) := do
  let u := j.coordsAt node
  let site (e : Element) : List (Nat × Nat) := match e.index with
    | none => []
    | some i => let s := j.share u supplier e i; j.sites i s.2 s.1
  let read ← readSites r j (els.flatMap site)
  return els.map fun e => (e.off, match e.index with
    | none => 0
    | some i => let s := j.share u supplier e i; combine j read i s.2 s.1)

/-- Codes as bytes of the destination shard: the address, the bits written there and their value; a 4-bit code writes one
nibble. -/
def codeBytesAt (j : Job) (c : Nat × Nat) : List (Nat × Nat × Nat) :=
  let a := j.dst.base.toNat + c.1 / 8
  if j.dst.width < 8 then (if c.1 % 8 = 0 then [(a, 0x0F, c.2 % 16)] else [(a, 0xF0, 16 * (c.2 % 16))])
  else (leBytes (j.dst.width / 8) c.2).zipIdx.map fun b => (a + b.2, 0xFF, b.1.toNat)

/-- Codes written to the destination shard of a node, each run of bytes once. -/
def landCodes (r : Reshard) (j : Job) (node : Nat) (codes : List (Nat × Nat)) : E Unit := do
  let bytes := codes.flatMap (codeBytesAt j)
  let runs := joinRuns (sortBy (fun a b => decide (a.1 ≤ b.1)) (bytes.map fun b => (b.1, 1)))
  for q in runs do
    let ps ← rangeAt r node .store q.1 q.2
    let s ← get
    let new := ((ps.flatMap fun p => p.raw s).zipIdx).map fun o =>
      (bytes.filter fun b => b.1 == q.1 + o.2).foldl (fun (v : Byte) b =>
        (v &&& ~~~BitVec.ofNat 8 b.2.1) ||| BitVec.ofNat 8 b.2.2) o.1
    let work : R Unit := (offsets ps).forM fun o =>
      writePiece { core := r.core, st := .x, pc := r.pc, job := r.job } o.2 ((new.drop o.1).take o.2.len)
    match work.run.run s with
    | (.ok _, s) => set s
    | (.error _, s) => do
      set s
      throw (some 0x06)

/-- The range of a destination shard that a supplier's message for some elements covers: its VA and its length. -/
def Job.spanOf (j : Job) (els : List Element) : Nat × Nat :=
  let offs := els.map (·.off)
  let lo := offs.foldl min (offs.headD 0)
  let hi := offs.foldl max 0
  (j.dst.base.toNat + lo / 8, hi / 8 - lo / 8 + max 1 (j.dst.width / 8))

/-- The code of an element that a supplier's message has brought. -/
def Job.broughtBy (j : Job) (got : Nat × Dword × List Byte) (off : Nat) : Nat :=
  let a := j.dst.base.toNat + off / 8 - got.2.1.toNat
  (leNat ((got.2.2.drop a).take (max 1 (j.dst.width / 8))) >>> (off % 8)) % 2 ^ j.dst.width

/-- The codes of a piece whose parts have all come: an RS piece forms its values now, in the order of R164, whatever the order
of arrival (R328). -/
def ReshardPiece.codes (p : ReshardPiece) (j : Job) : List (Nat × Nat) :=
  p.elements.map fun e => (e.off, sumAll j.dst.fmt ((e.suppliers.filterMap fun n =>
    (p.got.find? fun g => g.1 == n).map fun g => j.broughtBy g e.off)))

/-! ### The reshard engine (R321, R324) -/

/-- An arrival of a reshard at its issuing core. -/
def State.reshardArrival (s : State) (die : Nat) (r : Reshard) (status : BitVec 8) (op info : Nat) : State :=
  let element := place status.toNat 56 ||| place op 48 ||| place r.dst 32 ||| place (info % 2 ^ 32) 0
  s.arrive die (r.core % 256)
    { src := BitVec.ofNat 12 (s.nodeOf die), inc := (s.die die).inc, msgid := 0, bitmap := 0, total := some 0, write := true
      range := none, action := 1, dcore := r.core % 256, element := element, job := r.job, fpid := s.fpid r.part }

/-- The source result of a reshard: its command ends (R324). -/
def State.sourceResult (s : State) (die : Nat) (r : Reshard) : State :=
  let c := s.coreAt r.core
  let p := c.port 1
  let gone := p.active.filter fun a => !(a.header == r.header && a.pc == r.pc)
  ((s.putCore r.core (c.setPort 1 { p with active := gone })).endCommand r.core 1 r.header r.pc r.job r.status
    r.supplied).mapReshard die r.part r.dst fun r => { r with sourced := true }

/-- No piece reads this die's source shard any more: every die that took the reshard has planned it, every part that reads
the shard has been sent and acknowledged, and so has every part of this die (R324, R325). -/
def State.allRead (s : State) (die : Nat) (r : Reshard) : Bool :=
  let node := s.nodeOf die
  r.out.isEmpty && [0, 1, 2, 3].all fun d => (s.die d).reshards.all fun x => x.part != r.part || x.dst != r.dst ||
    (x.planned && x.parts.all (fun p => !p.reads.contains node) && x.out.all fun o => !o.2.contains node)

/-- The final arrival, after every piece that lands here; the source result, after every piece that reads here; and the
end, after both. -/
def State.settleReshard (s : State) (die : Nat) (r : Reshard) : State :=
  if !r.planned ∨ r.closed then s
  else
    let s := if r.pieces.isEmpty ∧ !r.arrived then
      (s.mapReshard die r.part r.dst fun r => { r with arrived := true }).reshardArrival die r r.status 0x20 r.landed
      else s
    let s := if s.allRead die r ∧ r.untold.isEmpty ∧ !r.sourced then s.sourceResult die r else s
    s.mapReshard die r.part r.dst fun r => { r with closed := r.arrived && r.sourced }

/-- Every reshard of the package settled. -/
def State.settleReshards (s : State) : State :=
  [0, 1, 2, 3].foldl (fun s d => (s.die d).reshards.foldl (fun s r => s.settleReshard d r) s) s

/-- A reshard ends at every die that took it with STATUS 0x07 (R321). -/
def State.refuseReshard (s : State) (part dst : Nat) : State := (s.endReshard 0 part dst 0x07).settleReshards

/-- The operands that a digest stands for (R321). -/
def Reshard.operands (r : Reshard) : Dword × Images := (place (bits r.source 15 0) 0, r.images)

/-- The digest of a reshard's operands. -/
def Reshard.digest (r : Reshard) : Dword :=
  Config.digest [r.source.toNat, r.images.mapS.toNat, r.images.mapD.toNat, r.images.mesh.toNat,
    (r.images.src.getD 0).toNat, (r.images.dst.getD 0).toNat]

/-- The digest of a reshard sent to the nodes that have not been sent it, as far as message identifiers are free. -/
def State.sendDigests (s : State) (die : Nat) (r : Reshard) : State :=
  r.untold.foldl (fun s n =>
    match s.control die (.digest r.part r.dst) n r.part [place ctrlDigest 0, place r.dst 0, r.digest] with
    | some (_, s) => s.mapReshard die r.part r.dst fun r => { r with untold := r.untold.erase n }
    | none => s) s

/-- A taken command joins its reshard: its digest goes to the other nodes, and those that came before count (R321). -/
def State.joinReshard (s : State) (die : Nat) (r : Reshard) : State :=
  let early := ((s.die die).early.filter fun e => e.1 == r.part && e.2.1 == r.dst).map (·.2.2.1)
  let r := { r with heard := early, untold := (s.nodesOf r.part).filter (· != s.nodeOf die) }
  (s.mapDie die fun d =>
    { d with reshards := (d.reshards.filter fun x => !(x.part == r.part && x.dst == r.dst)) ++ [r]
             early := d.early.filter fun e => !(e.1 == r.part && e.2.1 == r.dst) }).sendDigests die r

/-- A command that its checks refuse: both of its results carry STATUS 0x07, and RSTAT shows its end (R323, R329). -/
def State.rejectReshard (s : State) (die : Nat) (cmd : Command) (r : Reshard) : State :=
  ((s.reshardArrival die r 0x07 0x20 0).endNow r.core 1 cmd 0x07 0).mapDie die fun d =>
    { d with reshards := d.reshards ++ [{ r with planned := true, arrived := true, sourced := true, closed := true, status := 0x07 }] }

/-- The reshard engine takes a command (R323, R439): checks that fail are reported as STATUS 0x07. -/
def runReshard (core : Nat) (cmd : Command) (s : State) : Taken :=
  let h := cmd.words.headD 0
  let w1 := cmd.word 1
  let die := dieOf core
  let g := cmd.images.getD { mapS := 0, mapD := 0, mesh := 0, src := none, dst := none }
  let dst := bits h 47 32
  let r : Reshard := {
    part := cmd.part, dst := dst, core := core, job := cmd.job, ctx := cmd.ctx, pc := cmd.tagPc, header := h, source := w1
    images := g, taken := s.kiln }
  if cmd.op ≠ 0x20 then .ok (s.endNow core 1 cmd 0x07 0)
  else if bits h 30 9 ≠ 0 ∨ bits w1 63 16 ≠ 0 then .ok (s.rejectReshard die cmd r)
  else if cmd.nw ≠ 1 then .ok (s.endNow core 1 cmd 0x05 0)
  else if (reshardFault g (bits w1 15 0) dst).isSome ∨
      (s.die die).reshards.any (fun x => x.part == cmd.part && x.dst == dst && !x.closed) then
    .ok (s.rejectReshard die cmd r)
  else .ok ((s.await core 1 cmd 0 []).joinReshard die r)

/-- A reshard's die took its command too long after the first die took its own (R321, R335). -/
def reshardWait : Nat := 2 ^ 24

/-- What a node sends, or in a SLICE step does itself, for the pieces of every node (R328, R333). -/
def Job.partsOf (j : Job) (me : Nat) (slice : Option Nat) (all : List (Nat × List ReshardPiece)) : List ReshardPart :=
  all.flatMap fun a => (a.2.filter fun p => p.suppliers.contains me).map fun p =>
    let els := p.elements.filter fun e => e.suppliers.contains me
    let reads := els.flatMap fun e => match e.index with
      | none => []
      | some i => let x := j.share (j.coordsAt a.1) me e i; (j.sites i x.2 x.1).map (·.1)
    { node := a.1, piece := p.number, step := p.step, slice := slice == some p.step, elements := els, reads := reads.eraseDups }

/-- Every digest has come: the die derives its plan, or ends the reshard (R321). -/
def State.planReshard (s : State) (die : Nat) (r : Reshard) : State :=
  let others := [0, 1, 2, 3].flatMap fun d => (s.die d).reshards.filter fun x => x.part == r.part && x.dst == r.dst
  let first := (others.map (·.taken.toNat)).foldl min r.taken.toNat
  if others.any fun x => x.operands != r.operands || x.status == 0x07 || decide (first + reshardWait < x.taken.toNat) then s.refuseReshard r.part r.dst
  else
    let j := s.jobOf r.part r.images
    let p := j.best
    let all := j.nodes.map fun n => (n.1, j.pieces p n.1 n.2)
    let me := s.nodeOf die
    let parts := j.partsOf me ((p.lastOf .slice).map p.runsAs) all
    (s.mapReshard die r.part r.dst fun r =>
      { r with planned := true, nstep := p.nstep, supplied := parts.length, parts := parts
               pieces := ((all.find? fun a => a.1 == me).map (·.2)).getD [] }).settleReshards

/-- The digests of a reshard have all come, and every other die of the package has its command (R321, R325). -/
def State.reshardReady (s : State) (die core : Nat) (r : Reshard) : Bool :=
  r.core == core && !r.planned && (s.nodesOf r.part).all fun n => n == s.nodeOf die || (r.heard.contains n &&
    match s.dieOfNode n with
    | some d => (s.die d).reshards.any fun x => x.part == r.part && x.dst == r.dst
    | none => true)

/-- RESHARD_PLAN (R321): the reshard engine takes the command at the head of ep1; else digests that could not be sent are
sent, and a reshard of the core whose digests have all come is planned. -/
def execReshardPlan (core : Nat) (s : State) : Host.Outcome State Fault Refusal :=
  if 1024 ≤ core then .fault .noSuchUnit
  else if ((s.coreAt core).head 1).isSome ∧ (s.coreAt core).released then
    engine core 1 (fun _ => true) s (runReshard core)
  else
    let die := dieOf core
    let s := ((s.die die).reshards.filter fun r => r.core == core).foldl (fun s r => s.sendDigests die r) s
    match (s.die die).reshards.find? (s.reshardReady die core) with
    | some r => .next (s.planReshard die r)
    | none => .next s.settleReshards

/-- RESHARD_DIGEST_TIMEOUT (R321): a die has not taken its command within 2^24 cycles after the first die took its own. -/
def execReshardDigestTimeout (die n : Nat) (s : State) : Host.Outcome State Fault Refusal :=
  if 4 ≤ die then .fault .noSuchUnit
  else match (s.die die).reshards[n]? with
    | none => .next s
    | some r =>
      let same (x : Reshard) : Bool := x.part == r.part && x.dst == r.dst && !x.closed
      let times := [0, 1, 2, 3].flatMap fun d => ((s.die d).reshards.filter same).map fun x => x.taken.toNat
      let missing := (s.nodesOf r.part).any fun n => match s.dieOfNode n with
        | some d => !(s.die d).reshards.any same
        | none => !r.heard.contains n
      let first := times.foldl min r.taken.toNat
      if !r.planned && missing && decide (reshardWait < s.kiln.toNat - first) then .next (s.refuseReshard r.part r.dst)
      else .next s

/-- A piece is admitted by its budget (R130). -/
def State.pieceAdmits (s : State) (die part : Nat) : Bool :=
  let b := bits (vget (s.die die).budget 0 part) 31 16
  b == 0xFFFF || decide ((vget (s.die die).used {} part).piece < b)

/-- What a reshard engine can do next: send or perform a part, or land a piece all of whose parts have come. -/
inductive ReshardWork where
  | part (p : ReshardPart)
  | land (p : ReshardPiece)
  deriving DecidableEq, Repr

/-- A piece has ended early, or all of its parts have come. -/
def ReshardPiece.ready (p : ReshardPiece) : Bool :=
  p.status != 0 || p.suppliers.all fun n => p.got.any fun g => g.1 == n

/-- What the reshard engine of a die can do next: it lands what has come; it starts the parts of the step that runs as their
partition's PIECE budget admits them and in the order of the plan, unless the issuing core is parked (R130, R328, R409). -/
def State.piecesOf (s : State) (die : Nat) : List (Reshard × ReshardWork) :=
  (s.die die).reshards.flatMap fun r =>
    if !r.planned || r.closed then []
    else ((r.pieces.filter (·.ready)).map fun p => (r, ReshardWork.land p)) ++
      (if s.pieceAdmits die r.part && !s.parkedAt r.part r.core then
        (r.parts.filter fun p => p.step == r.step).map fun p => (r, ReshardWork.part p) else [])

/-- A piece has ended: the count and the status of the node, and its arrival (R324). -/
def State.pieceDone (s : State) (die : Nat) (r : Reshard) (p : ReshardPiece) (status : BitVec 8) : State :=
  let s := s.mapReshard die r.part r.dst fun r =>
    { r with pieces := r.pieces.filter fun x => x.number != p.number
             landed := if status = 0 then r.landed + 1 else r.landed
             status := if r.status = 0 then status else r.status }
  let s := if r.header.getLsbD 8 then s.reshardArrival die r status 0x21 p.number else s
  s.settleReshards

/-- A piece lands: its tile is written, unless an error has ended it (R324, R328). -/
def State.landPiece (s : State) (die : Nat) (r : Reshard) (p : ReshardPiece) : State :=
  if p.status ≠ 0 then s.pieceDone die r p p.status
  else
    let j := s.jobOf r.part r.images
    match (landCodes r j (s.nodeOf die) (p.codes j)).run.run s with
    | (.ok _, s) => s.pieceDone die r p 0
    | (.error none, s) => s
    | (.error (some e), s) => s.pieceDone die r p e

/-- A part has been started: PIECE counts it, and its message is out (R130, R324). -/
def State.partStarted (s : State) (die : Nat) (r : Reshard) (p : ReshardPart) (out : List Nat) : State :=
  (s.mapUsed die r.part fun u => { u with piece := u.piece + 1 }).mapReshard die r.part r.dst fun x =>
    { x with parts := x.parts.erase p, out := x.out ++ out.map fun id => (id, p.reads) }

/-- A part of a SLICE piece, which the node writes from data it has; it crosses no link (R333). -/
def State.slicePart (s : State) (die : Nat) (r : Reshard) (p : ReshardPart) : State :=
  let j := s.jobOf r.part r.images
  let work : E Unit := do landCodes r j p.node (← formCodes r j p.node p.node p.elements)
  let done (status : BitVec 8) (s : State) : State :=
    let s := s.partStarted die r p []
    match r.pieces.find? fun x => x.number == p.piece with
    | some x => s.pieceDone die r x status
    | none => s
  match work.run.run s with
  | (.ok _, s) => done 0 s
  | (.error none, s) => s
  | (.error (some e), s) => done e s

/-- The range that a part's message covers at its node (R132, R133). -/
def Reshard.range (r : Reshard) (j : Job) (p : ReshardPart) : Range :=
  let x := j.spanOf p.elements
  { dest := BitVec.ofNat 12 p.node, part := BitVec.ofNat 4 r.part, vf := bits r.ctx 15 8
    pasid := BitVec.ofNat 20 (bits r.ctx 35 16), va := BitVec.ofNat 64 x.1, len := x.2, write := true, dcore := p.step
    tag := r.dst, action := 2, score := r.core % 256 }

/-- The message of a part asked for, with the bits that its bytes hold, and the STATUS that its flits carry. -/
def State.askPart (s : State) (die : Nat) (r : Reshard) (p : ReshardPart) (status : BitVec 8) (codes : List (Nat × Nat)) : State :=
  let j := s.jobOf r.part r.images
  let g := r.range j p
  let bytes := codes.flatMap (codeBytesAt j)
  let bs := (List.range g.len).map fun n =>
    (bytes.filter fun b => b.1 == g.va.toNat + n).foldl (fun (v : Byte) b => v ||| BitVec.ofNat 8 b.2.2) 0
  let flits (id : Nat) : List Flit :=
    (s.rangeWrites die g { core := r.core, st := .x, pc := r.pc, job := r.job } bs id).map fun f => { f with cause := status }
  match s.askRange die (.piece r.part r.dst p.piece) g flits with
  | some (id, s) => s.partStarted die r p [id]
  | none => s

/-- A part of a piece sent: the node forms its codes, asks the landing node for the range, and sends them once that has
translated it. A source that cannot be read leaves its STATUS in every flit (R132, R133, R324; assumption log 35). -/
def State.sendReshardPart (s : State) (die : Nat) (r : Reshard) (p : ReshardPart) : State :=
  match (formCodes r (s.jobOf r.part r.images) (s.nodeOf die) p.node p.elements).run.run s with
  | (.ok codes, s) => s.askPart die r p 0 codes
  | (.error none, s) => s
  | (.error (some e), s) => s.askPart die r p e []

/-- RESHARD_PIECE (R328): the `n`-th thing that the reshard engine of a die can do next; where there is none, what is left of
the die's reshards is settled. -/
def execReshardPiece (die n : Nat) (s : State) : Host.Outcome State Fault Refusal :=
  if 4 ≤ die then .fault .noSuchUnit
  else match (s.piecesOf die)[n]? with
    | none => .next s.settleReshards
    | some (r, .land p) => .next (s.landPiece die r p)
    | some (r, .part p) =>
      if p.slice then .next (s.slicePart die r p) else .next (s.sendReshardPart die r p)

end Sys2Proof.Machine
end

