-- ==== Sys2Proof/Machine/Launch.lean ====
section
/-! DEFINITION. From a notify register to the end of an invocation: queues and hardware slots, commands, INVOKE, dispatch
by stride, the start of a node, the walker and the start of a job, retirement of an iteration, the node boundary, and
parking at it (R23, R24, R67, R69, R72, R76 to R86, R111 to R124, R407 to R409). -/

namespace Sys2Proof.Machine

/-! ### Virtual functions and queues (R111 to R113, R348, R349) -/

/-- A virtual function's binding is valid. -/
def State.bound (s : State) (vf : Nat) : Bool := (s.fn vf).vfbind.getLsbD 15

/-- A feature bit of the configuration record in force; before a boot has put one in force, every feature is there
(R388, assumption log 60). -/
def State.feature (s : State) (i : Nat) : Bool := s.service.record.isEmpty || (at8 s.service.record 0x19C 1).testBit i

/-- The functions that the record in force offers: its VF count, at most 192, and the physical one (R3, R388). -/
def State.offered (s : State) (fn : Nat) : Bool :=
  fn == physFn || decide (fn < (if s.service.record.isEmpty then 192 else min 192 (8 * at8 s.service.record 0x19D 1)))

/-- The package queue numbers. -/
def queues : Nat := 12288

/-- The slots of a die that queues of a partition hold. -/
def State.slotsUsed (s : State) (die part : Nat) : Nat :=
  ((s.die die).slots.filter fun p => s.partOfQueue p.2.pqn == part).length

/-- A host thread writes a write index to a notify register (R112, R113). -/
def State.notify (s : State) (pqn : Nat) (value : Dword) : State :=
  match s.slotOf pqn with
  | some (d, n) =>
    match s.slot d n with
    | none => s
    | some q =>
      if value.toNat ≤ q.w.toNat then s
      else if q.ridx.toNat + 2 ^ q.field 8 1 < value.toNat then s.queueError pqn 0x0B
      else s.mapSlot d n fun q => { q with w := value }
  | none =>
    let w := max ((s.descRead pqn 0x10 8).getD 0) (Tab.get 0 (s.fn (pqn / 64)).shadow (pqn % 64)).toNat
    if value.toNat ≤ w then s
    else match s.descRead pqn 0x18 8, s.descRead pqn 8 1 with
      | some ridx, some log2n =>
        if ridx + 2 ^ log2n < value.toNat then s.queueError pqn 0x0B else s.mergeShadow pqn value.toNat
      | _, _ => s.mergeShadow pqn value.toNat

/-- NOTIFY (R112): the registers of the physical function belong to no queue; a function beyond the record's VF count, or
any in minimal mode, has none (R388, R430). -/
def execNotify (fn queue : Nat) (value : Dword) (s : State) : Host.Outcome State Fault Refusal :=
  if physFn < fn ∨ 64 ≤ queue then .fault .noSuchUnit
  else if fn = physFn ∨ !s.offered fn ∨ s.service.minimal then .next s
  else .next (s.notify (fn * 64 + queue) value)

/-- Whether a descriptor has every field in range and every reserved field zero (R111). A BASE or an IDESC outside the host
half is no field out of range: the access that uses it fails instead (assumption log 44). -/
def descOk (d : BitVec 512) : Bool :=
  let f (off n : Nat) : Nat := (d.extractLsb' (8 * off) (8 * n)).toNat
  f 0 8 % 256 == 0 && decide (4 ≤ f 8 1) && decide (f 8 1 ≤ 16) && f 9 1 / 2 == 0 && f 0x0A 2 != 0 &&
    f 0x0C 4 / 2 ^ 20 == 0 && f 0x28 4 / 512 == 0 && f 0x3A 6 == 0

/-- QUEUE_MAP (R113): firmware of the home die maps a pending, enabled queue of a bound function into a free slot within
the partition's quota. A descriptor that is not in order halts its queue instead. -/
def execQueueMap (die slot pqn : Nat) (s : State) : Host.Outcome State Fault Refusal :=
  if 4 ≤ die ∨ 256 ≤ slot ∨ queues ≤ pqn then .fault .noSuchUnit
  else
    let fn := pqn / 64
    let part := s.partOfQueue pqn
    if !s.bound fn ∨ s.homeDie part ≠ some die ∨ !Tab.has (s.fn fn).shadow (pqn % 64) ∨ (s.slotOf pqn).isSome ∨
        (s.slot die slot).isSome ∨ bits (s.part part).pnset 56 48 ≤ s.slotsUsed die part then .next s
    else
    let s := s.keepRange fn none (s.descAt pqn) 64 false
    match s.descRead pqn 0 64 with
      | none => .next s
      | some n =>
        let d := BitVec.ofNat 512 n
        let f (off n : Nat) : Nat := (d.extractLsb' (8 * off) (8 * n)).toNat
        if !descOk d then .next (s.queueError pqn 0x02)
        else if f 9 1 % 2 = 0 then .next s
        else
          let held := Tab.get 0 (s.fn fn).shadow (pqn % 64)
          let q : QueueSlot := {
            pqn := pqn, part := part, desc := d, w := BitVec.ofNat 64 (max (f 0x10 8) held.toNat), ridx := BitVec.ofNat 64 (f 0x18 8)
            pass := BitVec.ofNat 64 (f 0x20 8), cmd := none, runnable := false, halted := f 0x28 4 / 256 % 2 == 1
            is := Vector.replicate 8 0 }
          .next ((s.mapDie die fun x => { x with slots := Tab.set x.slots slot q }).mapFn fn fun x =>
            { x with shadow := Tab.erase x.shadow (pqn % 64) })

/-- A slot that runs no command, and has none to fetch or may fetch none. -/
def State.slotIdle (s : State) (q : QueueSlot) : Bool :=
  q.cmd.isNone && (decide (q.w.toNat ≤ q.ridx.toNat) || q.halted || !s.bound (q.pqn / 64))

/-- QUEUE_UNMAP (R113): firmware unmaps an idle queue. -/
def execQueueUnmap (die slot : Nat) (s : State) : Host.Outcome State Fault Refusal :=
  if 4 ≤ die ∨ 256 ≤ slot then .fault .noSuchUnit
  else match s.slot die slot with
    | none => .next s
    | some q => if s.slotIdle q then .next (s.unmap die slot) else .next s

/-! ### LNRs (R76 to R79) -/

/-- `n` bytes of an LNR as a number. -/
def lf (l : BitVec 4096) (off n : Nat) : Nat := (l.extractLsb' (8 * off) (8 * n)).toNat

/-- Loop-level entry n. -/
def lnrLevel (l : BitVec 4096) (n : Nat) : Dword := l.extractLsb' (8 * (0x10 + 8 * n)) 64

/-- Fields of a loop-level entry. -/
def levelOrder (e : Dword) : Nat := bits e 42 40
def levelKind (e : Dword) : Nat := bits e 39 38
def levelSrc (e : Dword) : Nat := bits e 37 36
def levelSel (e : Dword) : Nat := bits e 35 32
def levelExtent (e : Dword) : Nat := bits e 31 0

/-- The levels that an LNR holds. -/
def lnrLevels (l : BitVec 4096) : List Dword := (List.range (lf l 0 1)).map (lnrLevel l)

/-- Words 0 and 1 of a descriptor image. -/
def lnrImage (l : BitVec 4096) (r : Nat) : Desc :=
  { w0 := l.extractLsb' (8 * (0x100 + 16 * r)) 64, w1 := l.extractLsb' (8 * (0x108 + 16 * r)) 64 }

/-- One loop-level entry is in order (R79). -/
def levelOk (e : Dword) : Bool :=
  bits e 63 43 == 0 && levelKind e != 3 && levelSrc e != 3 && (levelKind e != 2 || levelSrc e == 2) &&
    (match levelSrc e with
     | 0 => levelSel e == 0 && decide (1 ≤ levelExtent e) && decide (levelExtent e ≤ 65535)
     | 1 => levelExtent e == 0
     | _ => levelExtent e == 0 && decide (levelSel e < 4))

/-- The residency check of one LNR by itself (R78, R79). -/
def lnrOk (l : BitVec 4096) : Bool :=
  let n := lf l 0 1
  let levels := lnrLevels l
  decide (n ≤ 6) && lf l 1 1 / 4 == 0 && lf l 2 2 == 0 && decide (1 ≤ lf l 4 4) && decide (lf l 4 4 ≤ 65536) &&
    lf l 8 4 % 256 == 0 && decide (lf l 8 4 ≤ 0x100000) && lf l 0x0E 2 == 0 && lf l 0xC0 64 == 0 &&
    ((List.range 6).all fun i => decide (i < n) || lnrLevel l i == 0) && levels.all levelOk &&
    ((List.range n).all fun o => levels.any fun e => levelOrder e == o) &&
    ((List.range 4).all fun i => lf l (0x40 + 8 * i) 8 % 4 == 0 && lf l (0x40 + 8 * i) 8 / 2 ^ 56 == 0xFE) &&
    levels.all (fun e => levelSrc e != 1 || lf l 0x0C 2 / 2 ^ levelSel e % 2 == 1) &&
    (List.range 16).all fun r =>
      let d := lnrImage l r
      Desc.okRing d.w0 && Desc.okFormat d.w1 && decide (d.base + d.size ≤ max (lf l 8 4) (if d.size = 0 then d.base else 0))

/-- The residency check of a program: every LNR, and in each RLMASK the registers that relocate a tensor base (R78). -/
def Program.ok (p : Program) : Bool :=
  p.lnrs.all fun l => lnrOk l && p.relocs.all fun r => lf l 0x0C 2 / 2 ^ r.2.1 % 2 == 1

/-- Whether the mesh sources of an LNR are D levels of axes that a MESH image has (R77). -/
def lnrMeshOk (l : BitVec 4096) (mesh : Dword) : Bool :=
  (lnrLevels l).all fun e => levelSrc e != 2 || (levelKind e == 2 && decide (levelSel e < naxOf mesh))

/-- Resolved extents of an LNR's six levels (R77). -/
def lnrExtents (l : BitVec 4096) (rl : Vector Dword 16) (mesh : Dword) : Vector Nat 6 :=
  Vector.ofFn fun i =>
    if i.val < lf l 0 1 then
      let e := lnrLevel l i.val
      match levelSrc e with
      | 0 => levelExtent e
      | 1 => bits (vget rl 0 (levelSel e)) 31 0
      | _ => (sizesOf mesh).getD (levelSel e) 1
    else 0

/-- The C levels in ascending order of ORDER (R81). -/
def lnrWalk (l : BitVec 4096) : List Nat :=
  (List.range 6).filterMap fun o =>
    (List.range (lf l 0 1)).find? fun i => levelOrder (lnrLevel l i) == o && levelKind (lnrLevel l i) == 1

/-- The loop indices of iteration j (R81). -/
def lnrIndices (l : BitVec 4096) (ext : Vector Nat 6) (j : Nat) : Vector Nat 6 :=
  ((lnrWalk l).reverse.foldl (fun (acc : Vector Nat 6 × Nat) n =>
    (vset acc.1 n (acc.2 % max (vget ext 1 n) 1), acc.2 / max (vget ext 1 n) 1)) (Vector.replicate 6 0, j)).1

/-! ### Commands (R114 to R119) -/

/-- `n` bytes of a command entry as a number. -/
def cf (e : BitVec 2048) (off n : Nat) : Nat := (e.extractLsb' (8 * off) (8 * n)).toNat

/-- The relocation values of a command; an entry whose RLMASK bit is clear gives 0 (R116). -/
def cmdRl (e : BitVec 2048) : Vector Dword 16 := Vector.ofFn fun i =>
  if cf e 0x18 2 / 2 ^ i.val % 2 = 1 then e.extractLsb' (8 * (0x40 + 8 * i.val)) 64 else 0

/-- A command with the relocation values of another reading of its entry (R117). -/
def withRl (e x : BitVec 2048) : BitVec 2048 :=
  let m : BitVec 2048 := (BitVec.allOnes 1024).setWidth 2048 <<< 512
  (e &&& ~~~m) ||| (x &&& m)

/-- The error code of a command entry, if it has one (R115). A relocation value whose RLMASK bit is clear is a reserved
field, and I without C is an error of MARK alone (assumption log 44). -/
def cmdFault (e : BitVec 2048) : Option Nat :=
  let op := cf e 0 1
  let mask := cf e 0x18 2
  if op ≠ 1 ∧ op ≠ 2 then some 0x01
  else if cf e 1 1 / 4 ≠ 0 ∨ cf e 0x1A 38 ≠ 0 ∨ cf e 0xC0 64 ≠ 0 ∨
      ((List.range 16).any fun i => mask / 2 ^ i % 2 == 0 && cf e (0x40 + 8 * i) 8 != 0) ∨
      (cf e 1 1 % 2 = 1 ∧ cf e 0x10 8 % 32 ≠ 0) ∨
      (op = 2 ∧ (cf e 2 6 ≠ 0 ∨ mask ≠ 0 ∨ cf e 1 1 = 2)) then some 0x02
  else none

/-- The auto MESH image of a partition (R67). -/
def State.autoMesh (s : State) (part : Nat) : Dword :=
  let e := (s.box part).2
  let p := (List.range 3).foldl (fun p t => if 1 < e.getD t 1 then p + 2 ^ t else p) 0
  place 1 15 ||| place (if p = 0 then 1 else p) 12 ||| place (e.foldl (· * ·) 1 - 1) 0

/-- The MESH image of a program for a partition. -/
def State.meshOf (s : State) (part : Nat) (p : Program) : Dword := p.mesh.getD (s.autoMesh part)

/-- The tensor table of an invocation: the program's records, with the relocated bases (R72, R318). -/
def Program.table (p : Program) (rl : Vector Dword 16) : Tab (BitVec 512) :=
  p.relocs.foldl (fun t r =>
    let base := vget rl 0 r.2.1 + r.2.2
    match t.find? fun x => x.1 == r.1 with
    | none => t
    | some x => Tab.set t r.1 ((x.2 &&& ~~~((BitVec.ofNat 512 (2 ^ 50 - 1)) <<< 30)) |||
        (BitVec.ofNat 512 (bits base 55 6)) <<< 30)) p.tensors

/-- The first failing check of an INVOKE (R77, R116, R318). A SLOT above 63 names a slot that is not resident (assumption
log 44). -/
def State.invokeFault (s : State) (part : Nat) (e : BitVec 2048) : Option Nat :=
  match s.programs.find? fun p => p.1 == part * 64 + cf e 2 2 with
  | none => some 0x03
  | some (_, p) =>
    let mask := cf e 0x18 2
    let mesh := s.meshOf part p
    if 64 ≤ cf e 2 2 then some 0x03
    else if !p.pinned then some 0x04
    else if p.version.toNat ≠ cf e 4 4 then some 0x05
    else if p.lnrs.any (fun l => (lf l 0x0C 2 &&& (65535 - mask)) != 0) then some 0x06
    else if (p.mesh.isSome && !s.meshOk part mesh) ∨ !p.lnrs.all (fun l => lnrMeshOk l mesh) then some 0x06
    else if p.relocs.any (fun r => (vget (cmdRl e) 0 r.2.1 + r.2.2).toNat % 64 != 0) then some 0x06
    else none

/-- A pass value that stays below 2^63: else the dispatcher subtracts the least runnable pass from every queue of the
partition and from V (R121). A pass below the least one becomes negative, in two's complement, so that the order of any two
stays (assumption log 46). -/
def State.rebase (s : State) (part amount : Nat) (pass : Nat) : State × Nat :=
  if pass + amount < 2 ^ 63 then (s, 0)
  else
    let mine (q : QueueSlot) : Bool := s.partOfQueue q.pqn == part
    let low := s.dies.toList.foldl (fun m d => d.slots.foldl (fun m p =>
      if mine p.2 && p.2.runnable then min m p.2.pass.toInt else m) m) (pass : Int)
    let sub (x : Dword) : Dword := x - BitVec.ofInt 64 low
    let unmapped := (List.range queues).filter fun pqn =>
      s.bound (pqn / 64) && s.partOfQueue pqn == part && (s.slotOf pqn).isNone
    let s := unmapped.foldl (fun s pqn => match s.descRead pqn 0x20 8 with
      | some x => s.descWrite pqn 0x20 8 (sub (BitVec.ofNat 64 x)).toNat
      | none => s) s
    let lower (p : Nat × QueueSlot) : Nat × QueueSlot := if mine p.2 then (p.1, { p.2 with pass := sub p.2.pass }) else p
    let s := { s with dies := s.dies.map fun (d : Die) => { d with slots := d.slots.map lower } }
    (s.mapPart part fun p => { p with v := sub p.v }, low.toNat)

/-- A charge on a queue's pass. -/
def State.charge (s : State) (part die slot amount : Nat) : State :=
  let pass := ((s.slot die slot).map (·.pass.toInt.toNat)).getD 0
  (s.rebase part amount pass).1.mapSlot die slot fun q => { q with pass := q.pass + BitVec.ofNat 64 amount }

/-- A command that has been fetched starts (R115, R116). -/
def State.startCommand (s : State) (die slot : Nat) (q : QueueSlot) (e : BitVec 2048) : State :=
  let part := s.partOfQueue q.pqn
  let s := s.mapSlot die slot fun q => { q with cmd := some e }
  match cmdFault e with
  | some code => s.queueError q.pqn code
  | none =>
    if cf e 0 1 = 2 then s.commandDone die slot 0
    else match s.invokeFault part e with
      | some code => s.queueError q.pqn code
      | none =>
        let is : Vector Dword 8 := Vector.ofFn fun i => match i.val with
          | 0 => place q.pqn 0
          | 1 => place (cf e 2 2) 32 ||| place (cf e 4 4) 0
          | 2 => place (cf e 8 8) 0
          | 3 => place (cf e 0x10 8) 0
          | 4 => place (cf e 1 1) 16 ||| place (cf e 0x18 2) 0
          | 6 => s.kiln
          | _ => 0
        let v := (s.part part).v
        let empty := match s.programs.find? fun p => p.1 == part * 64 + cf e 2 2 with
          | some (_, p) => p.lnrs.isEmpty
          | none => true
        let s := s.mapSlot die slot fun q =>
          { q with is := is, nodes := 0, err := 0, pass := if q.pass.toInt < v.toInt then v else q.pass, runnable := !empty }
        if empty then s.commandDone die slot 0 else s

/-- COMMAND_FETCH (R114): a mapped queue with W > RIDX fetches its next entry under its PASID; a halted queue fetches
nothing until STATUS reads 0. -/
def execCommandFetch (die slot : Nat) (s : State) : Host.Outcome State Fault Refusal :=
  if 4 ≤ die ∨ 256 ≤ slot then .fault .noSuchUnit
  else match s.slot die slot with
    | none => .next s
    | some q =>
      let fn := q.pqn / 64
      if q.cmd.isSome ∨ !s.bound fn ∨ q.w.toNat ≤ q.ridx.toNat then .next s
      else
        let s := if q.halted then s.keepRange fn none (s.descAt q.pqn + 0x28) 4 false else s
        if q.halted ∧ s.descRead q.pqn 0x28 4 ≠ some 0 then .next s
        else
        let s := s.mapSlot die slot fun q => { q with halted := false }
        let a := q.entryAt
        let s := s.keepRange fn (some q.pasid) a 256 false
        match s.hostRead fn (some q.pasid) a 256 with
        | none => .next (s.queueError q.pqn 0x09)
        | some bs => .next (s.startCommand die slot q (BitVec.ofNat 2048 (leNat bs)))

/-! ### Parking (R407 to R409) -/

/-- The entry that stands for an element which ep3 already held. -/
def heldElement (k : Nat) (x : Dword) : SavedEntry where
  snode := BitVec.ofNat 12 (bits x 31 20)
  sinc := 0
  dcore := k
  msgid := 0
  bitmap := 1
  count := 1
  whole := true
  element := x

/-- An entry of a die's cullet table as a record keeps it. -/
def Cullet.save (c : Cullet) (die : Nat) : SavedEntry where
  snode := c.src
  sinc := c.inc
  dcore := die * 256 + c.dcore
  msgid := c.msgid
  bitmap := c.bitmap
  count := c.count
  whole := c.whole
  element := c.element
  entry := some c

/-- The entries that UNPARK has given back to the invocations of other slots of a partition (R408). -/
def State.givenBack (s : State) (part die slot : Nat) : List SavedEntry :=
  [0, 1, 2, 3].flatMap fun d => (s.die d).slots.flatMap fun p =>
    if p.2.part = part ∧ ¬(d = die ∧ p.1 = slot) then p.2.given else []

/-- The arrivals for a partition's cores, and the messages to them that are still being reassembled, taken out of ep3 and
the cullet tables into the record of a slot (R407). What an UNPARK has given back to another invocation of the partition
stays for it (DESIGN CHOICE, assumption log 24). -/
def State.parkSlot (s : State) (part die slot : Nat) : State :=
  let fp := s.fpid part
  let mine (c : Cullet) : Bool := c.action == 1 && c.fpid == fp
  let given := s.givenBack part die slot
  let taken (k : Nat) (x : Dword) : Bool := !given.any fun e => e.whole && e.dcore == k && e.element == x
  let mine (d : Nat) (c : Cullet) : Bool := mine c &&
    !given.any fun e => e.dcore == d * 256 + c.dcore && e.snode == c.src && e.sinc == c.inc && e.msgid == c.msgid
  let saved := [0, 1, 2, 3].flatMap fun d =>
    ((s.workers part d).flatMap fun k =>
      ((vget (s.coreAt k).ports {} 3).results.filter (taken k)).map (heldElement k)) ++
      ((s.die d).cullet.filter (mine d)).map fun c => c.save d
  let s := [0, 1, 2, 3].foldl (fun s d => (s.workers part d).foldl (fun s k =>
    let c := s.coreAt k
    let p := vget c.ports {} 3
    if p.results.isEmpty then s
    else s.putCore k { c with ports := vset c.ports 3 { p with results := p.results.filter fun x => !taken k x } }) s) s
  let s := [0, 1, 2, 3].foldl (fun s d => s.mapDie d fun x => { x with cullet := x.cullet.filter fun c => !mine d c }) s
  s.mapSlot die slot fun q => { q with parked := true, again := true, saved := saved }

/-- An entry restored: a whole message into ep3 of its core, a partial one into the cullet table (R408). -/
def State.restoreEntry (s : State) (fp : BitVec 12) (e : SavedEntry) : State :=
  let d := e.dcore / 256
  let c : Cullet := match e.entry with
    | some c => c
    | none => { src := e.snode, inc := e.sinc, msgid := e.msgid, bitmap := e.bitmap
                total := if e.whole then some e.count else none, write := true, range := none, action := 1
                dcore := e.dcore % 256, element := e.element, job := 0, fpid := fp }
  if e.whole then s.arrive d (e.dcore % 256) { c with total := some c.count }
  else s.mapDie d fun x => { x with cullet := x.cullet ++ [c] }

/-- The entries of a parked slot restored, in the order of the record: by UNPARK, or as the dispatcher goes back to it
(R408). -/
def State.unparkSlot (s : State) (part die slot : Nat) : State :=
  match s.slot die slot with
  | none => s
  | some q =>
    let s := s.mapSlot die slot fun q => { q with parked := false, saved := [], given := q.saved }
    q.saved.foldl (fun s e => s.restoreEntry (s.fpid part) e) s

/-! ### Dispatch and the start of a node (R69, R80, R120 to R122) -/

/-- The slots of a partition whose queues are runnable: die, slot, and the queue. -/
def State.runnables (s : State) (part : Nat) : List (Nat × Nat × QueueSlot) :=
  [0, 1, 2, 3].flatMap fun d => ((s.die d).slots.filter fun p =>
    p.2.runnable && p.2.cmd.isSome && !p.2.halted && !p.2.park && p.2.part == part).map fun p => (d, p.1, p.2)

/-- The runnable queue of least pass; ties go to the lower number. -/
def leastPass : List (Nat × Nat × QueueSlot) → Option (Nat × Nat × QueueSlot)
  | [] => none
  | x :: rest =>
    match leastPass rest with
    | none => some x
    | some y =>
      if x.2.2.pass.toInt < y.2.2.pass.toInt ∨ (x.2.2.pass = y.2.2.pass ∧ x.2.2.pqn < y.2.2.pqn) then some x else some y

/-- The images and presets of a node on one worker core (R69, R80, R116). A map register that the image does not declare
is 0, so that no change of an earlier node outlives it (assumption log 47). -/
def Core.setUp (c : Core) (p : Program) (mesh : Dword) (rl : Vector Dword 16) (l : BitVec 4096) : Core :=
  { c with
    mp := p.maps.foldl (fun v m => vset v m.1 m.2) (Vector.replicate 16 0)
    mesh := mesh
    rl := rl
    bar := Vector.ofFn fun k =>
      let b := vget c.bar {} k.val
      let n := lf l (0x60 + 2 * k.val) 2
      if n = 0 then b else { b with exp := BitVec.ofNat 16 n, arr := 0, seen := b.cmp } }

/-- The walks of a node on the dies of its node set (R77, R81). -/
def State.walksOf (s : State) (part : Nat) (l : BitVec 4096) (ext : Vector Nat 6) : Vector (Option Walk) 4 :=
  Vector.ofFn fun d =>
    if (s.nodesOf part).contains (s.nodeOf d.val) then
      some { ext := ext, next := 0, total := (lnrWalk l).foldl (fun n i => n * vget ext 1 i) 1, retired := 0, started := true }
    else none

/-- The previous invocation of a partition is parked when another is chosen while it has nodes left (R407). -/
def State.leaveLast (s : State) (part pqn : Nat) : State :=
  match (s.part part).last with
  | none => s
  | some p =>
    if p = pqn then s
    else match s.slotOf p with
      | none => s
      | some (d, n) =>
        match s.slot d n with
        | none => s
        | some q => if q.cmd.isSome ∧ !q.parked ∧ (vget q.is 0 5) ≠ 0 then s.parkSlot part d n else s

/-- A node starts on every die of the node set. -/
def State.startNode (s : State) (part die slot : Nat) (q : QueueSlot) (e : BitVec 2048) (p : Program) (l : BitVec 4096)
    (stride : Nat) : State :=
  let mesh := s.meshOf part p
  let rl := cmdRl e
  let ext := lnrExtents l rl mesh
  let s := s.leaveLast part q.pqn
  let s := (if q.parked then s.unparkSlot part die slot else s).mapSlot die slot fun q => { q with given := [], again := false }
  let s := [0, 1, 2, 3].foldl (fun s d =>
    if (s.nodesOf part).contains (s.nodeOf d) then
      (s.workers part d).foldl (fun s k => s.putCore k ((s.coreAt k).setUp p mesh rl l)) s
    else s) s
  let r : Running := {
    slot := slot, die := die, job := s.nextJob, lnr := l, walks := s.walksOf part l ext, abandoned := false
    stride := stride, cost := lf l 4 4, flits := 0 }
  { s with nextJob := s.nextJob + 1 }.mapPart part fun x =>
    { x with running := some r, last := some q.pqn, tensors := p.table rl, rl := rl }

/-- The command that a queue runs: resumption from a park reads its relocation values again from the entry in the ring; none
where that read faults (R114, R117). -/
def State.reread (s : State) (q : QueueSlot) (e : BitVec 2048) : Option (BitVec 2048) :=
  if q.again then
    (s.hostRead (q.pqn / 64) (some q.pasid) q.entryAt 256).map fun bs =>
      withRl e (BitVec.ofNat 2048 (leNat bs))
  else some e

/-- NODE_DISPATCH (R120 to R122): the dispatcher of an idle partition chooses a queue and charges its next node. -/
def execNodeDispatch (part : Nat) (s : State) : Host.Outcome State Fault Refusal :=
  if 16 ≤ part then .fault .noSuchUnit
  else if (s.part part).running.isSome then .next s
  else match leastPass (s.runnables part) with
    | none => .next s
    | some (die, slot, q) =>
      match q.cmd with
      | none => .next s
      | some e =>
        match s.programs.find? fun p => p.1 == part * 64 + cf e 2 2 with
        | none => .next s
        | some (_, p) =>
          match p.lnrs[(vget q.is 0 5).toNat]? with
          | none => .next s
          | some l =>
            let s := if q.again then s.keepRange (q.pqn / 64) (some q.pasid) q.entryAt 256 false else s
            match s.reread q e with
            | none => .next (s.queueError q.pqn 0x09)
            | some e =>
            let s := s.mapSlot die slot fun q => { q with cmd := some e }
            let s := s.keepRange (q.pqn / 64) none (s.descAt q.pqn + 0x0A) 2 false
            let tickets := (s.descRead q.pqn 0x0A 2).getD (q.field 0x0A 2)
            let stride := 2 ^ 24 / max tickets 1
            let cost := lf l 4 4
            let s := (s.mapPart part fun x => { x with v := q.pass }).charge part die slot (stride * cost)
            let ext := lnrExtents l (cmdRl e) (s.meshOf part p)
            if ext.toList.any (fun n => decide (65535 < n)) then
              let s := s.mapSlot die slot fun q =>
                { q with is := vset q.is 7 (vget q.is 0 7 + BitVec.ofNat 64 cost) }
              .next (s.queueError q.pqn 0x07)
            else .next (s.startNode part die slot q e p l stride)

/-! ### The start of a job (R23, R76, R81) -/

/-- Free values for the elements of a register file, and the state that has drawn them. -/
def State.drawMany (s : State) (n w : Nat) : Vector (BitVec w) n × State :=
  (Vector.ofFn fun i => Config.freeBits (s.free + i.val) w, { s with free := s.free + n })

/-- What each index register holds: T the extent, C the walker's index, D the coordinate on the mesh axis (R76). -/
def State.indexRegs (s : State) (part die : Nat) (l : BitVec 4096) (ext : Vector Nat 6) (mesh : Dword) (j : Nat) :
    Vector Dword 6 :=
  let idx := lnrIndices l ext j
  let u := s.coordsOf part mesh (s.nodeOf die)
  Vector.ofFn fun i =>
    if i.val < lf l 0 1 then
      let e := lnrLevel l i.val
      match levelKind e with
      | 0 => place (vget ext 0 i.val) 0
      | 1 => place (vget idx 0 i.val) 0
      | _ => place (u.getD (levelSel e) 0) 0
    else 0

/-- Index registers written over the last six of a register file. -/
def withIndex {n : Nat} (v : Vector Dword n) (first : Nat) (idx : Vector Dword 6) : Vector Dword n :=
  (List.range 6).foldl (fun v i => vset v (first + i) (vget idx 0 i)) v

/-- The state of a core as the walker hands it a job: registers undefined but for those R23 and its kin name. -/
def State.freshCore (s : State) (k : Nat) (q : QueueSlot) (part : Nat) (l : BitVec 4096) (idx : Vector Dword 6) :
    Core × State :=
  let c := s.coreAt k
  let (g, s) := s.drawMany 32 64
  let (cx, s) := s.drawMany 16 64
  let (cm, s) := s.drawMany 16 64
  let (cv, s) := s.drawMany 16 64
  let (v, s) := s.drawMany 28 2048
  let (vshape, s) := s.draw 64
  let (acc, s) := s.drawMany 4 131072
  let (td, s) := s.drawMany 8 256
  let (tref, s) := s.draw 64
  let (freq, s) := s.drawMany 8 4096
  let seed := s.free
  let s := { s with free := s.free + 1 }
  let vf := q.pqn / 64
  let tvec := (s.fn vf).tvec &&& ~~~63#64
  ({ c with
    state := .running, pl := 0, part := BitVec.ofNat 4 part, vf := BitVec.ofNat 8 vf, pasid := q.pasid
    jobPasid := q.pasid
    g := withIndex g 26 idx, cx := withIndex cx 10 idx, cm := withIndex cm 10 idx, cv := withIndex cv 10 idx
    v := v, vshape := vshape, acc := acc, td := td
    st := Vector.ofFn fun r => lnrImage l r.val
    frit := freq.map fun f => { freq := f &&& fritBits, valid := false }
    marker := Vector.replicate 16 0, decoded := [], again := none, flips := []
    wq := Vector.replicate 6 {}, sq := Vector.replicate 4 {}, fills := Vector.replicate 4 []
    tok := Vector.replicate 8 0, pend := 0, owed := Vector.replicate 4 0
    loops := Vector.replicate 6 {}
    pc := Vector.ofFn fun i => l.extractLsb' (8 * (0x40 + 8 * i.val)) 64
    seq := Vector.replicate 4 0, arrived := Vector.replicate 4 false, hold := Vector.replicate 4 .none
    stopped := Vector.replicate 4 false
    monitor := .disarmed
    ports := c.ports.map fun p => { p with part := none }
    seed := some seed, known := [], fwait := Vector.replicate 4 .none, xasked := 0
    logged := 0, waiting := .none, xwait := .none, steps := [], xfers := [], blocked := 0
    lastStep := none, tref := tref, tvalid := false, wreq := 1, stall := 0, pending := none
    tr1 := vset c.tr1 4 tvec
    job := s.nextJob, index := idx, spres := lf l 8 4, timed := lf l 1 1 / 2 % 2 == 1
    boundary := none },
   { s with nextJob := s.nextJob + 1, jobs := Tab.set s.jobs s.nextJob q.pqn })

/-- The FREE cores of a partition's bench set on a die, lowest first (R81, R82). -/
def State.freeCores (s : State) (part die : Nat) : List Nat :=
  (s.workers part die).filter fun k => (s.coreAt k).state == .free && !(s.coreAt k).retired

/-- START_JOB (R81): the walker hands its next iteration to the lowest FREE core. A D level's index comes from the MESH
register of that core as it stands, which a TMESH of an earlier job of the node may have changed (assumption log 48). -/
def execStartJob (part die : Nat) (s : State) : Host.Outcome State Fault Refusal :=
  if 16 ≤ part ∨ 4 ≤ die then .fault .noSuchUnit
  else match (s.part part).running with
    | none => .next s
    | some r =>
      match vget r.walks none die, s.slot r.die r.slot, (s.freeCores part die).head? with
      | some w, some q, some k =>
        if w.total ≤ w.next ∨ r.stopped then .next s
        else if lf r.lnr 1 1 % 2 = 1 ∧ 2 ≤ (s.die die).throttle then .next s
        else
          let idx := s.indexRegs part die r.lnr w.ext (s.coreAt k).mesh w.next
          let (c, s) := s.freshCore k q part r.lnr idx
          .next ((s.putCore k c).mapPart part fun p => { p with running := p.running.map fun r =>
            { r with walks := vset r.walks die (some { w with next := w.next + 1 }) } })
      | _, _, _ => .next s

/-! ### The end of an iteration (R24, R84) -/

/-- What an iteration issued is complete, and no stream holds at its REND's posts (R84, R100). -/
def Core.complete (c : Core) : Bool :=
  c.arrived.toList.all id && c.owed.toList.all (· == 0) && c.pend == 0 && c.stores.isEmpty && c.fills.toList.all List.isEmpty && c.waiting == .none && c.xwait == .none &&
    c.xfers.isEmpty && c.steps.isEmpty

/-- No token and no queue entry is left (R24). -/
def Core.clean (c : Core) : Bool :=
  c.tok.toList.all (· == 0) && c.pend == 0 && c.wq.toList.all (fun q => q.size == 0) && c.sq.toList.all fun q => q.size == 0

/-- ITERATION_RETIREMENT (R84): all four streams at REND, everything complete, no residue. -/
def execIterationRetirement (core : Nat) (s : State) : Host.Outcome State Fault Refusal :=
  if 1024 ≤ core then .fault .noSuchUnit
  else
    let c := s.coreAt core
    if c.state ≠ .rendezvous ∨ c.pending.isSome ∨ !c.complete then .next s
    else if !c.clean then .next (s.raise core none { cls := 0x12 } (c.pcOf .s) (wordOf .rend))
    else .next ((s.iterationEnded core).putCore core { c with state := .free, job := 0 })

/-! ### The node boundary (R85, R122) -/

/-- Engine commands and S's accesses of a core are complete. -/
def Core.spent (c : Core) : Bool :=
  c.stores.isEmpty && c.products.isEmpty && [0, 1, 2].all fun n =>
    (vget c.ports {} n).fifo.isEmpty && (vget c.ports {} n).active.isEmpty

/-- A die has reached its part of the boundary of a partition's node. -/
def State.dieDone (s : State) (part : Nat) (r : Running) (d : Nat) : Bool :=
  (match vget r.walks none d with
   | some w => (r.stopped || decide (w.total ≤ w.next)) && decide (w.next ≤ w.retired)
   | none => true) &&
    (s.workers part d).all (fun k => (s.coreAt k).spent) &&
    (s.die d).reshards.all fun x => x.part != part || x.closed

/-- The dies of the package in a partition's node set. -/
def State.diesOf (s : State) (part : Nat) : List Nat :=
  [0, 1, 2, 3].filter fun d => (s.nodesOf part).contains (s.nodeOf d)

/-- A die that is done reports to the home die, once (R85). -/
def State.report (s : State) (part : Nat) (r : Running) (d : Nat) : State :=
  if d = r.die ∨ r.sent.contains (s.nodeOf d) ∨ !s.dieDone part r d then s
  else match s.control d (.ctrl part) (s.nodeOf r.die) part [place ctrlBoundary 0] with
    | none => s
    | some (_, s) => s.mapPart part fun p =>
        { p with running := p.running.map fun r => { r with sent := r.sent ++ [s.nodeOf d] } }

/-- The boundary is reached: the charge, the node pointer, and the end of the invocation or its parking. -/
def State.boundary (s : State) (part : Nat) (r : Running) : State :=
  let c := min 65536 (r.cost + (r.flits + 65535) / 65536)
  let s := s.charge part r.die r.slot (r.stride * (c - r.cost))
  let s := { s with saves := s.saves.filter (fun x => x.part.toNat != part), dies := s.dies.map (fun (d : Die) => { d with
    reshards := d.reshards.filter (fun x => x.part != part), early := d.early.filter (fun x => x.1 != part) }) }
  let s := (s.mapSlot r.die r.slot fun q =>
      { q with is := vset (vset q.is 7 (vget q.is 0 7 + BitVec.ofNat 64 c)) 5 (vget q.is 0 5 + 1), nodes := q.nodes + 1 }).mapPart
    part fun p => { p with running := none }
  match s.slot r.die r.slot with
  | none => s
  | some q =>
    let last : Bool := match q.cmd with
      | none => true
      | some e => match s.programs.find? fun p => p.1 == part * 64 + cf e 2 2 with
        | none => true
        | some (_, p) => decide (p.lnrs.length ≤ (vget q.is 0 5).toNat)
    if q.err ≠ 0 then s.commandDone r.die r.slot q.err
    else if last then s.commandDone r.die r.slot 0
    else if q.park then s.parkSlot part r.die r.slot
    else s

/-- NODE_BOUNDARY (R85): dies that are done report; once all have, the node ends. -/
def execNodeBoundary (part : Nat) (s : State) : Host.Outcome State Fault Refusal :=
  if 16 ≤ part then .fault .noSuchUnit
  else match (s.part part).running with
    | none => .next s
    | some r =>
      let s := (s.diesOf part).foldl (fun s d => s.report part r d) s
      let told := (((s.part part).running.map (·.told)).getD [])
      if s.dieDone part r r.die ∧ (s.nodesOf part).all fun n => n == s.nodeOf r.die || told.contains n then
        .next (s.boundary part (((s.part part).running).getD r))
      else .next s

end Sys2Proof.Machine
end

