-- ==== Sys2Proof/Machine/Regs.lean ====
section
/-! DEFINITION. The system registers: numbers, access levels, values, writes; the state window; and the events that write
one register (R128, R129, R256, R280, R345, R346, R348, R377, R378, R400 to R402). -/

namespace Sys2Proof.Machine

/-! ### Access (R401) -/

/-- The levels that may read and write a register; none where the number is reserved. A column that R401 leaves empty
takes the other's level. -/
def sysLevels (n : Nat) : Option (Nat × Nat) :=
  if n ≤ 0x005 ∨ n = 0x00F ∨ n = 0x010 ∨ n = 0x011 then some (1, 1)
  else if (0x008 ≤ n ∧ n ≤ 0x00E) ∨ (0x018 ≤ n ∧ n ≤ 0x01A) then some (2, 2)
  else if (0x020 ≤ n ∧ n ≤ 0x029) ∨ (0x030 ≤ n ∧ n ≤ 0x039) ∨ n = 0x040 ∨ n = 0x041 ∨ (0x048 ≤ n ∧ n ≤ 0x04C) ∨
      n = 0x050 ∨ n = 0x051 ∨ (0x058 ≤ n ∧ n ≤ 0x05C) ∨ n = 0x060 then some (1, 1)
  else if (0x800 ≤ n ∧ n ≤ 0x82F) ∨ (0xB01 ≤ n ∧ n ≤ 0xB03) ∨ (0xB10 ≤ n ∧ n ≤ 0xB1F) ∨ (0xC00 ≤ n ∧ n ≤ 0xCFF) then some (1, 2)
  else if (0x900 ≤ n ∧ n < 0x900 + 192) ∨ (0xA00 ≤ n ∧ n ≤ 0xB00) then some (2, 2)
  else none

/-- The partition whose register a number names. -/
def sysPart (n : Nat) : Option Nat :=
  if 0x800 ≤ n ∧ n ≤ 0x82F then some (n % 16)
  else if 0xB10 ≤ n ∧ n ≤ 0xB1F then some (n - 0xB10)
  else none

/-- Registers that are usable only while the core is TRAPPED by a trap from PL0. -/
def sysCut (n : Nat) : Bool :=
  decide (0x020 ≤ n ∧ n ≤ 0x028) || decide (0x030 ≤ n ∧ n ≤ 0x039) || n == 0x040 || n == 0x041 ||
    decide (0x058 ≤ n ∧ n ≤ 0x05C)

/-- The core is TRAPPED by a trap taken from PL0. -/
def Core.fromPl0 (c : Core) : Bool :=
  c.state == .trapped && bits (vget (if c.pl = 2 then c.tr2 else c.tr1) 0 0) 43 42 == 0

/-- The fault of an access of a system register, if it has one. -/
def Core.sysFault (c : Core) (n : Nat) (write : Bool) : Option Trap :=
  match sysLevels n with
  | none => some (Trap.operand 0x70)
  | some l =>
    if c.pl.toNat < (if write then l.2 else l.1) then some Trap.privilege
    else if c.pl = 1 ∧ (sysPart n).any (· != c.part.toNat) then some Trap.privilege
    else if sysCut n ∧ !c.fromPl0 then some (Trap.operand 0x71)
    else none

/-! ### The state window (R402) -/

/-- Bytes of a region. -/
def regionSize : Nat → Nat
  | 0x01 => 256 | 0x02 => 384 | 0x03 => 7176 | 0x04 => 65536 | 0x05 => 256 | 0x06 => 512 | 0x07 => 392 | 0x08 => 384
  | 0x09 => 4160 | 0x0A => 128 | 0x0B => 12288 | 0x0C => 512 | 0x0D => 608 | 0x0E => 1280 | 0x0F => 8
  | _ => 0

/-- 64-bit word i of a wide value, and the value with that word replaced. -/
def wordAt {w : Nat} (x : BitVec w) (i : Nat) : Dword := x.extractLsb' (64 * i) 64
def withWord {w : Nat} (x : BitVec w) (i : Nat) (y : Dword) : BitVec w :=
  (x &&& ~~~((BitVec.allOnes 64).setWidth w <<< (64 * i))) ||| (y.setWidth w <<< (64 * i))

/-- The loop stacks in window order: S at level 0, X, M, V. -/
def windowLoop (i : Nat) : Nat := [0, 3, 4, 5].getD i 0

/-- Ports in the order of region 0x0E. -/
def windowPort (i : Nat) : Nat := [0, 1, 2, 4, 3].getD i 0

/-- Word i of a loop stack. -/
def LoopStack.wordAt (l : LoopStack) (i : Nat) : Dword :=
  if i = 0 then l.depth
  else
    let e := l.get ((i - 1) / 3)
    match (i - 1) % 3 with
    | 0 => e.first
    | 1 => e.past
    | _ => e.rem

/-- A loop stack with word i written, as it is; an address in it that becomes a PC is aligned then
(R25, assumption log 45). -/
def LoopStack.withWord (l : LoopStack) (i : Nat) (x : Dword) : LoopStack :=
  if i = 0 then { l with depth := x }
  else
    let e := l.get ((i - 1) / 3)
    let e := match (i - 1) % 3 with
      | 0 => { e with first := x }
      | 1 => { e with past := x }
      | _ => { e with rem := x }
    { l with ent := vset l.ent ((i - 1) / 3) e }

/-- Position i of a port's result FIFO, from its head. -/
def Port.position (p : Port) (i : Nat) : Dword :=
  if i < p.results.length then p.results.getD i 0 else vget p.spare 0 i

/-- The state of the monitor as the window gives it. -/
def Monitor.word : Monitor → Dword
  | .disarmed => 0
  | .armed l _ => (l &&& ~~~127#64) ||| 1
  | .triggered l _ => (l &&& ~~~127#64) ||| 2

/-- The bits of a word of a region that stand for state: the others are reserved and read as zero (R6, R182, R221, R299). -/
def regionMask (region i : Nat) : Dword :=
  match region with
  | 0x03 => if i = 896 then 0x1FFFF#64 else BitVec.allOnes 64
  | 0x06 =>
    match i % 4 with
    | 0 => 0x001FFFFF001FFFFF#64
    | 1 => 0x00000000FFFF03DF#64
    | 2 => 0x801FFFFF001FFFFF#64
    | _ => 0x00000000001FFFFF#64
  | 0x09 => if i % 65 = 64 then 1 else 0x0FFF0FFF0FFF0FFF#64
  | _ => BitVec.allOnes 64

/-- Word i of a region, for an offset below its size. -/
def Core.regionWord (c : Core) (region i : Nat) : Dword :=
  match region with
  | 0x01 => c.readG (BitVec.ofNat 5 i)
  | 0x02 => vget (match i / 16 with | 0 => c.cx | 1 => c.cm | _ => c.cv) 0 (i % 16)
  | 0x03 => if i = 896 then c.vshape else wordAt (vget c.v 0 (i / 32)) (i % 32)
  | 0x04 => wordAt (vget c.acc 0 (i / 2048)) (i % 2048)
  | 0x05 => wordAt (vget c.td 0 (i / 4)) (i % 4)
  | 0x06 =>
    let d := c.desc (i / 4)
    match i % 4 with
    | 0 => d.w0
    | 1 => d.w1
    | 2 => d.w2
    | _ => d.w3
  | 0x07 => if i < 32 then wordAt (vget c.mp 0 (i / 2)) (i % 2) else if i = 32 then c.mesh else vget c.rl 0 (i - 33)
  | 0x08 =>
    let b := vget c.bar {} i
    place b.seen.toNat 48 ||| place b.cmp.toNat 32 ||| place b.arr.toNat 16 ||| place b.exp.toNat 0
  | 0x09 =>
    let t := vget c.frit {} (i / 65)
    if i % 65 = 64 then (if t.valid then 1 else 0) else wordAt t.freq (i % 65)
  | 0x0A => vget c.marker 0 i
  | 0x0B => wordAt (vget (c.wide (i / 256)).slot 0 (i / 32 % 8)) (i % 32)
  | 0x0C => vget (c.scalar (i / 16)).slot 0 (i % 16)
  | 0x0D => (vget c.loops {} (windowLoop (i / 19))).wordAt (i % 19)
  | 0x0E => (vget c.ports {} (windowPort (i / 32))).position (i % 32)
  | 0x0F => c.monitor.word
  | _ => 0

/-- A monitor written through the window: ARMED stands as TRIGGERED, which R107 allows the device at any time; state 3 is
none of R402 and writes nothing. -/
def Monitor.written (m : Monitor) (x : Dword) : Monitor :=
  match bits x 1 0 with
  | 0 => .disarmed
  | 3 => m
  | _ => .triggered (x &&& ~~~127#64) 0

/-- A core with word i of a region written. -/
def Core.setRegionWord (c : Core) (region i : Nat) (x : Dword) : Core :=
  match region with
  | 0x01 => c.writeG (BitVec.ofNat 5 i) x
  | 0x02 =>
    match i / 16 with
    | 0 => { c with cx := vset c.cx (i % 16) x }
    | 1 => { c with cm := vset c.cm (i % 16) x }
    | _ => { c with cv := vset c.cv (i % 16) x }
  | 0x03 =>
    if i = 896 then { c with vshape := x &&& regionMask 0x03 896 }
    else { c with v := vset c.v (i / 32) (withWord (vget c.v 0 (i / 32)) (i % 32) x) }
  | 0x04 => { c with acc := vset c.acc (i / 2048) (withWord (vget c.acc 0 (i / 2048)) (i % 2048) x) }
  | 0x05 => { c with td := vset c.td (i / 4) (withWord (vget c.td 0 (i / 4)) (i % 4) x) }
  | 0x06 =>
    let d := c.desc (i / 4)
    let d := match i % 4 with
      | 0 => { d with w0 := x }
      | 1 => { d with w1 := x }
      | 2 => { d with w2 := x }
      | _ => { d with w3 := x }
    { (c.setDesc (i / 4) d) with blocked := c.blocked &&& ~~~(1#16 <<< (i / 4)) }
  | 0x07 =>
    if i < 32 then { c with mp := vset c.mp (i / 2) (withWord (vget c.mp 0 (i / 2)) (i % 2) (if i % 2 = 0 then x else x &&& 0x3FFFF#64)) }
    else if i = 32 then { c with mesh := x }
    else { c with rl := vset c.rl (i - 33) x }
  | 0x08 =>
    let b : Barrier := {
      exp := BitVec.ofNat 16 (bits x 15 0), arr := BitVec.ofNat 16 (bits x 31 16)
      cmp := BitVec.ofNat 16 (bits x 47 32), seen := BitVec.ofNat 16 (bits x 63 48) }
    { c with bar := vset c.bar i b }
  | 0x09 =>
    let t := vget c.frit {} (i / 65)
    let t := if i % 65 = 64 then { t with valid := x.getLsbD 0 } else { t with freq := withWord t.freq (i % 65) (x &&& regionMask 0x09 i) }
    { c with frit := vset c.frit (i / 65) t }
  | 0x0A => ({ c with marker := vset c.marker i (x &&& 0xFFFFFFFF00000001#64) }).discard i
  | 0x0B =>
    let q := c.wide (i / 256)
    c.setWide (i / 256) { q with slot := vset q.slot (i / 32 % 8) (withWord (vget q.slot 0 (i / 32 % 8)) (i % 32) x) }
  | 0x0C =>
    let q := c.scalar (i / 16)
    c.setScalar (i / 16) { q with slot := vset q.slot (i % 16) x }
  | 0x0D =>
    let l := (vget c.loops {} (windowLoop (i / 19))).withWord (i % 19) x
    { c with loops := vset c.loops (windowLoop (i / 19)) l }
  | 0x0E =>
    let n := windowPort (i / 32)
    let p := vget c.ports {} n
    let results := if i % 32 < p.results.length then p.results.set (i % 32) x else p.results
    { c with ports := vset c.ports n { p with results := results, spare := vset p.spare (i % 32) x } }
  | 0x0F => { c with monitor := c.monitor.written x }
  | _ => c

/-- The 8 bytes at an offset of a region; bytes at or beyond its size, and reserved fields, read 0. -/
def Core.windowRead (c : Core) (region off : Nat) : Dword :=
  let size := regionSize region
  let w (i : Nat) : Nat := if 8 * i < size then (c.regionWord region i &&& regionMask region i).toNat else 0
  if size ≤ off then 0 else BitVec.ofNat 64 ((w (off / 8) + w (off / 8 + 1) * 2 ^ 64) / 2 ^ (8 * (off % 8)))

/-- A word of a region written through the window; the word's errors are gone (R413). -/
def Core.windowWord (c : Core) (region i : Nat) (x : Dword) : Core :=
  let c := c.setRegionWord region i x
  { c with flips := Tab.erase c.flips (region * 2 ^ 20 + i) }

/-- The same bytes written; writes at or beyond the size are ignored. -/
def Core.windowWrite (c : Core) (region off : Nat) (x : Dword) : Core :=
  let size := regionSize region
  if size ≤ off then c
  else
    let k := 8 * (off % 8)
    if k = 0 then c.windowWord region (off / 8) x
    else
      let lo := (c.regionWord region (off / 8)).toNat % 2 ^ k + x.toNat * 2 ^ k
      let c := c.windowWord region (off / 8) (BitVec.ofNat 64 lo)
      if 8 * (off / 8 + 1) < size then
        let hi := (c.regionWord region (off / 8 + 1)).toNat / 2 ^ k * 2 ^ k + x.toNat / 2 ^ (64 - k)
        c.windowWord region (off / 8 + 1) (BitVec.ofNat 64 hi)
      else c

/-- Region and offset that WSEL names, and WSEL after an access. -/
def Core.wregion (c : Core) : Nat := bits c.wsel 63 56
def Core.woffset (c : Core) : Nat := bits c.wsel 23 0
def Core.wnext (c : Core) : Core := { c with wsel := place c.wregion 56 ||| place ((c.woffset + 8) % 2 ^ 24) 0 }

/-- STATE_WINDOW_ACCESS (R402): a WDATA access of a core that is TRAPPED by a trap from PL0. -/
def execStateWindowAccess (core : Nat) (write : Bool) (value : Dword) (s : State) : Host.Outcome State Fault Refusal :=
  if 1024 ≤ core then .fault .noSuchUnit
  else
    let c := s.coreAt core
    if !c.fromPl0 then .next s
    else .next (s.putCore core (if write then (c.windowWrite c.wregion c.woffset value).wnext else c.wnext))

/-! ### Asynchronous records (R400) -/

/-- The head record popped. -/
def Core.popRecord (c : Core) : Core := { c with records := c.records.drop 1 }

/-- ASTAT. -/
def Core.astat (c : Core) : Dword := place c.recOvf.toNat 8 ||| place c.records.length 0

/-- ARPOP (R400): any write pops the head record. -/
def execArpop (core : Nat) (_value : Dword) (s : State) : Host.Outcome State Fault Refusal :=
  if 1024 ≤ core then .fault .noSuchUnit else .next (s.putCore core (s.coreAt core).popRecord)

/-! ### Registers of partitions and dies -/

/-- Every core of a bench that is not reserved has been retired (R422). -/
def State.benchRetired (s : State) (bench : Nat) : Bool :=
  (List.range 16).all fun i => (16 * bench + i) % 256 == 0 || (s.coreAt (16 * bench + i)).retired

/-- PBENCH[p] written: ignored as a whole if a bench it moves is not quiescent or is held by another partition, or if it
would break a limit of R346 once every write that waits for the tick boundary is in force; a retired bench keeps its bit
(R345, R422). -/
def State.writePbench (s : State) (p : Nat) (x : Dword) : State :=
  let old := (s.part p).pbenchNext.getD (s.part p).pbench
  let mask : Dword := (List.range 64).foldl (fun m b =>
    if old.getLsbD b != x.getLsbD b && s.benchRetired b then m ||| (1#64 <<< b) else m) 0
  let x := (x &&& ~~~mask) ||| (old &&& mask)
  let held (b : Nat) : Bool := (List.range 16).any fun q => q != p &&
    ((s.part q).pbench.getLsbD b || ((s.part q).pbenchNext.getD 0).getLsbD b)
  if ((List.range 64).all fun b => (s.part p).pbench.getLsbD b == x.getLsbD b ||
      (s.quiescent b && (!x.getLsbD b || !held b))) ∧
      ((s.mapPart p fun q => { q with pbenchNext := some x }).withMoves (List.range 16)).sharesOk p then
    s.mapPart p fun q => { q with pbenchNext := some x }
  else s

/-- PBENCH (R345, R346): a write of the register of partition `part`, as its firmware on a die makes it. -/
def execPbench (die part : Nat) (value : Dword) (s : State) : Host.Outcome State Fault Refusal :=
  if 4 ≤ die ∨ 16 ≤ part then .fault .noSuchUnit else .next (s.writePbench part value)

/-- The writable fields of PNSET. -/
def pnsetMask : Dword := 0x01FFFFFFFFFFF001#64

/-- PNSET[p] written: ignored if it would break a limit of R346, now or once every PBENCH write that waits for the tick
boundary is in force. A partition that it creates starts with V at 0 (R121). -/
def State.writePnset (s : State) (p : Nat) (x : Dword) : State :=
  let s' := s.mapPart p fun q =>
    { q with pnset := x &&& pnsetMask, v := if !q.pnset.getLsbD 0 && x.getLsbD 0 then 0 else q.v }
  if s'.sharesOk p ∧ (s'.withMoves (List.range 16)).sharesOk p then s' else s

/-- PNSET (R346). -/
def execPnset (die part : Nat) (value : Dword) (s : State) : Host.Outcome State Fault Refusal :=
  if 4 ≤ die ∨ 16 ≤ part then .fault .noSuchUnit else .next (s.writePnset part value)

/-- PS2ROOT[p] of a die written. -/
def State.writePs2root (s : State) (die p : Nat) (x : Dword) : State :=
  s.mapDie die fun d => { d with ps2root := vset d.ps2root p (x &&& 0x0000FFFFFFFF0001#64) }

/-- The queues of a function that are mapped are unmapped: those that run a command, once it ends (R367). -/
def State.unmapFn (s : State) (vf : Nat) : State :=
  [0, 1, 2, 3].foldl (fun s d => ((s.die d).slots.filter fun p => p.2.pqn / 64 == vf).foldl
    (fun s p => if p.2.cmd.isNone then s.unmap d p.1 else s.mapSlot d p.1 fun q => { q with leaving := true }) s) s

/-- VFBIND[n] written: a thirteenth VF of one partition is ignored, and so is one that the record does not offer (R388,
assumption log 60); an unbound VF's queues are unmapped (R348, R367). -/
def State.writeVfbind (s : State) (vf : Nat) (x : Dword) : State :=
  let p := bits x 3 0
  let count := ((List.range 192).filter fun n => n != vf && s.bound n && bits (s.fn n).vfbind 3 0 == p).length
  if !s.offered vf ∨ (x.getLsbD 15 ∧ 12 ≤ count) then s
  else
    let s := if s.bound vf ∧ (!x.getLsbD 15 ∨ bits (s.fn vf).vfbind 3 0 ≠ p) then s.unmapFn vf else s
    s.mapFn vf fun f => { f with vfbind := x &&& 0x800F#64 }

/-- VFBIND (R348). -/
def execVfbind (vf : Nat) (value : Dword) (s : State) : Host.Outcome State Fault Refusal :=
  if 192 ≤ vf then .fault .noSuchUnit else .next (s.writeVfbind vf value)

/-- A budget register written: ignored if a field is zero (R129). -/
def State.writeBudget (s : State) (die p : Nat) (x : Dword) : State :=
  if bits x 63 48 = 0 ∨ bits x 47 32 = 0 ∨ bits x 31 16 = 0 ∨ bits x 15 4 = 0 then s
  else s.mapDie die fun d => { d with budget := vset d.budget p (x &&& ~~~15#64) }

/-- BUDGET_REGISTER_WRITE (R129). -/
def execBudgetRegisterWrite (die part : Nat) (value : Dword) (s : State) : Host.Outcome State Fault Refusal :=
  if 4 ≤ die ∨ 16 ≤ part then .fault .noSuchUnit else .next (s.writeBudget die part value)

/-- NTOK written: 1 to 16, from the next tick (R128). -/
def State.writeNtok (s : State) (die : Nat) (x : Dword) : State :=
  let n := bits x 4 0
  if 1 ≤ n ∧ n ≤ 16 then s.mapDie die fun d => { d with ntokNext := some (BitVec.ofNat 5 n) } else s

/-- NTOK_WRITE (R128). -/
def execNtokWrite (die : Nat) (value : Dword) (s : State) : Host.Outcome State Fault Refusal :=
  if 4 ≤ die then .fault .noSuchUnit else .next (s.writeNtok die value)

/-- SCOWN[p] written: from the next tick (R280). -/
def State.writeScown (s : State) (die p : Nat) (x : Dword) : State :=
  s.mapDie die fun d => { d with scownNext := d.scownNext ++ [(p, x.extractLsb' 0 9)] }

/-- SCOWN_WRITE (R280). -/
def execScownWrite (die index : Nat) (value : Dword) (s : State) : Host.Outcome State Fault Refusal :=
  if 4 ≤ die ∨ 256 ≤ index then .fault .noSuchUnit else .next (s.writeScown die index value)

/-- ILROWS written: up to CHROWS, from the next tick (R256). -/
def State.writeDomcfg (s : State) (die : Nat) (x : Dword) : State :=
  let n := bits x 51 32
  if n ≤ chrows then s.mapDie die fun d => { d with ilrowsNext := some (BitVec.ofNat 20 n) } else s

/-- DOMCFG_WRITE (R256). -/
def execDomcfgWrite (die : Nat) (value : Dword) (s : State) : Host.Outcome State Fault Refusal :=
  if 4 ≤ die then .fault .noSuchUnit else .next (s.writeDomcfg die value)

/-- DOMCFG of a die. -/
def Die.domcfg (d : Die) : Dword := place d.ilrows.toNat 32 ||| place d.liveList.length 20 ||| place chrows 0

/-- KEYCTL[p][k] of a die (R377). -/
def KeySlot.ctl (k : KeySlot) : Dword :=
  let cur := genIx k.cur
  let old := genIx (!k.cur)
  place k.epoch.toNat 32 ||| place k.err.toNat 24 ||| place (if k.sweep then 1 else 0) 7 |||
    place (if vget k.full false old || k.pending.isSome then 1 else 0) 6 ||| place (if vget k.full false cur then 1 else 0) 5 ||| place cur 4

/-- A key slot of a die changed. -/
def State.mapKey (s : State) (die part key : Nat) (f : KeySlot → KeySlot) : State :=
  s.mapDie die fun d => { d with keys := Tab.set d.keys (part * 16 + key) (f (Tab.get {} d.keys (part * 16 + key))) }

/-- KEYCMD written: while a command runs, it is ignored with ERR 1; an unknown OP ends with ERR 6 (R378). -/
def State.writeKeycmd (s : State) (die : Nat) (x : Dword) : State :=
  let err (e : BitVec 8) : State := s.mapKey die (bits x 55 52) (bits x 59 56) fun k => { k with err := e }
  if (s.die die).keycmd.isSome then err 1
  else if bits x 63 60 = 0 ∨ 7 < bits x 63 60 then err 6
  else
    let s := s.mapKey die (bits x 55 52) (bits x 59 56) fun k => { k with err := 1, sweep := bits x 63 60 == 5 }
    s.mapDie die fun d => { d with keycmd := some x, keyDone := 0 }

/-! ### SYSR and SYSW (R404) -/

/-- The value of a system register that SYSR reads. Reserved fields of the cut read as zero (R6), though TRET refuses a cut
in which one is set (R399). -/
def State.sysRead (s : State) (n : Nat) : Dword :=
  let c := s.core
  let d := s.die (dieOf s.me)
  let head := c.records.headD { syn := 0, addr := 0, det := 0, job := 0 }
  if n ≤ 0x005 then vget c.tr1 0 n
  else if n ≤ 0x00D then vget c.tr2 0 (n - 8)
  else if 0x020 ≤ n ∧ n ≤ 0x027 then
    if n % 2 = 0 then vget c.cut.pc 0 ((n - 0x020) / 2) else vget c.cut.seq 0 ((n - 0x020) / 2) &&& 0x1FFFFFFFF#64
  else if 0x030 ≤ n ∧ n ≤ 0x039 then vget c.cut.qseq 0 (n - 0x030) &&& 0xFFFFFFFF#64
  else if 0x058 ≤ n ∧ n ≤ 0x05C then place (vget c.ports {} (n - 0x058)).results.length 0
  else if 0x800 ≤ n ∧ n ≤ 0x80F then (s.part (n % 16)).pbench
  else if 0x810 ≤ n ∧ n ≤ 0x81F then (s.part (n % 16)).pnset
  else if 0x820 ≤ n ∧ n ≤ 0x82F then vget d.ps2root 0 (n % 16)
  else if 0x900 ≤ n ∧ n < 0x9C0 then (s.fn (n - 0x900)).vfbind ||| place ((n - 0x900) / 96) 14
  else if 0xA00 ≤ n ∧ n ≤ 0xAFF then (Tab.get {} d.keys (n - 0xA00)).ctl
  else if 0xB10 ≤ n ∧ n ≤ 0xB1F then vget d.budget 0 (n - 0xB10)
  else if 0xC00 ≤ n ∧ n ≤ 0xCFF then place (vget d.scown 0 (n - 0xC00)).toNat 0
  else match n with
    | 0x00E => c.tepc2
    | 0x00F => c.ctx
    | 0x010 => c.fsyn1
    | 0x011 => c.fva1
    | 0x018 => c.fsyn2
    | 0x019 => c.fva2
    | 0x01A => c.fipa2
    | 0x028 => c.cut.tkcnt &&& 0x0000FFFFFFFFFFFF#64
    | 0x029 => if c.abandon then 1 else 0
    | 0x040 => c.wsel
    | 0x041 => c.windowRead c.wregion c.woffset
    | 0x048 => head.syn
    | 0x049 => head.addr
    | 0x04A => head.det
    | 0x04C => c.astat
    | 0x050 => c.tref
    | 0x051 => place c.wreq.toNat 1 ||| place (if c.tvalid then 1 else 0) 0
    | 0x060 => c.pfdrop
    | 0xB01 => d.domcfg
    | 0xB02 => d.live
    | 0xB03 => place d.ntok.toNat 0
    | _ => 0

/-- What reading a register changes: WDATA advances the offset. -/
def Core.afterRead (c : Core) (n : Nat) : Core := if n = 0x041 then c.wnext else c

/-- A cause register written: reserved fields and TPL keep their values. -/
def tcauseMask : Dword := 0x00FFFCC0FFFFFFFF#64

/-- The registers of PL1 or of PL2 with one of TCAUSE, TDETAIL, TADDR, TWORD, TVEC, TSCR written. -/
def writeTrapReg (v : Vector Dword 6) (i : Nat) (x : Dword) : Vector Dword 6 :=
  vset v i (if i = 0 then (x &&& tcauseMask) ||| (vget v 0 0 &&& ~~~tcauseMask) else if i = 4 then x &&& ~~~63#64 else x)

/-- RAVAIL of a port written: the FIFO holds that many of its positions. A count above 32 names no FIFO: which count then
holds is a free value. -/
def Port.count (p : Port) (n : Nat) : Port :=
  let all := (List.range 32).map p.position
  { p with results := all.take n, spare := Vector.ofFn fun i => all.getD i.val 0 }

/-- A register of a core written (R401). Firmware alone writes the PL1 fault bank (R366, assumption log 16). -/
def Core.sysWrite (c : Core) (n : Nat) (x : Dword) : Core :=
  if n ≤ 0x005 then if n = 0x004 then c else { c with tr1 := writeTrapReg c.tr1 n x }
  else if 0x008 ≤ n ∧ n ≤ 0x00D then { c with tr2 := writeTrapReg c.tr2 (n - 8) x }
  else if 0x020 ≤ n ∧ n ≤ 0x027 then
    if n % 2 = 0 then { c with cut := { c.cut with pc := vset c.cut.pc ((n - 0x020) / 2) x } }
    else { c with cut := { c.cut with seq := vset c.cut.seq ((n - 0x020) / 2) x } }
  else if 0x030 ≤ n ∧ n ≤ 0x039 then { c with cut := { c.cut with qseq := vset c.cut.qseq (n - 0x030) x } }
  else match n with
    | 0x00E => { c with tepc2 := x }
    | 0x010 => if c.pl = 2 then { c with fsyn1 := x &&& 0xFFFFFE00#64 } else c
    | 0x011 => if c.pl = 2 then { c with fva1 := x } else c
    | 0x028 => { c with cut := { c.cut with tkcnt := x } }
    | 0x029 => { c with abandon := x.getLsbD 0 }
    | 0x040 => { c with wsel := x &&& 0xFF00000000FFFFFF#64 }
    | 0x041 => (c.windowWrite c.wregion c.woffset x).wnext
    | 0x04B => c.popRecord
    | 0x050 => { c with tref := x }
    | 0x051 =>
      let w := bits x 3 1
      { c with tvalid := x.getLsbD 0, wreq := if 1 ≤ w ∧ w ≤ 4 then BitVec.ofNat 3 w else c.wreq }
    | _ => c

/-- A system register written by SYSW (R404). -/
def State.sysWrite (s : State) (n : Nat) (x : Dword) : State :=
  let die := dieOf s.me
  if 0x058 ≤ n ∧ n ≤ 0x05C then
    let (r, s) := if bits x 5 0 ≤ 32 then (bits x 5 0, s) else (let p := s.draw 5; (p.1.toNat, p.2))
    s.mapCore fun c => { c with ports := vset c.ports (n - 0x058) ((vget c.ports {} (n - 0x058)).count r) }
  else if n < 0x800 then s.mapCore fun c => c.sysWrite n x
  else if n ≤ 0x80F then s.writePbench (n % 16) x
  else if n ≤ 0x81F then s.writePnset (n % 16) x
  else if n ≤ 0x82F then s.writePs2root die (n % 16) x
  else if n < 0x9C0 then s.writeVfbind (n - 0x900) x
  else if n = 0xB00 then s.writeKeycmd die x
  else if n = 0xB01 then s.writeDomcfg die x
  else if n = 0xB03 then s.writeNtok die x
  else if 0xB10 ≤ n ∧ n ≤ 0xB1F then s.writeBudget die (n - 0xB10) x
  else if 0xC00 ≤ n ∧ n ≤ 0xCFF then s.writeScown die (n - 0xC00) x
  else s

/-- SYSR ga, sysN. -/
def execSysr (ga : BitVec 5) (n : BitVec 12) (s : State) : Host.Outcome State Fault Refusal :=
  privileged (.sysr ga n) 1 s (runOther (.sysr ga n) 0 (do
    let c ← M.core
    match c.sysFault n.toNat false with
    | some t => M.trap t
    | none => pure ()
    let x := (← get).sysRead n.toNat
    M.mapCore fun c => (c.afterRead n.toNat).writeG ga x
    return .next))

/-- SYSW sysN, ga. -/
def execSysw (ga : BitVec 5) (n : BitVec 12) (s : State) : Host.Outcome State Fault Refusal :=
  privileged (.sysw ga n) 1 s (runOther (.sysw ga n) 0 (do
    let c ← M.core
    match c.sysFault n.toNat true with
    | some t => M.trap t
    | none => pure ()
    modify fun s => s.sysWrite n.toNat (c.readG ga)
    return .next))

end Sys2Proof.Machine
end

