-- ==== Sys2Proof/Machine/System.lean ====
section
/-! DEFINITION. The trap and system words, the invalidation words, the events of a trap's entry, asynchronous records, the
stall fault, and the commands of the system engine ep4 (R92, R360, R361, R391 to R410). -/

namespace Sys2Proof.Machine

/-! ### ECALL, TRAP and TRET (R399, R404) -/

/-- ECALL n: it retires, then traps; the cut names the next word. At PL2 it only retires. Reached in the drain of another
stream's fault, it stops S as any fault does (R393). -/
def execEcall (n : BitVec 15) (s : State) : Host.Outcome State Fault Refusal :=
  if s.core.untaken then .next (s.held .s (.device 17))
  else
    let pc := s.core.pcOf .s
    let s' := s.mapCore fun c => c.advance .s .next
    if s.core.pl = 2 then .next s'
    else if s.core.pending.isSome then .next (s.mapCore fun c => { c with stopped := vset c.stopped 0 true })
    else .next (s'.raise s.me (some .s) { cls := 0x13, sub := n.setWidth 32 } pc (wordOf (.ecall n)))

/-- TRAP n: it does not issue. -/
def execTrap (n : BitVec 15) (s : State) : Host.Outcome State Fault Refusal :=
  runOther (.trap n) 0 (M.trap { cls := 0x14, sub := n.setWidth 32 }) s

/-- Whether a descriptor's words are ones that R299 and R300 allow. -/
def Desc.sound (d : Desc) : Bool :=
  Desc.okRing d.w0 && Desc.okFormat d.w1 && Desc.okPlace d.size d.w2 && bits d.w3 63 21 == 0

/-- The checks of TRET on the cut (R399). -/
def Core.cutOk (c : Core) : Bool :=
  (List.range 8).all (fun f => decide (bits c.cut.tkcnt (5 * f + 4) (5 * f) ≤ 16)) && bits c.cut.tkcnt 63 48 == 0 &&
    (List.range 10).all (fun q =>
      let x := vget c.cut.qseq 0 q
      bits x 63 32 == 0 && decide ((bits x 31 16 + 65536 - bits x 15 0) % 65536 ≤ if q < 6 then 8 else 16)) &&
    [0, 3, 4, 5].all (fun i => decide ((vget c.loops {} i).depth.toNat ≤ 6)) &&
    c.cut.pc.toList.all (fun x => x.toNat % 4 == 0) && c.cut.seq.toList.all (fun x => bits x 63 33 == 0) &&
    c.st.toList.all Desc.sound

/-- TRET (R399). PL1 code that it returns to runs under PASID 0 (R350, R351). -/
def tretBody : M Ctl := do
  let c ← M.core
  let cause := vget (if c.pl = 2 then c.tr2 else c.tr1) 0 0
  let ppl := bits cause 43 42
  if c.pl = 2 ∧ ppl = 1 then
    M.mapCore fun c => { c with pl := 1, pasid := 0, pc := vset c.pc 0 (wordAligned c.tepc2) }
    return .set
  else if c.abandon then do
    modify fun s => s.abandonJob s.me
    return .set
  else do
    M.check c.cutOk (Trap.operand 0x72)
    let pl ← if ppl = 3 then do
        let (x, s) := (← get).draw 1
        set s
        pure (x.setWidth 2)
      else pure (BitVec.ofNat 2 ppl)
    M.mapCore fun c => c.resumed pl
    return .set

/-- TRET. -/
def execTret (s : State) : Host.Outcome State Fault Refusal := privileged .tret 1 s (runOther .tret 0 tretBody)

/-! ### TLBINV, TLBSYNC, ICINV and HALT (R360, R361, R404, R405) -/

/-- The other nodes of a partition's node set. -/
def State.others (s : State) (part die : Nat) : List Nat := (s.nodesOf part).filter (· != s.nodeOf die)

/-- A control message to every other node of the acting core's partition; none while a message identifier lacks. -/
def State.tellAll (s : State) (ws : List Dword) : Option (List Nat × State) :=
  let k := s.me
  let part := s.core.part.toNat
  (s.others part (dieOf k)).foldlM (fun (acc : List Nat × State) node =>
    (acc.2.control (dieOf k) (.inval k) node part ws).map fun r => (acc.1 ++ [r.1], r.2)) ([], s)

/-- TLBINV: the translations named are marked on this die, and the other dies of the node set are told. -/
def tlbinvBody (kind : Nat) (a b : Dword) : M Ctl := do
  let c ← M.core
  let s ← get
  match s.tellAll [place ctrlTlbinv 0 ||| place kind 8 ||| place c.vf.toNat 16, a, b] with
  | none => M.hold (.device 12)
  | some (ids, s') =>
    set ((s'.markTlb (dieOf s.me) kind c.part c.vf.toNat a b).mapCore fun c =>
      { c with invals := c.invals ++ ids, synced := false })
    return .next

/-- TLBINV.VA ga, gb. -/
def execTlbinvVa (ga gb : BitVec 5) (s : State) : Host.Outcome State Fault Refusal :=
  privileged (.tlbinvVa ga gb) 1 s (runOther (.tlbinvVa ga gb) 0 (do
    let c ← M.core
    M.check (bits (c.readG ga) 63 56 == 0xFE) (Trap.operand 0x60)
    M.check (bits (c.readG gb) 63 20 == 0) (Trap.operand 0x61)
    tlbinvBody 0 (c.readG ga) (c.readG gb)))

/-- TLBINV.PASID ga, gb: ga is not read. -/
def execTlbinvPasid (ga gb : BitVec 5) (s : State) : Host.Outcome State Fault Refusal :=
  privileged (.tlbinvPasid ga gb) 1 s (runOther (.tlbinvPasid ga gb) 0 (do
    let c ← M.core
    M.check (bits (c.readG gb) 63 20 == 0) (Trap.operand 0x61)
    tlbinvBody 1 0 (c.readG gb)))

/-- TLBINV.IPA ga, gb. -/
def execTlbinvIpa (ga gb : BitVec 5) (s : State) : Host.Outcome State Fault Refusal :=
  privileged (.tlbinvIpa ga gb) 1 s (runOther (.tlbinvIpa ga gb) 0 (do
    let c ← M.core
    M.check (c.pl == 2) Trap.privilege
    M.check (bits (c.readG gb) 63 4 == 0) (Trap.operand 0x61)
    tlbinvBody 2 (c.readG ga) (c.readG gb)))

/-- TLBINV.PART ga, gb: gb is not read. -/
def execTlbinvPart (ga gb : BitVec 5) (s : State) : Host.Outcome State Fault Refusal :=
  privileged (.tlbinvPart ga gb) 1 s (runOther (.tlbinvPart ga gb) 0 (do
    let c ← M.core
    M.check (c.pl == 2) Trap.privilege
    M.check (bits (c.readG ga) 63 4 == 0) (Trap.operand 0x61)
    tlbinvBody 3 (c.readG ga) 0))

/-- TLBSYNC: this stream's stores are performed and its removals acknowledged; then every die has let go of what the
removed translations served. -/
def execTlbsync (s : State) : Host.Outcome State Fault Refusal :=
  privileged .tlbsync 1 s (runOther .tlbsync 0 (do
    let s ← get
    let c := s.core
    M.until (c.performed && c.invals.isEmpty) (.device 22)
    if !c.synced then do
      match s.tellAll [place ctrlTlbsync 0] with
      | none => M.hold (.device 22)
      | some (ids, s') =>
        set (s'.mapCore fun c => { c with invals := ids, synced := true })
        if !ids.isEmpty then M.keep (.device 22)
    let s ← get
    if !s.settledDie (dieOf s.me) then M.keep (.device 22)
    set ((s.dropMarked (dieOf s.me)).mapCore fun c => { c with synced := false })
    return .next))

/-- The line that a fetch of a peer's memory waits for, as its address. -/
def Waiting.line : Waiting → Option Dword
  | .peer pc _ _ | .answered pc _ _ => some pc
  | .none | .sc _ _ _ _ | .page _ _ => Option.none

/-- The caches of the streams that a mask names keep the lines whose addresses a test keeps; a line on its way from a peer
is fetched afresh where the test does not keep it (R405). -/
def Core.dropLines (c : Core) (mask : BitVec 4) (keep : Dword → Bool) : Core :=
  let named (i : Fin 4) : Bool := mask.getLsbD (3 - i.val)
  { c with
    icache := Vector.ofFn fun i =>
      let l := vget c.icache [] i.val
      if named i then l.filter fun x => keep x.va else l
    fwait := Vector.ofFn fun i =>
      let w := vget c.fwait .none i.val
      if named i && w.line.any (!keep ·) then .none else w
    ahead := c.ahead.filter fun a => !(mask.getLsbD (3 - a.st.code) && !keep a.line.va) }

/-- ICINV mask, ga. -/
def execIcinv (ga : BitVec 5) (mask : BitVec 4) (s : State) : Host.Outcome State Fault Refusal :=
  runOther (.icinv ga mask) 0 (do
    let c ← M.core
    M.until c.performed (.device 22)
    M.mapCore fun c => c.dropLines mask (· != lineOf (c.readG ga))
    return .next) s

/-- ICINV.ALL mask. -/
def execIcinvAll (ga : BitVec 5) (mask : BitVec 4) (s : State) : Host.Outcome State Fault Refusal :=
  runOther (.icinvAll ga mask) 0 (do
    let c ← M.core
    M.until c.performed (.device 22)
    M.mapCore fun c => c.dropLines mask fun _ => false
    return .next) s

/-- HALT: once the core has nothing outstanding, it is OFFLINE. -/
def execHalt (s : State) : Host.Outcome State Fault Refusal :=
  privileged .halt 2 s (runOther .halt 0 (do
    let c ← M.core
    M.until c.idle (.device 22)
    M.mapCore fun c => { c with state := .offline }
    return .next))

/-! ### Entry, drain and stall (R92, R393, R398) -/

/-- TRAP_ENTRY (R398): the stop is complete, and the handler starts. -/
def execTrapEntry (core : Nat) (s : State) : Host.Outcome State Fault Refusal :=
  if 1024 ≤ core then .fault .noSuchUnit
  else
    let c := s.coreAt core
    match c.pending with
    | none => .next s
    | some p => .next (if c.stopDone p then s.takeTrap core c p else s.putCore core (c.latch p))

/-- DRAIN_TIMEOUT (R393): 4096 cycles after the fault every stream stops issuing; the cut forms once what has issued is
carried to retirement. -/
def execDrainTimeout (core : Nat) (s : State) : Host.Outcome State Fault Refusal :=
  if 1024 ≤ core then .fault .noSuchUnit
  else
    let c := s.coreAt core
    match c.pending with
    | none => .next s
    | some p =>
      if p.trap.stop ≠ .drain ∨ s.kiln.toNat < p.since.toNat + 4096 then .next s
      else
        let c := { c with stopped := Vector.replicate 4 true }
        .next (if c.stopDone p then s.takeTrap core c p else s.putCore core c)

/-- STALL_FAULT (R92): the stall counter wraps; the record names each stream's hold. -/
def execStallFault (core : Nat) (s : State) : Host.Outcome State Fault Refusal :=
  if 1024 ≤ core then .fault .noSuchUnit
  else
    let c := s.coreAt core
    if c.stalled ∧ c.wrapped then
      let row (st : Stream) : Nat :=
        if vget c.arrived false st.code then (if c.owes st then 2 else 10) else (vget c.hold .none st.code).row
      let detail := place (row .s) 24 ||| place (row .x) 16 ||| place (row .m) 8 ||| place (row .v) 0
      .next ((s.putCore core { c with wrapped := false }).raise core none { cls := 0x11, detail := detail, noWord := true } 0 0)
    else .next s

/-! ### Asynchronous records (R400) -/

/-- ASYNCHRONOUS_RECORD (R400): the head record of a core traps it where the core runs the record's job; a record of
another job goes to the reserved core of the die, whose firmware halts the queue that issued the word. -/
def execAsynchronousRecord (core : Nat) (s : State) : Host.Outcome State Fault Refusal :=
  if 1024 ≤ core then .fault .noSuchUnit
  else
    let c := s.coreAt core
    match c.records with
    | [] => .next s
    | r :: _ =>
      if c.job ≠ 0 ∧ r.job = c.job then
        if (c.state = .running ∨ c.state = .rendezvous) ∧ c.pending.isNone then
          .next (s.raise core none { cls := 0x15, noWord := true } 0 0)
        else .next s
      else if core % 256 = 0 then .next s
      else
        let s := (s.putCore core c.popRecord).async (core / 256 * 256) r
        match s.jobs.find? fun p => p.1 == r.job with
        | some p => .next (s.queueError p.2 0x08)
        | none => .next s

/-! ### The system engine (R406 to R410) -/

/-- The checks that every command of ep4 takes first: reserved bits, PL2, and NW. -/
def Command.sysFault (cmd : Command) (nw : Nat) (reserved : Bool) : Option (BitVec 8) :=
  if !cmd.plain || reserved then some 0x07 else if bits cmd.ctx 1 0 != 2 then some 0x03 else if cmd.nw != nw then some 0x05
  else none

/-- The accesses at peers that ep4 makes for its command are known by this number. -/
def sysErrand : Nat := 36

/-- A command of ep4 with the checks of its first words. -/
def sysEngine (core op nw : Nat) (reserved : Command → Bool) (s : State) (run : Command → State → Taken) :
    Host.Outcome State Fault Refusal :=
  engine core 4 (fun cmd => cmd.op == op) s fun cmd s =>
    match cmd.sysFault nw (reserved cmd) with
    | some status => .ok (s.endNow core 4 cmd status 0)
    | none => (run cmd s).map fun s => s.dropErrands core sysErrand

/-- Word 1 names a core: its high bits are reserved. -/
def Command.coreReserved (cmd : Command) : Bool := bits (cmd.word 1) 63 10 != 0

/-- The core that word 1 names. -/
def Command.target (cmd : Command) : Nat := bits (cmd.word 1) 9 0

/-- STOPCORE: a recovery stop raised on a running core. -/
def runStopcore (core : Nat) (cmd : Command) (s : State) : Taken :=
  let k := cmd.target
  let stop (status : BitVec 8) (s : State) : Taken := .ok (s.endNow core 4 cmd status 0)
  let c := s.coreAt k
  if !s.owns (BitVec.ofNat 4 cmd.part) k then stop 0x08 s
  else if c.state ≠ .running ∧ c.state ≠ .rendezvous then stop 0x05 s
  else if c.pending.isSome then .error s
  else stop 0 (s.raise k none { cls := 0x16, toPl2 := true, noWord := true } 0 0)

/-- STOPCORE (R406): the system engine takes its next command; an OP that R406 does not list ends here. -/
def execStopcore (core : Nat) (s : State) : Host.Outcome State Fault Refusal :=
  engine core 4 (fun cmd => cmd.op < 0x31 || 0x35 < cmd.op) s fun cmd s =>
    if cmd.op ≠ 0x30 then .ok (s.endNow core 4 cmd 0x07 0)
    else match cmd.sysFault 1 cmd.coreReserved with
      | some status => .ok (s.endNow core 4 cmd status 0)
      | none => runStopcore core cmd s

/-- A length rounded up to 64 bytes. -/
def round64 (n : Nat) : Nat := (n + 63) / 64 * 64

/-- The regions of the image, each with its offset after the header and the cut (R410). -/
def imageRegions : List (Nat × Nat) :=
  ((List.range 15).foldl (fun (acc : List (Nat × Nat) × Nat) i =>
    (acc.1 ++ [(i + 1, acc.2)], round64 (acc.2 + regionSize (i + 1)))) ([], 128 + 192)).1

/-- Where the scratchpad stands in the image. -/
def imageScratch : Nat := ((List.range 15).foldl (fun n i => round64 (n + regionSize (i + 1))) (128 + 192))

/-- The registers of the image's second part, in number order: TCAUSE1, TDETAIL1, CTX, the cut record, TREF, MTIM. -/
def Core.imageWords (c : Core) : List Dword :=
  [vget c.tr1 0 0, vget c.tr1 0 1, c.ctx] ++
    ((List.range 4).flatMap fun i => [vget c.cut.pc 0 i, vget c.cut.seq 0 i]) ++ [c.cut.tkcnt] ++ c.cut.qseq.toList ++
    [c.tref, place c.wreq.toNat 1 ||| place (if c.tvalid then 1 else 0) 0]

/-- Bytes padded with zeros to a length. -/
def padTo (n : Nat) (bs : List Byte) : List Byte := bs ++ List.replicate (n - bs.length) 0

/-- The image that SAVECORE writes (R410). The counts of the five result FIFOs stand in bytes 64 to 68 of the header
(assumption log 23). -/
def State.image (s : State) (k : Nat) : List Byte :=
  let c := s.coreAt k
  let header := padTo 128 (leBytes 4 0x4343345A ++ leBytes 4 1 ++ leBytes 4 (dieOf k) ++ leBytes 4 c.spres ++
    (c.index.toList.flatMap fun x => leBytes 8 x.toNat) ++ c.ports.toList.flatMap fun p => leBytes 1 p.results.length)
  let regs := c.imageWords.flatMap fun x => leBytes 8 x.toNat
  let regions := imageRegions.flatMap fun r =>
    padTo (round64 (regionSize r.1)) ((List.range (regionSize r.1 / 8)).flatMap fun i => leBytes 8 (c.regionWord r.1 i).toNat)
  header ++ regs ++ regions ++ s.scratchBytes k 0 c.spres

/-- The pieces of an image at a VA: its low 48 bits are an IPA that stage 2 of the issuing partition maps (R410). -/
def imagePieces (q : Req) (va : Dword) : List (Nat × Nat) → M (List Piece)
  | [] => return []
  | (a, n) :: rest => do
    let ipa := a % 2 ^ 48
    let g ← stage2 q va ipa false 0
    if !q.acc.allowed (g.ent.getLsbD 5) (g.ent.getLsbD 6) (g.ent.getLsbD 7) then M.trap (q.fault 0x07 va 1 2 false g.level 0 ipa)
    let p : Piece := { va := BitVec.ofNat 64 a, place := .hbm g.node, addr := g.dpa, len := n, kind := .rc, l1 := false
                       am := g.ent.getLsbD 11, part := q.part, key := BitVec.ofNat 4 (bits g.ent 51 48), anyOwner := false }
    return p :: (← imagePieces q va rest)

/-- The same for a command of ep4, or the STATUS of what fails. -/
def State.imageRange (s : State) (q : Req) (va : Dword) (n : Nat) : Except (Option (BitVec 8)) (List Piece) × State :=
  match (imagePieces { q with pl := 0 } va (split 65536 va.toNat n)).run.run s with
  | (.ok ps, s) =>
    if ps.all fun p => match p.place with
      | .hbm node => (match s.dieOfNode node with
        | some d => (s.die d).hasBytes p.addr p.len
        | none => decide (p.addr + p.len ≤ 2 ^ 38))
      | _ => false
    then (.ok ps, s) else (.error (some 0x03), s)
  | (.error (.trap t), s) => (.error (some (if t.cls = 0x07 then 0x03 else 0x02)), s)
  | (.error _, s) => (.error none, s)

/-- The pieces of this die among those that an engine accesses, whose budgets it needs itself: a peer's die charges its own. -/
def State.nearPieces (s : State) (core : Nat) (ps : List Piece) : List Piece := ps.filter fun p => !p.peer s (dieOf core)

/-- Nothing is outstanding on any port of a core: ROUT = 0. -/
def Core.portsQuiet (c : Core) : Bool := c.ports.toList.all fun p => p.fifo.isEmpty && p.active.isEmpty

/-- The job of a core noted as taken off it (R400, R406, R409). -/
def State.saveJob (s : State) (k : Nat) (image : Option (List Byte)) : State :=
  let c := s.coreAt k
  { s with saves := s.saves ++ [{ core := k, part := c.part, index := c.index, job := c.job, image := image }] }

/-- SAVECORE: the image written, the core FREE, its job parked. -/
def runSavecore (core : Nat) (cmd : Command) (s : State) : Taken :=
  let k := cmd.target
  let va := cmd.word 2
  let c := s.coreAt k
  let stop (status : BitVec 8) (s : State) : Taken := .ok (s.endNow core 4 cmd status 0)
  if !s.owns (BitVec.ofNat 4 cmd.part) k then stop 0x08 s
  else if bits va 63 56 ≠ 0xFE ∨ bits va 55 48 ≠ 0 ∨ va.toNat % 64 ≠ 0 ∨ !c.fromPl0 then stop 0x05 s
  else if !c.portsQuiet then .error s
  else
    let bs := s.image k
    match s.imageRange (cmd.req core .store) va bs.length with
    | (.error none, s) => .error s
    | (.error (some status), s) => stop status s
    | (.ok ps, s) =>
      match s.allow (holdNo core 12) (s.nearPieces core ps) .write with
      | .error s => .error s
      | .ok s => match s.storeAll sysErrand (cmd.agent core) ps bs with
        | (none, s) => .error s
        | (some 0, s) => stop 0 ((s.saveJob k none).putCore k { (s.saveJob k none).coreAt k with state := .free, job := 0 })
        | (some status, s) => stop status s

/-- SAVECORE (R406, R410). -/
def execSavecore (core : Nat) (s : State) : Host.Outcome State Fault Refusal :=
  sysEngine core 0x31 2 Command.coreReserved s (runSavecore core)

/-- A core with the registers and regions of an image. -/
def Core.load (c : Core) (bs : List Byte) : Core :=
  let w (i : Nat) : Dword := BitVec.ofNat 64 (at8 bs (128 + 8 * i) 8)
  let ctx := w 2
  let c := { c with
    tr1 := vset (vset c.tr1 0 (w 0)) 1 (w 1)
    part := BitVec.ofNat 4 (bits ctx 7 4), vf := BitVec.ofNat 8 (bits ctx 15 8)
    cut := {
      pc := Vector.ofFn fun i => w (3 + 2 * i.val)
      seq := Vector.ofFn fun i => w (4 + 2 * i.val)
      tkcnt := w 11
      qseq := Vector.ofFn fun i => w (12 + i.val) }
    tref := w 22
    wreq := BitVec.ofNat 3 (bits (w 23) 3 1), tvalid := (w 23).getLsbD 0
    index := Vector.ofFn fun i => BitVec.ofNat 64 (at8 bs (16 + 8 * i.val) 8)
    spres := at8 bs 12 4 }
  let c := imageRegions.foldl (fun c r => (List.range (regionSize r.1 / 8)).foldl (fun c i =>
    c.setRegionWord r.1 i (BitVec.ofNat 64 (at8 bs (r.2 + 8 * i) 8))) c) c
  { c with ports := Vector.ofFn fun i => (vget c.ports {} i.val).count (at8 bs (64 + i.val) 1) }

/-- Whether an image can be resumed on a core of a die. -/
def imageOk (bs : List Byte) (die : Nat) : Bool :=
  at8 bs 0 4 == 0x4343345A && at8 bs 4 4 == 1 && at8 bs 8 1 == die && at8 bs 12 4 % 256 == 0 &&
    decide (at8 bs 12 4 ≤ 0x100000) && (List.range 5).all (fun i => decide (at8 bs (64 + i) 1 ≤ 32)) &&
    decide (1 ≤ at8 bs (128 + 8 * 23) 8 / 2) && decide (at8 bs (128 + 8 * 23) 8 / 2 ≤ 4)

/-- The job off its core that an image on a die is of: that of its partition and loop indices (R76, R410). -/
def State.savedJob (s : State) (die : Nat) (c : Core) : Option SavedJob :=
  s.saves.find? fun x => dieOf x.core == die && x.part == c.part && x.index == c.index

/-- A job resumed on a FREE core from its image: a job of the node that its partition runs (R406). It stays the job that it
was, where its core is known, and that core is parked no longer (R400, R409). The bytes of the scratchpad that the image
does not hold are undefined (R86). -/
def State.resumeJob (s : State) (k : Nat) (c : Core) (scratch : List Byte) : State :=
  let job := ((s.savedJob (dieOf k) c).map (·.job)).getD s.nextJob
  let part := c.part.toNat
  let q : Option QueueSlot := (s.part part).running.bind fun r => s.slot r.die r.slot
  let timed := ((s.part part).running.map fun r => lf r.lnr 1 1 / 2 % 2 == 1).getD false
  let pqn := (q.map QueueSlot.pqn).getD 0
  let c := { c with
    state := .trapped, before := .running, job := job, timed := timed
    jobPasid := (q.map QueueSlot.pasid).getD c.pasid, tr1 := vset c.tr1 4 ((s.fn c.vf.toNat).tvec &&& ~~~63#64)
    lastStep := none, blocked := 0, records := (s.coreAt k).records, abandon := false
    seed := some s.free, known := [] }
  let s := { s with nextJob := s.nextJob + 1, jobs := if q.isSome then Tab.set s.jobs job pqn else s.jobs
                    saves := s.saves.filter fun x => x.job != job, free := s.free + 1 }
  (s.putCore k (c.resumed 0)).scratchWrite k 0 scratch none

/-- RESTORECORE: an image loaded onto a FREE core of the die it came from; one that is not consistent changes nothing. -/
def runRestorecore (core : Nat) (cmd : Command) (s : State) : Taken :=
  let k := cmd.target
  let va := cmd.word 2
  let stop (status : BitVec 8) (s : State) : Taken := .ok (s.endNow core 4 cmd status 0)
  if !s.owns (BitVec.ofNat 4 cmd.part) k then stop 0x08 s
  else if bits va 63 56 ≠ 0xFE ∨ bits va 55 48 ≠ 0 ∨ va.toNat % 64 ≠ 0 ∨ (s.coreAt k).state ≠ .free ∨ (s.coreAt k).retired then
    stop 0x05 s
  else match s.imageRange (cmd.req core .load) va imageScratch with
    | (.error none, s) => .error s
    | (.error (some status), s) => stop status s
    | (.ok ps, s) =>
      match s.allow (holdNo core 12) (s.nearPieces core ps) .read with
      | .error s => .error s
      | .ok s => match s.fetchAll sysErrand (cmd.agent core) ps with
        | (.error none, s) => .error s
        | (.error (some status), s) => stop status s
        | (.ok bs, s) =>
          if !imageOk bs (dieOf k) then stop 0x05 s
          else match s.imageRange (cmd.req core .load) (va + BitVec.ofNat 64 imageScratch) (at8 bs 12 4) with
            | (.error none, s) => .error s
            | (.error (some status), s) => stop status s
            | (.ok ps, s) =>
              match s.allow (holdNo core 12) (s.nearPieces core ps) .read with
              | .error s => .error s
              | .ok s => match s.fetchAll sysErrand (cmd.agent core) ps with
                | (.error none, s) => .error s
                | (.error (some status), s) => stop status s
                | (.ok scratch, s) =>
                  let c := (s.coreAt k).load bs
                  if !c.cutOk ∨ c.part.toNat ≠ cmd.part then stop 0x05 s else stop 0 (s.resumeJob k c scratch)

/-- RESTORECORE (R406, R410). -/
def execRestorecore (core : Nat) (s : State) : Host.Outcome State Fault Refusal :=
  sysEngine core 0x32 2 Command.coreReserved s (runRestorecore core)

/-- CORESTART: an OFFLINE core that is not retired starts S at PL2. -/
def runCorestart (core : Nat) (cmd : Command) (s : State) : Taken :=
  let k := cmd.target
  let stop (status : BitVec 8) (s : State) : Taken := .ok (s.endNow core 4 cmd status 0)
  let c := s.coreAt k
  if !s.owns (BitVec.ofNat 4 cmd.part) k then stop 0x08 s
  else if c.state ≠ .offline ∨ c.retired then stop 0x05 s
  else stop 0 (s.putCore k { c with
    state := .running, pl := 2, part := BitVec.ofNat 4 cmd.part, pc := vset c.pc 0 (wordAligned (cmd.word 2)), pending := none
    waiting := .none, xwait := .none, hold := Vector.replicate 4 .none, arrived := Vector.replicate 4 false })

/-- CORESTART (R406). -/
def execCorestart (core : Nat) (s : State) : Host.Outcome State Fault Refusal :=
  sysEngine core 0x33 2 Command.coreReserved s (runCorestart core)

/-- A mapped queue's invocation parks at its next node boundary, at once where it stands at one (R407). -/
def State.parkQueue (s : State) (die slot : Nat) (q : QueueSlot) : State :=
  let part := s.partOfQueue q.pqn
  let s := s.mapSlot die slot fun q => { q with park := true }
  if (s.part part).running.any (fun r => r.die == die && r.slot == slot) ∨ q.parked then s
  else if (s.part part).last = some q.pqn ∧ (s.part part).running.isNone then s.parkSlot part die slot
  else s.mapSlot die slot fun q => { q with parked := true }

/-- PARK: the invocation of a queue parks at its next node boundary. -/
def runPark (core : Nat) (cmd : Command) (s : State) : Taken :=
  let stop (status : BitVec 8) (s : State) : Taken := .ok (s.endNow core 4 cmd status 0)
  match (s.slotOf (bits (cmd.word 1) 13 0)).bind fun p => (s.slot p.1 p.2).map fun q => (p, q) with
  | none => stop 0x05 s
  | some ((d, n), q) => if q.cmd.isNone then stop 0x05 s else stop 0 (s.parkQueue d n q)

/-- Word 1 names a queue: its high bits are reserved. -/
def Command.queueReserved (cmd : Command) : Bool := bits (cmd.word 1) 63 14 != 0

/-- PARK (R406, R407). -/
def execPark (core : Nat) (s : State) : Host.Outcome State Fault Refusal :=
  sysEngine core 0x34 1 Command.queueReserved s (runPark core)

/-- One entry of a record of R408. -/
def entryBytesOf (e : SavedEntry) : List Byte :=
  leBytes 2 e.snode.toNat ++ leBytes 1 e.sinc.toNat ++ leBytes 1 (e.dcore % 256) ++ leBytes 4 e.msgid.toNat ++
    leBytes 8 e.bitmap.toNat ++ leBytes 1 e.count ++ leBytes 7 0 ++ leBytes 8 e.element.toNat

/-- The record of a parked slot (R408). -/
def QueueSlot.record (q : QueueSlot) : List Byte :=
  (q.is.toList.flatMap fun x => leBytes 8 x.toNat) ++ leBytes 4 q.saved.length ++ leBytes 12 0 ++ q.saved.flatMap entryBytesOf

/-- An entry read from a record. The record names a core by its low 8 bits; where the slot still holds the entry it was
written from, its die and its translated range come from there (assumption log 24). -/
def entryOf (bs : List Byte) (home : Nat) (known : List SavedEntry) : SavedEntry :=
  let f (off n : Nat) : Nat := at8 bs off n
  let old := known.find? fun e => e.snode.toNat == f 0 2 && e.sinc.toNat == f 2 1 && e.dcore % 256 == f 3 1 &&
    e.msgid.toNat == f 4 4 && e.element.toNat == f 24 8
  let whole := match old with
    | some e => e.whole
    | none => f 16 1 == 64 || (f 8 8 + 1) % 2 ^ f 16 1 == 0 && f 16 1 != 0
  { snode := BitVec.ofNat 12 (f 0 2), sinc := BitVec.ofNat 4 (f 2 1)
    dcore := match old with
      | some e => e.dcore
      | none => home * 256 + f 3 1
    msgid := BitVec.ofNat 10 (f 4 4), bitmap := BitVec.ofNat 64 (f 8 8), count := f 16 1, whole := whole
    element := BitVec.ofNat 64 (f 24 8), entry := old.bind (·.entry) }

/-- A record given to the slot of its queue: IS, the entries at once to ep3 and the cullet tables, and the queue runnable
with no less than the partition's virtual time (R120, R121, R408). -/
def State.unparkWith (s : State) (part die slot : Nat) (is : Vector Dword 8) (saved : List SavedEntry) : State :=
  let v := (s.part part).v
  (s.mapSlot die slot fun q => { q with
    is := is, saved := saved, park := false, again := true, runnable := q.cmd.isSome
    pass := if q.pass.toInt < v.toInt then v else q.pass }).unparkSlot part die slot

/-- UNPARK: a record restored, and the queue runnable. -/
def runUnpark (core : Nat) (cmd : Command) (s : State) : Taken :=
  let pqn := bits (cmd.word 1) 13 0
  let va := cmd.word 2
  let stop (status : BitVec 8) (s : State) : Taken := .ok (s.endNow core 4 cmd status 0)
  match (s.slotOf pqn).bind fun p => (s.slot p.1 p.2).map fun q => (p, q) with
  | none => stop 0x05 s
  | some ((d, n), q) =>
    if q.cmd.isNone ∨ !q.parked ∨ va.toNat % 64 ≠ 0 ∨ !deviceRange va 0x50 then stop 0x05 s
    else match s.enginePieces (cmd.req core .load) va 0x50 with
      | (.error none, s) => .error s
      | (.error (some status), s) => stop status s
      | (.ok ps, s) =>
        match s.fetchAll sysErrand (cmd.agent core) ps with
        | (.error none, s) => .error s
        | (.error (some status), s) => stop status s
        | (.ok bs, s) =>
          let count := at8 bs 0x40 4
          if at8 bs 0 8 ≠ pqn ∨ 65536 < count ∨ !deviceRange (va + 0x50) (32 * max count 1) then stop 0x05 s
          else match s.enginePieces (cmd.req core .load) (va + 0x50) (32 * count) with
            | (.error none, s) => .error s
            | (.error (some status), s) => stop status s
            | (.ok ps, s) =>
              match s.fetchAll sysErrand (cmd.agent core) ps with
              | (.error none, s) => .error s
              | (.error (some status), s) => stop status s
              | (.ok more, s) =>
                let part := s.partOfQueue pqn
                let home := (s.homeDie part).getD 0
                let saved := (List.range count).map fun i => entryOf ((more.drop (32 * i)).take 32) home q.saved
                stop 0 (s.unparkWith part d n (Vector.ofFn fun i => BitVec.ofNat 64 (at8 bs (8 * i.val) 8)) saved)

/-- UNPARK (R406, R408). -/
def execUnpark (core : Nat) (s : State) : Host.Outcome State Fault Refusal :=
  sysEngine core 0x35 2 Command.queueReserved s (runUnpark core)

end Sys2Proof.Machine
end

