-- ==== Sys2Proof/Machine/Keys.lean ====
section
/-! DEFINITION. The key commands that KEYCMD starts on a die, and attestation (R368, R377 to R380, R387, R390). -/

namespace Sys2Proof.Machine

/-! ### The command that runs (R378) -/

/-- The KEYCMD word that runs on a die, if its OP is `op`. -/
def State.keyCmd (s : State) (die op : Nat) : Option Dword :=
  match (s.die die).keycmd with
  | some x => if bits x 63 60 = op then some x else none
  | none => none

/-- Partition, slot and parameter block of a command. -/
def keyPart (x : Dword) : Nat := bits x 55 52
def keySlotOf (x : Dword) : Nat := bits x 59 56
def keyBlock (x : Dword) : Nat := bits x 47 6 * 64

/-- The key slot of a command. -/
def State.keyOf (s : State) (die : Nat) (x : Dword) : KeySlot := Tab.get {} (s.die die).keys (keyPart x * 16 + keySlotOf x)

/-- A command ends with a value of ERR. -/
def State.endKey (s : State) (die : Nat) (x : Dword) (err : BitVec 8) : State :=
  (s.mapKey die (keyPart x) (keySlotOf x) fun k => { k with err := err, sweep := false }).mapDie die fun d =>
    { d with keycmd := none, keyDone := 0, keyRange := none }

/-- A row of the table that runs the command of a die, where one with its OP runs. -/
def keyRow (die op : Nat) (s : State) (run : Dword → State) : Host.Outcome State Fault Refusal :=
  if 4 ≤ die then .fault .noSuchUnit
  else match s.keyCmd die op with
    | none => .next s
    | some x => .next (run x)

/-- The 128 bytes of a parameter block, read at its DPA without sealing; none where the address names no memory or an
error in it is not corrected. -/
def State.paramBlock (s : State) (die dpa : Nat) : Option (List Byte) :=
  (split 64 dpa 128).foldlM (fun bs c =>
    match (s.die die).placeOf c.1 with
    | none => none
    | some (chan, b) =>
      let k := Key.hbm die chan b
      if [0, 1].any fun g => granuleBad (Tab.get [] s.ecc (k / 32 + g)) then none
      else some (bs ++ Memory.readN s.mem k c.2)) []

/-- The parameter block written the same way. -/
def State.writeParams (s : State) (die dpa : Nat) (bs : List Byte) : State :=
  (split 64 dpa 128).foldl (fun s c =>
    match (s.die die).placeOf c.1 with
    | none => s
    | some (chan, b) => s.writeBytes (Key.hbm die chan b) ((bs.drop (c.1 - dpa)).take c.2) none) s

/-! ### Installing a key (R379) -/

/-- The non-current generation holds a key, or one waits there for the tick boundary. -/
def KeySlot.oldv (k : KeySlot) : Bool := vget k.full false (genIx (!k.cur)) || k.pending.isSome

/-- A key installed into the non-current generation: at the next tick boundary it becomes current. -/
def State.installKey (s : State) (die : Nat) (x : Dword) (value : BitVec 256) (fresh : Bool) : State :=
  (s.mapKey die (keyPart x) (keySlotOf x) fun k => { k with pending := some (value, fresh) }).endKey die x 0

/-- GEN (R378): a fresh key from the random generator. -/
def execKeyGen (die : Nat) (s : State) : Host.Outcome State Fault Refusal :=
  keyRow die 1 s fun x =>
    if (s.keyOf die x).oldv then s.endKey die x 2
    else
      let (v, s) := s.draw 256
      s.installKey die x v true

/-- The info string of DERIVE: "Z4-SEAL", PART, SLOT and DEPOCH. -/
def deriveInfo (x : Dword) (depoch : List Byte) : List Byte :=
  infoOf "Z4-SEAL" ++ leBytes 1 (keyPart x) ++ leBytes 1 (keySlotOf x) ++ depoch

/-- DERIVE (R378): a key derived from the seal root of the die. -/
def execKeyDerive (die : Nat) (s : State) : Host.Outcome State Fault Refusal :=
  keyRow die 2 s fun x =>
    if (s.keyOf die x).oldv then s.endKey die x 2
    else match s.paramBlock die (keyBlock x) with
      | none => s.endKey die x 3
      | some bs => s.installKey die x (deriveKey die (bs.take 32) (deriveInfo x ((bs.drop 32).take 4))) false

/-- IMPORT (R378): a key that another die has wrapped for this one. -/
def execKeyImport (die : Nat) (s : State) : Host.Outcome State Fault Refusal :=
  keyRow die 3 s fun x =>
    if (s.keyOf die x).oldv then s.endKey die x 2
    else match s.paramBlock die (keyBlock x) with
      | none => s.endKey die x 3
      | some bs =>
        match unwrapKey die (bs.take 64) ((bs.drop 64).take 40) with
        | none => s.endKey die x 5
        | some v => s.installKey die x v false

/-- EXPORT (R378): the current key wrapped for a target die. -/
def execKeyExport (die : Nat) (s : State) : Host.Outcome State Fault Refusal :=
  keyRow die 4 s fun x =>
    let k := s.keyOf die x
    match s.paramBlock die (keyBlock x) with
    | none => s.endKey die x 3
    | some bs =>
      if !vget k.full false (genIx k.cur) then s.endKey die x 4
      else
        let (e, s) := s.draw 256
        let out := wrapKey (bs.take 64) (vget k.val 0 (genIx k.cur)) e
        (s.writeParams die (keyBlock x) (padTo 128 out)).endKey die x 0

/-- RETIRE (R378): the non-current generation is emptied. -/
def execKeyRetire (die : Nat) (s : State) : Host.Outcome State Fault Refusal :=
  keyRow die 6 s fun x =>
    (s.mapKey die (keyPart x) (keySlotOf x) fun k =>
      { k with full := vset k.full (genIx (!k.cur)) false, pending := none }).endKey die x 0

/-! ### Commands over ranges of tiles (R378, R380) -/

/-- A range of tiles lies in one region of a die's domain (R255, R256). -/
def Die.hasTiles (d : Die) (dpa n : Nat) : Bool :=
  decide (dpa % 2048 = 0) && (n == 0 ||
    (let last := dpa + 2048 * (n - 1)
     (d.placeOf dpa).isSome && (d.placeOf last).isSome &&
       (if isIL dpa then isIL last else decide (dpa / 2 ^ 31 = last / 2 ^ 31))))

/-- The range that a command works on: read from its parameter block when it starts. -/
def State.keyRangeOf (s : State) (die : Nat) (x : Dword) : Option (Nat × Nat) :=
  match (s.die die).keyRange with
  | some r => some r
  | none => (s.paramBlock die (keyBlock x)).map fun bs => (at8 bs 0 8, at8 bs 8 8)

/-- A command over a range takes its next tile, in the background: one for each of its events; it ends after the last. A
tile that a budget holds leaves the state in which it waits. -/
def tileRow (die op : Nat) (s : State) (tile : State → Dword → Nat → Nat → Except State State) :
    Host.Outcome State Fault Refusal :=
  keyRow die op s fun x =>
    match s.keyRangeOf die x with
    | none => s.endKey die x 3
    | some (first, n) =>
      let s := s.mapDie die fun d => { d with keyRange := some (first, n) }
      let done := (s.die die).keyDone
      if !(s.die die).hasTiles first n then s.endKey die x 3
      else if n ≤ done then s.endKey die x 0
      else match (s.die die).placeOf (first + 2048 * done) with
        | none => s.endKey die x 3
        | some (chan, b) =>
          match tile s x chan (b / 2048) with
          | .error s => s
          | .ok s =>
            if n ≤ done + 1 then s.endKey die x 0 else s.mapDie die fun d => { d with keyDone := done + 1 }

/-- The version that L2 holds of a tile, after a seal below it. -/
def State.noteVersion (s : State) (die chan row : Nat) : State :=
  if Tab.has s.l2 (tileKey die chan row) then
    s.setBlock die chan row { s.block die chan row with
      version := (s.tiles.find? fun p => p.1 == tileKey die chan row).map (·.2.version) }
  else s

/-- One tile of a SWEEP: verified and sealed under the current generation, once the partition's budget admits both. -/
def State.sweepTile (s : State) (die : Nat) (x : Dword) (chan row : Nat) : Except State State :=
  let part := BitVec.ofNat 4 (keyPart x)
  let key := BitVec.ofNat 4 (keySlotOf x)
  match s.tiles.find? fun p => p.1 == tileKey die chan row with
  | none => .ok s
  | some (_, t) =>
    if t.part ≠ part ∨ t.key ≠ key ∨ t.gen = (s.keyOf die x).cur then .ok s
    else match s.admitUnits (holdKeys die) [(die, chan / 8, part, 2)] with
      | .error s => .error s
      | .ok s => match (verifyTile die chan row part key false).run.run (s.chargeTile die chan part 2) with
        | (.error e, s) => .ok (s.afterBadRead die chan row e)
        | (.ok _, s) => .ok (((sealTile die chan row part key false).run.run s).2.noteVersion die chan row)

/-- SWEEP (R378). -/
def execKeySweep (die : Nat) (s : State) : Host.Outcome State Fault Refusal :=
  tileRow die 5 s fun s x chan row => s.sweepTile die x chan row

/-- The copies of a tile in L2 and the L1s dropped without a write-back, its errors cleared, its bytes zero, and the
monitors on it triggered (R107). -/
def State.blankTile (s : State) (die chan row : Nat) : State :=
  let k0 := Key.hbm die chan (row * 2048)
  let inside (a : Nat) : Bool := decide (k0 ≤ a) && decide (a < k0 + 2048)
  let w0 := wordKey k0
  { s.clearTile die chan row with
    mem := s.mem.filter fun p => !inside p.1
    l2 := Tab.erase s.l2 (tileKey die chan row)
    cores := (s.wakeAll inside).cores.map fun p => (p.1, { p.2 with l1 := p.2.l1.filter fun e => !inside e.1 })
    ecc := (s.clearTile die chan row).ecc.filter fun p => !(decide (w0 ≤ p.1) && decide (p.1 < w0 + 256)) }

/-- One tile of a ZEROISE: the metadata of R378, VERSION kept; that of a tile nothing has sealed is undefined. -/
def State.zeroiseTile (s : State) (die : Nat) (x : Dword) (chan row : Nat) : State :=
  let (old, s) : Tile × State := match s.tiles.find? fun p => p.1 == tileKey die chan row with
    | some (_, t) => (t, s)
    | none => let (v, s) := s.draw 48; ({ version := v }, s)
  let t := { old with
    part := BitVec.ofNat 4 (keyPart x), key := BitVec.ofNat 4 (keySlotOf x), gen := (s.keyOf die x).cur, zero := true
    poison := false, flags := 0 }
  { s.blankTile die chan row with tiles := Tab.set s.tiles (tileKey die chan row) t }

/-- ZEROISE (R368, R378). -/
def execKeyZeroise (die : Nat) (s : State) : Host.Outcome State Fault Refusal :=
  tileRow die 7 s fun s x chan row => .ok (s.zeroiseTile die x chan row)

/-! ### Attestation (R387 to R390) -/

/-- The hash of the configuration record in force, and the measurement of a die's firmware. -/
def State.configHash (s : State) : BitVec 256 := sha256 s.service.record
def State.measurement (s : State) (die : Nat) : BitVec 256 := sha256 (s.die die).fw

/-- The partition of a function: none for the physical function and for a VF that is not bound. -/
def State.partOfFn (s : State) (fn : Nat) : Option Nat :=
  if fn < physFn ∧ s.bound fn then some (bits (s.fn fn).vfbind 3 0) else none

/-- The registers under the hash at 0x090: PBENCH, PNSET, the VFBIND words of the partition's VFs, its budget registers. -/
def State.attested (s : State) (part : Nat) : List Byte :=
  let vfs := (List.range 192).filter fun n => s.bound n && bits (s.fn n).vfbind 3 0 == part
  ([(s.part part).pbench, (s.part part).pnset] ++ vfs.map (fun n => (s.fn n).vfbind ||| place (n / 96) 14) ++
    [0, 1, 2, 3].map fun d => vget (s.die d).budget 0 part).flatMap fun x => leBytes 8 x.toNat

/-- Bytes 0x000 to 0x12F of a report, and the die that signs it. Where the function has no partition, the spec states no
hash at 0x090 and no EPOCH, and both are free values. -/
def State.reportBody (s : State) (fn : Nat) : Nat × List Byte × State :=
  let part := s.partOfFn fn
  let die := (part.bind s.homeDie).getD 0
  let (hash, s) : BitVec 256 × State := match part with
    | some p => (sha256 (s.attested p), s)
    | none => s.draw 256
  let (epochs, s) : List Byte × State := match part with
    | some p => ((List.range 16).flatMap fun k => leBytes 4 (Tab.get {} (s.die die).keys (p * 16 + k)).epoch.toNat, s)
    | none => let (v, s) := s.draw 512; (leBytes 64 v.toNat, s)
  let record := s.service.record
  let m := s.measurement die
  (die, leBytes 4 0x5441345A ++ leBytes 4 1 ++ ((s.fn fn).nonce.toList.flatMap fun x => leBytes 8 x.toNat) ++
      leBytes 16 (at8 record 8 16) ++ leBytes 32 s.configHash.toNat ++ leBytes 32 m.toNat ++
      leBytes 4 (Config.imageSvn (s.die die).fw).toNat ++ leBytes 4 (at8 record 4 4) ++ leBytes 8 s.kiln.toNat ++
      leBytes 2 (if fn < physFn then fn else 0xFFFF) ++ leBytes 1 (part.getD 0xFF) ++ leBytes 5 0 ++
      leBytes 32 hash.toNat ++ epochs ++ leBytes 64 (aliasKey die m s.configHash).toNat, s)

/-- ATTESTATION_REQUEST (R390): the signed report of 512 bytes, written to host memory without PASID. -/
def execAttestationRequest (fn : Nat) (s : State) : Host.Outcome State Fault Refusal :=
  if physFn < fn then .fault .noSuchUnit
  else if !(s.fn fn).attBusy then .next s
  else
    let (die, body, s) := s.reportBody fn
    let m := s.measurement die
    let (n1, s) := s.draw 256
    let (n2, s) := s.draw 256
    let whole := body ++ leBytes 64 (signAlias die m s.configHash n1 body).toNat ++
      leBytes 64 (signIdentity die n2 (leBytes 64 (aliasKey die m s.configHash).toNat ++ leBytes 32 m.toNat ++
        leBytes 32 s.configHash.toNat)).toNat ++ leBytes 64 (identityKey die).toNat ++ leBytes 16 0
    let a := (s.fn fn).attaddr.toNat
    let ok := s.hostGrants fn none a 512
    let s := if ok then s.hostWrite fn none a whole else s
    .next (s.mapFn fn fun f => { f with attBusy := false, attResult := if ok then 0 else 0x0A })

end Sys2Proof.Machine
end

