-- ==== Sys2Proof/Machine/Links.lean ====
section
/-! DEFINITION. Sealed links: frames and their acknowledgement, failures, training, rekeying, and the loss of a link
(R13, R135, R138, R383 to R386). -/

namespace Sys2Proof.Machine

/-! ### The other end -/

/-- The other end of an in-package link: die and port. -/
def farEnd (die port : Nat) : Option (Nat × Nat) := (neighbour die port).map fun e => (e, opposite port)

/-- The number of a port in the package. -/
def portKey (die port : Nat) : Nat := die * 6 + port

/-- A frame on its way to the other end of a link. -/
def State.carry (s : State) (die port : Nat) (f : Frame) : State :=
  match farEnd die port with
  | some (e, q) => { s with inbox := s.inbox ++ [(portKey e q, f)] }
  | none => { s with outbox := s.outbox ++ [f] }

/-- A frame whose receiver has accepted it, as far as this package can tell: at an in-package link its receiver says so. -/
def State.accepted (s : State) (die port : Nat) (f : Frame) : Bool :=
  match farEnd die port with
  | none => true
  | some (e, q) =>
    let l := s.link e q
    decide (f.key < l.rxKey) || (f.key == l.rxKey && l.rxCtr.any fun c => decide (f.ctr ≤ c))

/-! ### Links that go down (R138, R386) -/

/-- The host event of a link that comes down for retraining or refuses its peer; the spec gives the code alone, and what
bytes 4 to 7 hold is a free value. -/
def State.linkEvent (s : State) : State :=
  let (x, s) := s.draw 32
  s.event physFn 0x0021 0xFFFF x.toNat

/-- One end of a link reports down: the frames it has sent and not seen acknowledged are lost, what it had not verified is
discarded, and flits that it had not sent stand at the router again. -/
def State.endDown (s : State) (die port : Nat) : State :=
  let gone := (s.link die port).unacked.flatMap (·.flits)
  let back := (s.link die port).opened
  let s := s.mapLink die port fun l =>
    { l with up := false, retired := l.retired || l.draining, draining := false, unacked := [], opened := []
             discarding := none, fails := 0, keywait := false }
  let s := s.mapDie die fun d => { d with hops := d.hops.filter fun h => h.1 != port }
  gone.foldl (fun s f => s.lost die f) { s with
    inbox := s.inbox.filter fun p => p.1 != portKey die port
    net := s.net ++ back.map fun f => { f with spot := .received die port } }

/-- A link goes down at both of its ends, and the routers tell their neighbours (R135). -/
def State.linkDown (s : State) (die port : Nat) : State :=
  (match farEnd die port with
  | some (e, q) => (s.endDown die port).endDown e q
  | none => s.endDown die port).reroute s

/-- LINK_DOWN (R138). -/
def execLinkDown (die port : Nat) (s : State) : Host.Outcome State Fault Refusal :=
  if 4 ≤ die ∨ 6 ≤ port then .fault .noSuchUnit
  else if (s.link die port).up then .next (s.linkDown die port) else .next s

/-! ### Frames (R383, R386) -/

/-- The 80 bytes of a flit (R131). -/
def Flit.bytes (f : Flit) : List Byte :=
  leBytes 8 f.header.1.toNat ++ leBytes 8 f.header.2.toNat ++ f.data.toList.flatMap fun w => leBytes 8 w.toNat

/-- The nonce of a frame that a node sends over a port. -/
def frameNonce (node port ctr : Nat) : BitVec 96 := BitVec.ofNat 96 (node * 2 ^ 84 + port * 2 ^ 81 + ctr)

/-- The tag of a frame: AES-256-GCM under the directional key of a port, by its number (R383, R384). -/
def frameTag (node port key ctr : Nat) (fs : List Flit) : BitVec 128 :=
  let k := Config.linkKey node port key
  let nonce := frameNonce node port ctr
  gcmTag k nonce [] (gcmStream k nonce (fs.flatMap Flit.bytes))

/-- The node and port that send to a port: the far end of the cable, where the torus joins opposite directions (R13). -/
def State.sender (s : State) (die port : Nat) : Nat × Nat :=
  match farEnd die port with
  | some (e, q) => (s.nodeOf e, q)
  | none => ((s.link die port).peer.getD 0, opposite port)

/-- Whether the tag of a frame that has come to a port verifies under the receiving key. -/
def State.verifies (s : State) (die port : Nat) (f : Frame) : Bool :=
  let from1 := s.sender die port
  f.tag == frameTag from1.1 from1.2 (s.link die port).rxKey f.ctr f.flits

/-- Flits that the link layer of a port has released to its router, which takes them slot by slot (R134, R138). -/
def State.released (s : State) (die port : Nat) (fs : List Flit) : State :=
  { s with net := s.net ++ fs.map fun f => { f with spot := .received die port } }

/-- A frame that the tag of its end verifies. -/
def State.takeFrame (s : State) (die port : Nat) (f : Frame) : State :=
  let s := s.mapLink die port fun l =>
    { l with discarding := none, rxKey := if f.switch then l.rxKey + 1 else l.rxKey
             rxCtr := if f.switch then none else some f.ctr }
  s.released die port f.flits

/-- A frame whose tag fails: the third in a tick takes the link down. -/
def State.failFrame (s : State) (die port : Nat) (f : Frame) : State :=
  let s := s.mapLink die port fun l => { l with discarding := some f.ctr, fails := l.fails + 1 }
  if 3 ≤ (s.link die port).fails then (s.linkDown die port).linkEvent else s

/-- FRAME (R383, R386): the next frame that has come to a port. One whose tag does not verify fails; one whose CTR is not
above that of the last accepted frame is not accepted. -/
def execFrame (die port : Nat) (s : State) : Host.Outcome State Fault Refusal :=
  if 4 ≤ die ∨ 6 ≤ port then .fault .noSuchUnit
  else match s.inbox.find? fun p => p.1 == portKey die port with
    | none => .next s
    | some (k, f) =>
      let s := { s with inbox := s.inbox.erase (k, f) }
      let l := s.link die port
      if !l.up ∨ (l.discarding.any fun c => c != f.ctr) then .next s
      else if !s.verifies die port f then .next (s.failFrame die port f)
      else if l.rxCtr.any fun c => decide (f.ctr ≤ c) then .next s
      else .next (s.takeFrame die port f)

/-- LINK_ACKNOWLEDGEMENT (R138): the oldest frame not acknowledged is accepted; or a frame has failed, and it and those
sent after it are sent again. -/
def execLinkAcknowledgement (die port : Nat) (ok : Bool) (s : State) : Host.Outcome State Fault Refusal :=
  if 4 ≤ die ∨ 6 ≤ port then .fault .noSuchUnit
  else
    let l := s.link die port
    match l.unacked with
    | [] => .next s
    | f :: rest =>
      if !l.up then .next s
      else if ok then
        if s.accepted die port f then .next (s.mapLink die port fun l => { l with unacked := rest }) else .next s
      else
        let failed : Bool := match farEnd die port with
          | some (e, q) => (s.link e q).discarding.isSome
          | none => true
        if failed then
          let again := l.unacked.filter fun g => (farEnd die port).isNone || !s.accepted die port g
          .next (again.foldl (fun s g => s.carry die port g) s)
        else .next s

/-- The last CTR, which only a SWITCH flit uses (R385). -/
def lastCtr : Nat := 2 ^ 48 - 2

/-- The frame that a port has open closes: at most 16 flits are sealed and sent (R383). A transmitter that comes to the
last CTR without a next key sends nothing more and reports down (R385). -/
def State.transmit (s : State) (die port : Nat) (good : Bool) : State :=
  let l := s.link die port
  let fs := l.opened.take 16
  if !l.up ∨ l.keywait ∨ fs.isEmpty then s
  else
    let f : Frame := { ctr := l.ctr, key := l.key, tag := frameTag (s.nodeOf die) port l.key l.ctr fs, flits := fs }
    let s := s.mapLink die port fun l =>
      { l with ctr := l.ctr + fs.length, unacked := l.unacked ++ [f], opened := l.opened.drop 16 }
    let s := s.carry die port (if good then f else { f with tag := f.tag ^^^ 1 })
    if (s.link die port).ctr = lastCtr then
      ((s.mapLink die port fun l => { l with keywait := true }).reroute s).event physFn 0x0020 0xFFFF (s.nodeOf die + 2 ^ 16 * port)
    else s

/-- REKEY (R385): from CTR 2^47 on a new exchange is made; a SWITCH flit under the old key ends its use. It also ends a
wait for the key. -/
def execRekey (die port : Nat) (s : State) : Host.Outcome State Fault Refusal :=
  if 4 ≤ die ∨ 6 ≤ port then .fault .noSuchUnit
  else
    let l := s.link die port
    if !l.up ∨ l.draining ∨ l.ctr < 2 ^ 47 then .next s
    else
      let f : Frame := { ctr := l.ctr, key := l.key, tag := frameTag (s.nodeOf die) port l.key l.ctr [], switch := true, flits := [] }
      .next (((s.mapLink die port fun l =>
        { l with ctr := 0, key := l.key + 1, keywait := false, unacked := l.unacked ++ [f] }).carry die port f).reroute s)

/-! ### Training (R384) -/

/-- One end of a link that has just been trained. -/
def Link.trained (l : Link) : Link :=
  { l with up := true, ctr := 0, rxCtr := none, key := l.key + 1, rxKey := l.key + 1, unacked := [], fails := 0
           discarding := none, keywait := false }

/-- The link policy of the configuration record in force admits a node (R388). -/
def State.admitsPeer (s : State) (node : Nat) : Bool :=
  let policy := (s.service.record.drop 0x1C0).take 32
  Config.peerCertified node && (policy.all (· == 0) || Config.peerAllowed policy node)

/-- Whether the identity certificate of a die, which the record holds, verifies to the root key (R384, R387). -/
def State.certified (s : State) (die : Nat) : Bool :=
  ecdsaVerify Config.rootKey (BitVec.ofNat 512 (at8 s.service.record (0x98 + 64 * die) 64)) (leBytes 64 (identityKey die).toNat)

/-- The two ends of an in-package link train: each accepts the other, or the port stays down with an event (R384). -/
def State.train (s : State) (die port e q : Nat) : State :=
  if s.certified die && s.certified e then
    ((s.mapLink die port Link.trained).mapLink e q fun r =>
      { r.trained with key := (s.link die port).key + 1, rxKey := (s.link die port).key + 1 }).reroute s
  else s.linkEvent

/-- LINK_TRAINING (R13, R384): the die at the other end of an in-package link, or the peer cabled to an external port, is
accepted or refused; minimal mode trains none (R430). -/
def execLinkTraining (die port : Nat) (s : State) : Host.Outcome State Fault Refusal :=
  if 4 ≤ die ∨ 6 ≤ port then .fault .noSuchUnit
  else
    let l := s.link die port
    if l.up ∨ l.retired ∨ (s.die die).inReset ∨ s.service.minimal then .next s
    else match farEnd die port with
      | some (e, q) =>
        if (s.die e).inReset ∨ (s.link e q).retired then .next s else .next ((s.train die port e q).announceAfter s)
      | none =>
        match l.peer with
        | none => .next s
        | some node =>
          if s.admitsPeer node then .next (((s.mapLink die port Link.trained).reroute s).announceAfter s)
          else .next s.linkEvent

end Sys2Proof.Machine
end

