-- ==== Sys2Proof/Machine/Scalar.lean ====
section
/-! DEFINITION. The scalar words of S: integer arithmetic, selection, immediates, bit fields, and the constants and
addresses of LUI and ADDPC (R169 to R180). -/

namespace Sys2Proof.Machine

/-- The value of a comparison: 1 or 0 (R173). -/
def truth (b : Bool) : Dword := if b then 1 else 0

/-- DIV of R175: truncated toward zero, with its two defined corners. -/
def divide (a b : Dword) : Dword := if b = 0 then BitVec.allOnes 64 else BitVec.ofInt 64 (a.toInt.tdiv b.toInt)

/-- REM of R175: the dividend's sign; a division by zero leaves the dividend. -/
def remainder (a b : Dword) : Dword := if b = 0 then a else BitVec.ofInt 64 (a.toInt.tmod b.toInt)

/-- DIVU of R175. -/
def divideU (a b : Dword) : Dword := if b = 0 then BitVec.allOnes 64 else BitVec.ofNat 64 (a.toNat / b.toNat)

/-- REMU of R175. -/
def remainderU (a b : Dword) : Dword := if b = 0 then a else BitVec.ofNat 64 (a.toNat % b.toNat)

/-- The zero bits above the most significant 1 (R176). -/
def leadingZeros (a : Dword) : Dword := BitVec.ofNat 64 (if a = 0 then 64 else 63 - Nat.log2 a.toNat)

/-- The number of 1 bits (R176). -/
def ones (a : Dword) : Dword := BitVec.ofNat 64 ((List.range 64).countP fun i => a.getLsbD i)

/-- The mask of a bit field of a width (R179). -/
def fieldMask (width : Nat) : Dword := BitVec.ofNat 64 (2 ^ width - 1)

/-- BFX of R179. -/
def extractField (a : Dword) (lsb width : Nat) : Dword := (a >>> lsb) &&& fieldMask width

/-- BFI of R179: `x` inserted into `a`. -/
def insertField (a x : Dword) (lsb width : Nat) : Dword :=
  (a &&& ~~~(fieldMask width <<< lsb)) ||| ((x <<< lsb) &&& (fieldMask width <<< lsb))

/-- The constant of LUI and the offset of ADDPC (R180). -/
def upper (imm : BitVec 20) : Dword := imm.signExtend 64 <<< 12

/-- ADD gd, gs1, gs2 (R173). -/
def execAdd (gd gs1 gs2 : BitVec 5) (s : State) : Host.Outcome State Fault Refusal :=
  runValue gd (fun c => c.readG gs1 + c.readG gs2) s

/-- SUB gd, gs1, gs2 (R173). -/
def execSub (gd gs1 gs2 : BitVec 5) (s : State) : Host.Outcome State Fault Refusal :=
  runValue gd (fun c => c.readG gs1 - c.readG gs2) s

/-- MUL gd, gs1, gs2 (R173). -/
def execMul (gd gs1 gs2 : BitVec 5) (s : State) : Host.Outcome State Fault Refusal :=
  runValue gd (fun c => c.readG gs1 * c.readG gs2) s

/-- MULH gd, gs1, gs2 (R173). -/
def execMulh (gd gs1 gs2 : BitVec 5) (s : State) : Host.Outcome State Fault Refusal :=
  runValue gd (fun c => BitVec.ofInt 64 ((c.readG gs1).toInt * (c.readG gs2).toInt / 2 ^ 64)) s

/-- MULHU gd, gs1, gs2 (R173). -/
def execMulhu (gd gs1 gs2 : BitVec 5) (s : State) : Host.Outcome State Fault Refusal :=
  runValue gd (fun c => BitVec.ofNat 64 ((c.readG gs1).toNat * (c.readG gs2).toNat / 2 ^ 64)) s

/-- MADD gd, gs1, gs2 (R173: the addend is gd). -/
def execMadd (gd gs1 gs2 : BitVec 5) (s : State) : Host.Outcome State Fault Refusal :=
  runValue gd (fun c => c.readG gd + c.readG gs1 * c.readG gs2) s

/-- DIV gd, gs1, gs2 (R175). -/
def execDiv (gd gs1 gs2 : BitVec 5) (s : State) : Host.Outcome State Fault Refusal :=
  runValue gd (fun c => divide (c.readG gs1) (c.readG gs2)) s

/-- DIVU gd, gs1, gs2 (R175). -/
def execDivu (gd gs1 gs2 : BitVec 5) (s : State) : Host.Outcome State Fault Refusal :=
  runValue gd (fun c => divideU (c.readG gs1) (c.readG gs2)) s

/-- REM gd, gs1, gs2 (R175). -/
def execRem (gd gs1 gs2 : BitVec 5) (s : State) : Host.Outcome State Fault Refusal :=
  runValue gd (fun c => remainder (c.readG gs1) (c.readG gs2)) s

/-- REMU gd, gs1, gs2 (R175). -/
def execRemu (gd gs1 gs2 : BitVec 5) (s : State) : Host.Outcome State Fault Refusal :=
  runValue gd (fun c => remainderU (c.readG gs1) (c.readG gs2)) s

/-- AND gd, gs1, gs2 (R173). -/
def execAnd (gd gs1 gs2 : BitVec 5) (s : State) : Host.Outcome State Fault Refusal :=
  runValue gd (fun c => c.readG gs1 &&& c.readG gs2) s

/-- OR gd, gs1, gs2 (R173). -/
def execOr (gd gs1 gs2 : BitVec 5) (s : State) : Host.Outcome State Fault Refusal :=
  runValue gd (fun c => c.readG gs1 ||| c.readG gs2) s

/-- XOR gd, gs1, gs2 (R173). -/
def execXor (gd gs1 gs2 : BitVec 5) (s : State) : Host.Outcome State Fault Refusal :=
  runValue gd (fun c => c.readG gs1 ^^^ c.readG gs2) s

/-- ANDN gd, gs1, gs2 (R173). -/
def execAndn (gd gs1 gs2 : BitVec 5) (s : State) : Host.Outcome State Fault Refusal :=
  runValue gd (fun c => c.readG gs1 &&& ~~~c.readG gs2) s

/-- SHL gd, gs1, gs2 (R173: bits [63:6] of b are ignored). -/
def execShl (gd gs1 gs2 : BitVec 5) (s : State) : Host.Outcome State Fault Refusal :=
  runValue gd (fun c => c.readG gs1 <<< ((c.readG gs2).toNat % 64)) s

/-- SHR gd, gs1, gs2 (R173). -/
def execShr (gd gs1 gs2 : BitVec 5) (s : State) : Host.Outcome State Fault Refusal :=
  runValue gd (fun c => c.readG gs1 >>> ((c.readG gs2).toNat % 64)) s

/-- SAR gd, gs1, gs2 (R173). -/
def execSar (gd gs1 gs2 : BitVec 5) (s : State) : Host.Outcome State Fault Refusal :=
  runValue gd (fun c => (c.readG gs1).sshiftRight ((c.readG gs2).toNat % 64)) s

/-- SLT gd, gs1, gs2 (R173). -/
def execSlt (gd gs1 gs2 : BitVec 5) (s : State) : Host.Outcome State Fault Refusal :=
  runValue gd (fun c => truth ((c.readG gs1).slt (c.readG gs2))) s

/-- SLTU gd, gs1, gs2 (R173). -/
def execSltu (gd gs1 gs2 : BitVec 5) (s : State) : Host.Outcome State Fault Refusal :=
  runValue gd (fun c => truth ((c.readG gs1).ult (c.readG gs2))) s

/-- MIN gd, gs1, gs2 (R173). -/
def execMin (gd gs1 gs2 : BitVec 5) (s : State) : Host.Outcome State Fault Refusal :=
  runValue gd (fun c => if (c.readG gs1).slt (c.readG gs2) then c.readG gs1 else c.readG gs2) s

/-- MAX gd, gs1, gs2 (R173). -/
def execMax (gd gs1 gs2 : BitVec 5) (s : State) : Host.Outcome State Fault Refusal :=
  runValue gd (fun c => if (c.readG gs1).slt (c.readG gs2) then c.readG gs2 else c.readG gs1) s

/-- MINU gd, gs1, gs2 (R173). -/
def execMinu (gd gs1 gs2 : BitVec 5) (s : State) : Host.Outcome State Fault Refusal :=
  runValue gd (fun c => if (c.readG gs1).ult (c.readG gs2) then c.readG gs1 else c.readG gs2) s

/-- MAXU gd, gs1, gs2 (R173). -/
def execMaxu (gd gs1 gs2 : BitVec 5) (s : State) : Host.Outcome State Fault Refusal :=
  runValue gd (fun c => if (c.readG gs1).ult (c.readG gs2) then c.readG gs2 else c.readG gs1) s

/-- CLZ gd, gs1 (R176). -/
def execClz (gd gs1 : BitVec 5) (s : State) : Host.Outcome State Fault Refusal :=
  runValue gd (fun c => leadingZeros (c.readG gs1)) s

/-- POPC gd, gs1 (R176). -/
def execPopc (gd gs1 : BitVec 5) (s : State) : Host.Outcome State Fault Refusal :=
  runValue gd (fun c => ones (c.readG gs1)) s

/-- SEL gd, gc, gs1, gs2 (R177). -/
def execSel (gd gs1 gs2 gc : BitVec 5) (s : State) : Host.Outcome State Fault Refusal :=
  runValue gd (fun c => if c.readG gc = 0 then c.readG gs2 else c.readG gs1) s

/-- ADDI gd, gs1, imm (R178). -/
def execAddi (gd gs1 : BitVec 5) (imm : BitVec 15) (s : State) : Host.Outcome State Fault Refusal :=
  runValue gd (fun c => c.readG gs1 + imm.signExtend 64) s

/-- ANDI gd, gs1, imm (R178). -/
def execAndi (gd gs1 : BitVec 5) (imm : BitVec 15) (s : State) : Host.Outcome State Fault Refusal :=
  runValue gd (fun c => c.readG gs1 &&& imm.setWidth 64) s

/-- ORI gd, gs1, imm (R178). -/
def execOri (gd gs1 : BitVec 5) (imm : BitVec 15) (s : State) : Host.Outcome State Fault Refusal :=
  runValue gd (fun c => c.readG gs1 ||| imm.setWidth 64) s

/-- XORI gd, gs1, imm (R178). -/
def execXori (gd gs1 : BitVec 5) (imm : BitVec 15) (s : State) : Host.Outcome State Fault Refusal :=
  runValue gd (fun c => c.readG gs1 ^^^ imm.setWidth 64) s

/-- SLTI gd, gs1, imm (R178). -/
def execSlti (gd gs1 : BitVec 5) (imm : BitVec 15) (s : State) : Host.Outcome State Fault Refusal :=
  runValue gd (fun c => truth ((c.readG gs1).slt (imm.signExtend 64))) s

/-- SLTIU gd, gs1, imm (R178). -/
def execSltiu (gd gs1 : BitVec 5) (imm : BitVec 15) (s : State) : Host.Outcome State Fault Refusal :=
  runValue gd (fun c => truth ((c.readG gs1).ult (imm.signExtend 64))) s

/-- SHLI gd, gs1, n (R178). -/
def execShli (gd gs1 : BitVec 5) (n : BitVec 6) (s : State) : Host.Outcome State Fault Refusal :=
  runValue gd (fun c => c.readG gs1 <<< n.toNat) s

/-- SHRI gd, gs1, n (R178). -/
def execShri (gd gs1 : BitVec 5) (n : BitVec 6) (s : State) : Host.Outcome State Fault Refusal :=
  runValue gd (fun c => c.readG gs1 >>> n.toNat) s

/-- SARI gd, gs1, n (R178). -/
def execSari (gd gs1 : BitVec 5) (n : BitVec 6) (s : State) : Host.Outcome State Fault Refusal :=
  runValue gd (fun c => (c.readG gs1).sshiftRight n.toNat) s

/-- BFX gd, gs1, lsb, width (R179). -/
def execBfx (gd gs1 : BitVec 5) (lsb : BitVec 6) (width : BitVec 7) (s : State) : Host.Outcome State Fault Refusal :=
  runValue gd (fun c => extractField (c.readG gs1) lsb.toNat width.toNat) s

/-- BFI gd, gs1, lsb, width (R179): gd is its own base. -/
def execBfi (gd gs1 : BitVec 5) (lsb : BitVec 6) (width : BitVec 7) (s : State) : Host.Outcome State Fault Refusal :=
  runValue gd (fun c => insertField (c.readG gd) (c.readG gs1) lsb.toNat width.toNat) s

/-- LUI gd, imm (R180). -/
def execLui (gd : BitVec 5) (imm : BitVec 20) (s : State) : Host.Outcome State Fault Refusal :=
  runValue gd (fun _ => upper imm) s

/-- ADDPC gd, imm (R180): PC is the address of the word itself. -/
def execAddpc (gd : BitVec 5) (imm : BitVec 20) (s : State) : Host.Outcome State Fault Refusal :=
  runValue gd (fun c => c.pcOf .s + upper imm) s

end Sys2Proof.Machine
end

