-- ==== Sys2Proof/Machine/Service.lean ====
section
/-! DEFINITION. The registers that the host writes, the service commands, boot, the image loader, and resets (R7, R349,
R388, R389, R415 to R431). -/

namespace Sys2Proof.Machine

/-! ### Service commands (R420) -/

/-- The OPs of SVCCMD. -/
def serviceOps : List Nat := [0x01, 0x02, 0x03, 0x04, 0x10, 0x20, 0x21, 0x22, 0x23]

def svcOp (x : Dword) : Nat := bits x 63 56
def svcDie (x : Dword) : Nat := bits x 55 54
def svcUnit (x : Dword) : Nat := bits x 53 44

/-- Whether an SVCCMD word has a known OP and fields in range; its reserved bits are ignored (R6). -/
def svcOk (x : Dword) : Bool :=
  serviceOps.contains (svcOp x) &&
    match svcOp x with
    | 0x02 => decide (svcUnit x < 64)
    | 0x03 => decide (svcUnit x < 64)
    | 0x04 => decide (svcUnit x < 6)
    | _ => true

/-- A service command ends with a RESULT, and event 0x0060. -/
def State.endService (s : State) (x : Dword) (result : BitVec 8) : State :=
  { s with service := { s.service with busy := none, result := result, lastOp := BitVec.ofNat 8 (svcOp x), stage := 0, parks := [] } }.event
    physFn 0x0060 0xFFFF (svcOp x + 256 * result.toNat)

/-- SVCCMD written. -/
def State.writeSvccmd (s : State) (x : Dword) : State :=
  if s.service.busy.isSome then { s with service := { s.service with result := 1 } }
  else if !svcOk x then s.endService x 2
  else { s with service := { s.service with busy := some x, stage := 0, progress := 0, parks := [] } }

/-- SVCSTAT and BOOTSTAT (R420, R429). -/
def Service.svcstat (v : Service) : Dword :=
  place (if v.busy.isSome then 1 else 0) 63 ||| place v.result.toNat 48 ||| place v.lastOp.toNat 40 ||| place v.progress.toNat 0
def Service.bootstat (v : Service) : Dword :=
  place v.reason.toNat 24 ||| place v.failed.toNat 16 ||| place v.attempts.toNat 8 ||| place (if v.minimal then 1 else 0) 1 |||
    place (if v.ready then 1 else 0) 0

/-- A row of the table that runs the service command with its OP, where that is the one that runs. -/
def serviceRow (op : Nat) (s : State) (run : Dword → State) : Host.Outcome State Fault Refusal :=
  match s.service.busy with
  | some x => if svcOp x = op then .next (run x) else .next s
  | none => .next s

/-! ### Registers of BAR0 (R7, R349, R420, R430) -/

/-- A register of the service block written; IMGCTL[0] starts the loader, which only minimal mode has, and minimal mode
has nothing else (R430). -/
def State.writeService (s : State) (off : Nat) (x : Dword) : State :=
  let v := s.service
  match off with
  | 0x00 => if v.minimal then s else s.writeSvccmd x
  | 0x08 => if v.minimal then s else { s with service := { v with arg := x } }
  | 0x20 => { s with service := { v with imgAddr := x } }
  | 0x28 => { s with service := { v with imgLen := x } }
  | 0x30 =>
    if v.minimal ∧ x.getLsbD 0 ∧ !v.imgBusy then { s with service := { v with imgBusy := true, imgRecord := x.getLsbD 1 } }
    else s
  | _ => s

/-- A register of a function's BAR0 written: its writable fields change (R7, R349). -/
def Fn.write (f : Fn) (off : Nat) (x : Dword) : Fn :=
  match off with
  | 0x1000 => { f with qdt := x &&& ~~~0xFFF#64 }
  | 0x1008 => { f with s1ctb := x &&& 0x0000FFFFFFFF0001#64 }
  | 0x1010 => { f with tvec := x &&& ~~~63#64 }
  | 0x1100 => { f with evbase := x }
  | 0x1108 => { f with evlog2n := x &&& 31 }
  | 0x1118 => { f with evridx := x }
  | 0x1120 => { f with ovf := f.ovf && !x.getLsbD 63 }
  | 0x1200 => { f with nonce := vset f.nonce 0 x }
  | 0x1208 => { f with nonce := vset f.nonce 1 x }
  | 0x1210 => { f with nonce := vset f.nonce 2 x }
  | 0x1218 => { f with nonce := vset f.nonce 3 x }
  | 0x1220 => { f with attaddr := x }
  | 0x1228 => { f with attBusy := f.attBusy || x.getLsbD 0 }
  | _ => f

/-- A register of a function's BAR0 as the host reads it: what is write-only or reserved reads 0 (R6, R7, R349). -/
def Fn.read (f : Fn) (off : Nat) : Dword :=
  match off with
  | 0x1000 => f.qdt
  | 0x1008 => f.s1ctb
  | 0x1010 => f.tvec
  | 0x1100 => f.evbase
  | 0x1108 => f.evlog2n
  | 0x1110 => f.evwidx
  | 0x1118 => f.evridx
  | 0x1120 => place (if f.ovf then 1 else 0) 63 ||| place f.ovfcnt.toNat 0
  | 0x1200 => vget f.nonce 0 0
  | 0x1208 => vget f.nonce 0 1
  | 0x1210 => vget f.nonce 0 2
  | 0x1218 => vget f.nonce 0 3
  | 0x1220 => f.attaddr
  | 0x1228 => place f.attResult.toNat 8 ||| place (if f.attBusy then 1 else 0) 0
  | _ => 0

/-- A register of the service block as the host reads it (R420, R430). -/
def Service.read (v : Service) (off : Nat) : Dword :=
  match off with
  | 0x08 => v.arg
  | 0x10 => v.svcstat
  | 0x18 => v.bootstat
  | 0x20 => v.imgAddr
  | 0x28 => v.imgLen
  | 0x30 => place v.imgResult.toNat 8
  | _ => 0

/-- A register of BAR0 as the host reads it; reading changes nothing (assumption log 64). -/
def State.barRead (s : State) (fn offset : Nat) : Dword :=
  if offset % 8 ≠ 0 ∨ !s.offered fn then 0
  else if 0x10000 ≤ offset then (if fn = physFn then s.service.read (offset - 0x10000) else 0)
  else if s.service.minimal then 0
  else (s.fn fn).read offset

/-- REGISTER_WRITE (R7, R349): a 64-bit write to an offset of a function's BAR0. Minimal mode offers the image loader only
(R430). -/
def execRegisterWrite (fn offset : Nat) (value : Dword) (s : State) : Host.Outcome State Fault Refusal :=
  if physFn < fn then .fault .noSuchUnit
  else if offset % 8 ≠ 0 ∨ !s.offered fn then .next s
  else if 0x10000 ≤ offset then .next (if fn = physFn then s.writeService (offset - 0x10000) value else s)
  else if s.service.minimal then .next s
  else if offset < 0x200 then .next (if fn = physFn then s else s.notify (fn * 64 + offset / 8) value)
  else .next (s.mapFn fn fun f => f.write offset value)

/-! ### Retiring cores and benches (R422) -/

/-- A core out of service. -/
def State.retireNow (s : State) (k : Nat) : State :=
  s.putCore k { s.coreAt k with state := .offline, retired := true, job := 0 }

/-- The job of an image resumed on a FREE core of its die (R406, R410). -/
def State.moveJob (s : State) (k : Nat) (bs : List Byte) : State :=
  s.resumeJob k { (s.coreAt k).load bs with pl := 0 } ((bs.drop imageScratch).take (at8 bs 12 4))

/-- A job that waits in the image of a retired core resumes on a FREE core of its bench set and die (R422). -/
def State.resumeWaiting (s : State) (n : Nat) : State :=
  match s.saves[n]? with
  | none => s
  | some x =>
    match x.image, (s.freeCores x.part.toNat (dieOf x.core)).head? with
    | some bs, some k => s.moveJob k bs
    | _, _ => s

/-- One step of a core's retirement: it is stopped, its job moved, and it goes OFFLINE. While no core of its bench set is
FREE the job waits in its image. -/
def State.retireCore (s : State) (k : Nat) : State :=
  let c := s.coreAt k
  match c.state with
  | .free => s.retireNow k
  | .offline => s.retireNow k
  | .trapped =>
    if c.pl ≠ 2 ∨ bits (vget c.tr2 0 0) 55 48 ≠ 0x16 ∨ !c.fromPl0 ∨ !c.portsQuiet then s
    else match (s.freeCores c.part.toNat (dieOf k)).find? (· != k) with
      | none => (s.saveJob k (some (s.image k))).retireNow k
      | some k2 => ((s.saveJob k none).moveJob k2 (s.image k)).retireNow k
  | _ =>
    if c.pending.isSome then s else s.raise k none { cls := 0x16, toPl2 := true, noWord := true } 0 0

/-- RETIRE.CORE (R422). -/
def execRetireCore (s : State) : Host.Outcome State Fault Refusal :=
  serviceRow 0x01 s fun x =>
    let k := svcUnit x
    if k % 256 = 0 then s.endService x 4
    else if (s.coreAt k).retired then s.endService x 3
    else
      let s := s.retireCore k
      if (s.coreAt k).retired then s.endService x 0 else s

/-- RETIRE.BENCH (R422): its worker cores, one by one; a reserved core stays. -/
def execRetireBench (s : State) : Host.Outcome State Fault Refusal :=
  serviceRow 0x02 s fun x =>
    let ks := ((List.range 16).map (· + 16 * svcUnit x)).filter fun k => k % 256 != 0
    if s.service.stage = 0 ∧ ks.all fun k => (s.coreAt k).retired then s.endService x 3
    else
      let s := ks.foldl (fun s k => if (s.coreAt k).retired then s else s.retireCore k) s
      if ks.all fun k => (s.coreAt k).retired then s.endService x 0
      else { s with service := { s.service with stage := 1 } }

/-! ### Parking for a service command (R423, R426) -/

/-- The slots that run a command of a partition with a node on one of some dies. -/
def State.invocations (s : State) (dies : List Nat) : List (Nat × Nat × QueueSlot) :=
  [0, 1, 2, 3].flatMap fun d => ((s.die d).slots.filter fun p => p.2.cmd.isSome &&
    dies.any fun e => (s.nodesOf (s.partOfQueue p.2.pqn)).contains (s.nodeOf e)).map fun p => (d, p.1, p.2)

/-- They are asked to park; those this command parks are noted. -/
def State.parkFor (s : State) (dies : List Nat) : State :=
  (s.invocations dies).foldl (fun s x =>
    if x.2.2.park ∨ x.2.2.parked then s
    else { (s.parkQueue x.1 x.2.1 x.2.2) with
      service := { s.service with parks := s.service.parks ++ [(x.1, x.2.1)] } }) s

/-- All of them are parked. -/
def State.allParked (s : State) (dies : List Nat) : Bool := (s.invocations dies).all fun x => x.2.2.parked

/-- The invocations that the command parked go on. -/
def State.unparkAll (s : State) : State :=
  s.service.parks.foldl (fun s p => s.mapSlot p.1 p.2 fun q =>
    let v := (s.part (s.partOfQueue q.pqn)).v
    { q with park := false, runnable := q.cmd.isSome, pass := if q.pass.toInt < v.toInt then v else q.pass }) s

/-- Every block of the L2 of a die evicted (R261). -/
def State.evictAll (s : State) (die : Nat) : State :=
  (s.l2.filter fun p => p.1 / 2 ^ 26 == die).foldl (fun s p => s.evict die (p.1 / 2 ^ 20 % 64) (p.1 % 2 ^ 20)) s

/-! ### Retiring a channel (R423) -/

/-- Where a row of a channel stands once a channel has left the live list; none where it is lost. -/
def movedRow (old new : List Nat) (ilrows chan row : Nat) : Option (Nat × Nat) :=
  if ilrows ≤ row then (if new.contains chan then some (chan, row) else none)
  else
    let t := row * old.length + (old.findIdx? (· == chan)).getD 0
    if new.length * ilrows ≤ t then none else some (new.getD (t % new.length) 0, t / new.length)

/-- The die, the channel and the row of the tile that an error of HBM lies in, its metadata's too; none for an error of a
scratchpad or of a copy in L2. -/
def tileOfError (k : Nat) : Option (Nat × Nat × Nat) :=
  if k < Key.hbm 4 0 0 / 32 then
    if Key.hbm 0 0 0 / 32 ≤ k then some ((k * 32 - Key.hbm 0 0 0) / 2 ^ 37, k * 32 / 2 ^ 31 % 64, k * 32 % 2 ^ 31 / 2048) else none
  else if metaKey 0 0 0 ≤ k then some ((k - metaKey 0 0 0) / 2 ^ 26, (k - metaKey 0 0 0) / 2 ^ 20 % 64, (k - metaKey 0 0 0) % 2 ^ 20)
  else none

/-- An error of a tile as it stands once the tile has moved: errors that are corrected stay behind, and so do those of the
failing channel, whose tile arrives poisoned; others go with their tile. None for an error that is gone. -/
def movedError (die chan : Nat) (go : Nat → Nat → Option (Nat × Nat)) (p : Nat × List Nat) : Option (Nat × List Nat) :=
  match tileOfError p.1 with
  | some (e, c, r) =>
    if e ≠ die then some p
    else match go c r with
      | none => none
      | some (c', r') =>
        if (c', r') = (c, r) then some p
        else if c = chan ∨ !granuleBad p.2 then none
        else if metaKey 0 0 0 ≤ p.1 then some (metaKey die c' r', p.2)
        else some (Key.hbm die c' (r' * 2048) / 32 + (p.1 - Key.hbm die c (r * 2048) / 32), p.2)
  | none => some p

/-- The tiles of a die at their new placements: bytes and metadata unchanged; a tile of the failing channel that cannot be
read arrives poisoned (R423). -/
def State.moveTiles (s : State) (die chan : Nat) : State :=
  let d := s.die die
  let old := d.liveList
  let new := old.filter (· != chan)
  let go (c r : Nat) : Option (Nat × Nat) := movedRow old new d.ilrows.toNat c r
  let lo := Key.hbm die 0 0
  let hi := Key.hbm (die + 1) 0 0
  let inside (k : Nat) : Bool := decide (lo ≤ k) && decide (k < hi)
  let kept := s.mem.filter fun p => !inside p.1
  let mem := (s.mem.filter fun p => inside p.1).foldl (fun m p =>
    match go (p.1 / 2 ^ 31 % 64) (p.1 % 2 ^ 31 / 2048) with
    | some (c, r) => Memory.write m (Key.hbm die c (r * 2048 + p.1 % 2048)) p.2
    | none => m) kept
  let bad := s.ecc.filterMap fun p =>
    if granuleBad p.2 then (tileOfError p.1).filter fun x => x.1 == die && x.2.1 == chan && decide (x.2.2 < d.ilrows.toNat) else none
  let ecc := (s.ecc.filterMap (movedError die chan go)).foldl (fun t p => Tab.set t p.1 p.2) []
  let s := bad.foldl (fun s x => s.poisonTile die x.2.1 x.2.2) s
  let tiles := (s.tiles.filter fun p => p.1 / 2 ^ 26 == die).foldl (fun t p =>
    match go (p.1 / 2 ^ 20 % 64) (p.1 % 2 ^ 20) with
    | some (c, r) => Tab.set t (tileKey die c r) p.2
    | none => t) (s.tiles.filter fun p => p.1 / 2 ^ 26 != die)
  { s with
    mem := mem, tiles := tiles, ecc := ecc
    cores := s.cores.map fun p => (p.1, match p.2.monitor with
      | .armed _ k => if inside k then { p.2 with monitor := p.2.monitor.trigger } else p.2
      | _ => p.2) }

/-- RETIRE.CHAN (R423). -/
def execRetireChan (s : State) : Host.Outcome State Fault Refusal :=
  serviceRow 0x03 s fun x =>
    let die := svcDie x
    let chan := svcUnit x
    let d := s.die die
    if !d.live.getLsbD chan then s.endService x 3
    else if d.liveList.length ≤ 1 then s.endService x 4
    else
      let s := s.parkFor [die]
      if !s.allParked [die] then s
      else
        let s := ((s.evictAll die).moveTiles die chan).mapDie die fun d => { d with live := d.live &&& ~~~(1#64 <<< chan) }
        let moved := (d.liveList.length - 1) * d.ilrows.toNat
        let s := { s with service := { s.service with progress := BitVec.ofNat 40 moved } }
        s.unparkAll.endService x 0

/-! ### Retiring a link (R424) -/

/-- A link's both ends changed. -/
def State.mapEnds (s : State) (die port : Nat) (f : Link → Link) : State :=
  match farEnd die port with
  | some (e, q) => (s.mapLink die port f).mapLink e q f
  | none => s.mapLink die port f

/-- Whether a link's loss would cut a die off from a node set it belongs to. -/
def State.linkNeeded (s : State) (die port : Nat) : Bool :=
  let t := s.mapEnds die port fun l => { l with up := false }
  (List.range 16).any fun p => (s.part p).pnset.getLsbD 0 && (s.diesOf p).any fun d =>
    (s.nodesOf p).any fun n => s.joined d n && !t.joined d n

/-- An end of a link has sent what it holds and seen every frame acknowledged. -/
def Link.quiet (l : Link) : Bool := l.unacked.isEmpty && l.opened.isEmpty

/-- Both ends have; of a peer outside the package, every frame that it has sent is taken (R424). -/
def State.drained (s : State) (die port : Nat) : Bool :=
  (s.link die port).quiet && match farEnd die port with
    | some (e, q) => (s.link e q).quiet
    | none => (s.link die port).discarding.isNone && !s.inbox.any fun p => p.1 == portKey die port

/-- RETIRE.LINK (R424). -/
def execRetireLink (s : State) : Host.Outcome State Fault Refusal :=
  serviceRow 0x04 s fun x =>
    let die := svcDie x
    let port := svcUnit x
    let l := s.link die port
    if s.service.stage = 0 then
      if l.retired then s.endService x 3
      else if s.linkNeeded die port then s.endService x 4
      else if !l.up then (s.mapEnds die port fun l => { l with retired := true }).endService x 0
      else
        let s := s.mapEnds die port fun l => { l with draining := true }
        { s with service := { s.service with stage := 1 } }
    else if l.retired then s.endService x 0
    else if s.drained die port then (s.linkDown die port).endService x 0
    else s

/-! ### Records and images (R388, R389) -/

/-- A configuration record whose form and signature verify. -/
def recordOk (bs : List Byte) : Bool := bs.length == 0x220 && at8 bs 0 4 == 0x4643345A &&
  ecdsaVerify Config.recordKey (BitVec.ofNat 512 (at8 bs 0x1E0 64)) (bs.take 0x1E0)

/-- The first die whose identity key does not match its hash in a record. -/
def recordStranger (bs : List Byte) : Option Nat :=
  (List.range 4).find? fun d =>
    (bs.drop (0x18 + 32 * d)).take 32 != leBytes 32 (sha256 (leBytes 64 (identityKey d).toNat)).toNat

/-- The record sequence number, and the least SVN. -/
def recordSeq (bs : List Byte) : Nat := at8 bs 4 4
def recordSvn (bs : List Byte) : Nat := at8 bs 0x198 4

/-- A firmware image that a record lets run. -/
def imageOkFor (record image : List Byte) : Bool :=
  Config.imageSigned record image && decide (recordSvn record ≤ (Config.imageSvn image).toNat)

/-! ### Live firmware update (R425) -/

/-- The image that FWUPDATE names, where the host grants all of it. -/
def State.updateImage (s : State) : Option (List Byte) :=
  match s.hostRead physFn none s.service.arg.toNat 64 with
  | none => none
  | some head => s.hostRead physFn none s.service.arg.toNat (Config.imageLength head)

/-- FWUPDATE (R425): the dies hand off in order, each at a kiln tick boundary; then the image goes to board flash. -/
def execFwupdate (s : State) : Host.Outcome State Fault Refusal :=
  serviceRow 0x10 s fun x =>
    if s.kiln.toNat % 4096 ≠ 0 then s
    else
      let s := s.keepRange physFn none s.service.arg.toNat 64 false
      match s.updateImage with
      | none => s.endService x (if s.service.stage = 0 then 6 else 7)
      | some image =>
        let s := s.keepRange physFn none s.service.arg.toNat (Config.imageLength image) false
        let d := s.service.stage
        if !imageOkFor s.service.record image ∨ (Config.imageSvn image).toNat < (Config.imageSvn (s.die d).fw).toNat then
          s.endService x 7
        else
          let s := s.mapDie d fun y => { y with fw := image }
          if d < 3 then { s with service := { s.service with stage := d + 1 } }
          else { s with flash := { s.flash with image := image } }.endService x 0

/-! ### Checkpoint and restore (R426, R428) -/

/-- Cells of HBM. -/
def inHbm (k : Nat) : Bool := decide (k < 2 ^ 50)

/-- The record of every parked invocation. -/
def State.parkedRecords (s : State) : List (Nat × Vector Dword 8 × List SavedEntry) :=
  s.dies.toList.flatMap fun d => (d.slots.filter fun p => p.2.parked).map fun p => (p.2.pqn, p.2.is, p.2.saved)

/-- A tier that a checkpoint can use: a node outside the package that every die reaches, or CXL memory that the record
admits and the host grants. -/
def State.tierReached (s : State) (cxl : Bool) : Bool :=
  if cxl then at8 s.service.record 0x19C 1 % 2 == 1 && s.hostGrants physFn none s.service.arg.toNat 1
  else
    let node := bits s.service.arg 11 0
    (s.dieOfNode node).isNone && [0, 1, 2, 3].all fun d => s.reachable d node

/-- Where a checkpoint lies. -/
def State.tierPlace (s : State) (cxl : Bool) : Dword := if cxl then s.service.arg else place (bits s.service.arg 11 0) 0

/-- Tiles of every live channel of the package (R427). -/
def State.tileCount (s : State) : Nat := s.dies.toList.foldl (fun n d => n + d.liveList.length * chrows) 0

/-- The metadata that a checkpoint copies: a tile whose ciphertext or metadata holds an error that is not corrected is
copied as it stands, and its tag fails when it comes back (R382). -/
def State.copiedTiles (s : State) : Tab Tile :=
  s.tiles.map fun p =>
    if s.tileEcc (p.1 / 2 ^ 26) (p.1 / 2 ^ 20 % 64) (p.1 % 2 ^ 20) then (p.1, { p.2 with intact := false }) else p

/-- A tile as a checkpoint streams it: 2048 bytes of ciphertext and 24 of metadata (R368, R371, R382). Of a tile that
holds none, or whose ciphertext has been altered, the bytes are free values. -/
def State.tileStream (s : State) (die chan row : Nat) (t : Tile) : List Byte × State :=
  if t.zero ∨ !t.intact then
    let (x, s) := s.draw (8 * 2072)
    (leBytes 2072 x.toNat, s)
  else
    let cipher := gcmStream t.keyVal t.nonce (Memory.readN s.mem (Key.hbm die chan (row * 2048)) 2048)
    let flags := t.part.toNat * 2 ^ 12 + t.key.toNat * 2 ^ 8 + t.flags.toNat * 8 + genIx t.gen * 2 + (if t.poison then 1 else 0)
    (cipher ++ leBytes 16 (gcmTag t.keyVal t.nonce (leBytes 8 t.aad.toNat) cipher).toNat ++ leBytes 6 t.version.toNat ++
      leBytes 2 flags, s)

/-- Where a tile stands in the stream: the tiles of the live channels by die, channel and row (DESIGN CHOICE, assumption
log 65). -/
def State.streamAt (s : State) (die chan row : Nat) : Nat :=
  let before := (List.range die).foldl (fun n d => n + (s.die d).liveList.length * chrows) 0
  2072 * (before + (s.die die).liveList.findIdx (· == chan) * chrows + row)

/-- The bytes of 64-bit words. -/
def wordBytes (ws : List Dword) : List Byte := ws.flatMap fun w => leBytes 8 w.toNat

/-- The stream of CKPT.CXL written to CXL memory from ARG on: every tile that has metadata, then DOMCFG, DOMLIVE and the
node number of each die, and the parked records (R426; the places are the model's own, assumption log 65). -/
def State.streamOut (s : State) (tiles : Tab Tile) : List (Nat × List Byte) × State :=
  let arg := s.service.arg.toNat
  let tail := ([0, 1, 2, 3].flatMap fun d => wordBytes [(s.die d).ilrows.setWidth 64, (s.die d).live, place (s.nodeOf d) 0]) ++
    s.dies.toList.flatMap fun d => (d.slots.filter fun p => p.2.parked).flatMap fun p => p.2.record
  let body := tiles.foldl (fun (acc : List (Nat × List Byte) × State) p =>
    let die := p.1 / 2 ^ 26
    let chan := p.1 / 2 ^ 20 % 64
    let row := p.1 % 2 ^ 20
    if (s.die die).live.getLsbD chan then
      let (bs, s') := acc.2.tileStream die chan row p.2
      (acc.1 ++ [(arg + s.streamAt die chan row, bs)], s')
    else acc) ([], s)
  let all := body.1 ++ [(arg + 2072 * s.tileCount, tail)]
  (all, all.foldl (fun s x => s.hostWrite physFn none x.1 x.2) body.2)

/-- CKPT: every invocation parked, every block written back, every tile copied, and the invocations unparked. -/
def State.checkpoint (s : State) (x : Dword) (cxl : Bool) : State :=
  if !s.tierReached cxl then s.endService x 6
  else
    let all := [0, 1, 2, 3]
    let s := s.parkFor all
    if !s.allParked all then s
    else
      let s := all.foldl (fun s d => s.evictAll d) s
      let c : Checkpoint := {
        cxl := cxl, place := s.tierPlace cxl, mem := s.mem.filter fun p => inHbm p.1, tiles := s.copiedTiles
        ilrows := s.dies.map (·.ilrows), live := s.dies.map (·.live), parked := s.parkedRecords
        nodes := Vector.ofFn fun d => s.nodeOf d.val }
      let (out, s) := if cxl then s.streamOut c.tiles else ([], s)
      let c := { c with stream := out }
      let s := { s with
        checkpoints := c :: s.checkpoints.filter fun y => y.cxl != cxl || y.place != c.place
        service := { s.service with progress := BitVec.ofNat 40 s.tileCount } }
      s.unparkAll.endService x 0

/-- CKPT.BUDDY (R426). -/
def execCkptBuddy (s : State) : Host.Outcome State Fault Refusal := serviceRow 0x20 s fun x => s.checkpoint x false

/-- CKPT.CXL (R426). -/
def execCkptCxl (s : State) : Host.Outcome State Fault Refusal := serviceRow 0x21 s fun x => s.checkpoint x true

/-- A parked record of a checkpoint given back by UNPARK to the slot in which its queue's command still stands, parked or
gone on since (R408, R428; assumption log 38). -/
def State.unparkRecord (s : State) (r : Nat × Vector Dword 8 × List SavedEntry) : State :=
  match s.slotOf r.1 with
  | none => s
  | some (d, n) =>
    if ((s.slot d n).bind (·.cmd)).isSome then s.unparkWith (s.partOfQueue r.1) d n r.2.1 r.2.2 else s

/-- The tiles of a checkpoint in CXL memory as they come back: one whose bytes there have changed fails its tag (R382). -/
def State.streamIn (s : State) (c : Checkpoint) : Tab Tile :=
  c.tiles.map fun p =>
    match c.stream.find? fun x => x.1 == s.service.arg.toNat + s.streamAt (p.1 / 2 ^ 26) (p.1 / 2 ^ 20 % 64) (p.1 % 2 ^ 20) with
    | none => p
    | some x =>
      if s.hostRead physFn none x.1 x.2.length = some x.2 then p else (p.1, { p.2 with intact := false, zero := false })

/-- RESTORE: every tile written back where it came from, with the monitors on them triggered (R107), and the parked records
given back. -/
def State.restore (s : State) (x : Dword) (cxl : Bool) : State :=
  if !s.tierReached cxl then s.endService x 6
  else match s.checkpoints.find? fun c => c.cxl == cxl && c.place == s.tierPlace cxl &&
      c.nodes == Vector.ofFn fun d => s.nodeOf d.val with
    | none => s.endService x 6
    | some c =>
      if c.ilrows ≠ s.dies.map (·.ilrows) ∨ c.live ≠ s.dies.map (·.live) then s.endService x 4
      else
        let s := { s with
          mem := c.mem ++ s.mem.filter (fun (p : Host.Cell) => !inHbm p.1)
          tiles := if cxl then s.streamIn c else c.tiles
          l2 := []
          cores := (s.wakeAll inHbm).cores.map (fun (p : Nat × Core) => (p.1, { p.2 with l1 := [] }))
          ecc := s.ecc.filter fun p => decide (wordKey (2 ^ 50) ≤ p.1) && decide (p.1 < 2 ^ 61)
          service := { s.service with progress := BitVec.ofNat 40 s.tileCount } }
        (c.parked.foldl (fun s r => s.unparkRecord r) s).endService x 0

/-- RESTORE.BUDDY (R428). -/
def execRestoreBuddy (s : State) : Host.Outcome State Fault Refusal := serviceRow 0x22 s fun x => s.restore x false

/-- RESTORE.CXL (R428). -/
def execRestoreCxl (s : State) : Host.Outcome State Fault Refusal := serviceRow 0x23 s fun x => s.restore x true

/-! ### Resets (R415, R418, R419, R429) -/

/-- What HBM held under the dirty sectors of some blocks comes back; the copies are gone. -/
def State.dropCopies (s : State) (mine : Nat → Bool) : State :=
  let gone := s.l2.filter fun p => mine (p.1 / 2 ^ 26)
  let mem := gone.foldl (fun m p => p.2.saved.foldl (fun m x =>
    Memory.writeN m (Key.hbm (p.1 / 2 ^ 26) (p.1 / 2 ^ 20 % 64) (p.1 % 2 ^ 20 * 2048 + x.1 * 128)) (leBytes 128 x.2.toNat)) m) s.mem
  { s with mem := mem, l2 := s.l2.filter fun p => !mine (p.1 / 2 ^ 26) }

/-- What a die keeps when it resets: its retirements, its links and its router's distances, and its incarnation raised (R415,
R420). -/
def Die.afterReset (d : Die) : Die := { live := d.live, links := d.links, hops := d.hops, inc := d.inc + 1 }

/-- A link as it stands after the package has reset. -/
def Link.afterReset (l : Link) : Link := { retired := l.retired, peer := l.peer, key := l.key, rxKey := l.rxKey }

/-- A core after a reset: retirement outlives it. -/
def Core.afterReset (k : Nat) (c : Core) : Core :=
  if c.retired then { Core.reset k with retired := true, state := .offline } else Core.reset k

/-- A scratchpad's cells. -/
def inScratch (k : Nat) : Bool := decide (2 ^ 50 ≤ k) && decide (k < 2 ^ 51)

/-- The package resets: HBM, its metadata and the always-on stores stay, with what lies outside the package. -/
def State.packageReset (s : State) : State :=
  let s := s.dropCopies fun _ => true
  { State.reset with
    mem := s.mem.filter fun p => !inScratch p.1
    tiles := s.tiles
    ecc := s.ecc.filter fun p => decide (p.1 < 2 ^ 60) || decide (2 ^ 61 ≤ p.1)
    untrained := s.untrained
    dies := s.dies.map fun d => { d.afterReset with links := d.links.map Link.afterReset, hops := [] }
    cores := (s.cores.filter fun p => p.2.retired).map fun p => (p.1, p.2.afterReset p.1)
    grants := s.grants
    hostOut := s.hostOut
    coords := s.coords, torus := s.torus
    agenda := s.agenda
    free := s.free, nextJob := s.nextJob
    always := s.always, flash := s.flash, checkpoints := s.checkpoints }

/-- Nodes of the torus. -/
def State.torusNodes (s : State) : List Nat :=
  (List.range s.torus.2.2).flatMap fun z => (List.range s.torus.2.1).flatMap fun y => (List.range s.torus.1).map fun x =>
    z * 256 + y * 16 + x

/-- Firmware starts on the reserved core of a die (R12, R429). -/
def State.startFirmware (s : State) (die : Nat) : State :=
  let k := die * 256
  s.putCore k { Core.reset k with state := .running, pl := 2, pc := vset (Core.reset k).pc 0 (wordAligned (Config.firmwareEntry die)) }

/-- A die leaves reset: it knows no node's incarnation, and announces itself to every node of the torus, its own among them
(R415, R417; DEDUCED, assumption log 66). -/
def State.leaveReset (s : State) (die : Nat) : State :=
  let s := s.mapDie die fun d => { d with inReset := false, unknown := s.torusNodes, expinc := [], fw := s.flash.image }
  (s.startFirmware die).announceTo die s.torusNodes

/-- A die enters reset: what its SRAM held is gone; HBM, retirements and links stay, and its incarnation is raised. -/
def State.enterReset (s : State) (die : Nat) : State :=
  let s := (List.range 16).foldl (fun s p => s.loseNode p (s.nodeOf die)) s
  let s := s.dropCopies (· == die)
  let mine (k : Nat) : Bool := decide (Key.scratch (die * 256) 0 ≤ k) && decide (k < Key.scratch (die * 256 + 256) 0)
  let copy (k : Nat) : Bool := (decide (wordKey (Key.hbm die 0 0) ≤ k) && decide (k < wordKey (Key.hbm (die + 1) 0 0))) ||
    (decide (wordKey (Key.scratch (die * 256) 0) ≤ k) && decide (k < wordKey (Key.scratch (die * 256 + 256) 0)))
  { s with
    mem := s.mem.filter (fun (p : Host.Cell) => !mine p.1)
    ecc := s.ecc.filter fun p => !copy p.1
    bench := s.bench.filter fun (p : Nat × List BenchEntry) => p.1 / 16 != die
    cores := s.cores.map (fun (p : Nat × Core) => if dieOf p.1 = die then (p.1, p.2.afterReset p.1) else p) }.mapDie die fun d =>
      { d.afterReset with inReset := true }

/-- DIE_RESET (R415 to R419); minimal mode has none (R430): a die goes into reset; the next such event takes it out again, once its boot ROM has verified
the image in board flash (R389). A die whose image it refuses stays in reset (DESIGN CHOICE, assumption log 60). -/
def execDieReset (die : Nat) (s : State) : Host.Outcome State Fault Refusal :=
  if 4 ≤ die then .fault .noSuchUnit
  else if s.service.minimal then .next s
  else if (s.die die).inReset then
    .next (if imageOkFor s.service.record s.flash.image then s.leaveReset die else s)
  else .next (s.enterReset die)

/-! ### Boot (R429) -/

/-- Why the configuration record is refused: REASON and the die (R388). -/
def State.recordFault (s : State) : Option (Nat × Nat) :=
  let record := s.flash.record
  if !recordOk record then some (1, 0)
  else match recordStranger record with
    | some d => some (3, d)
    | none => if recordSeq record < s.always.seq.toNat then some (2, 0) else none

/-- The always-on store's SEQ raised to that of an accepted record (R388). -/
def State.acceptSeq (s : State) : State :=
  if s.recordFault.isSome then s
  else { s with always := { s.always with seq := BitVec.ofNat 32 (recordSeq s.flash.record) } }

/-- Why a boot fails: REASON and the die. -/
def State.bootFault (s : State) : Option (Nat × Nat) :=
  let record := s.flash.record
  let image := s.flash.image
  match s.recordFault with
  | some e => some e
  | none =>
    if image.isEmpty then some (6, 0)
    else if !Config.imageSigned record image then some (4, 0)
    else if (Config.imageSvn image).toNat < recordSvn record then some (5, 0)
    else ((List.range 4).find? fun d => s.untrained.contains d).map fun d => (8, d)

/-- The factory retirements of a record applied beside those of the always-on store. -/
def State.factory (s : State) (record : List Byte) : State :=
  let s := { s with dies := Vector.ofFn fun d =>
    let x := vget s.dies {} d.val
    { x with
      live := (List.range 64).foldl (fun m c => if Config.factoryChannel record d.val c then m &&& ~~~(1#64 <<< c) else m) x.live
      links := Vector.ofFn fun p =>
        let l := vget x.links {} p.val
        { l with retired := l.retired || Config.factoryLink record d.val p.val } } }
  (List.range 1024).foldl (fun s k =>
    if (Config.factoryCore record k || Config.factoryBench record (k / 16)) && k % 256 != 0 then s.retireNow k else s) s

/-- The in-package links train with the dies. -/
def State.trainInside (s : State) : State :=
  [(0, 0), (0, 2), (1, 2), (2, 0)].foldl (fun s p =>
    match farEnd p.1 p.2 with
    | some (e, q) => if (s.link p.1 p.2).retired ∨ (s.link e q).retired then s else s.train p.1 p.2 e q
    | none => s) s

/-- BOOT (R429): from power-on to the start of firmware, or to minimal mode. -/
def execBoot (s : State) : Host.Outcome State Fault Refusal :=
  let v := s.service
  if v.ready ∨ v.minimal ∨ v.bootAt.isSome then .next s
  else
    let n : BitVec 8 := s.always.attempts.setWidth 8
    if s.always.attempts = 3 then
      .next { s with service := { v with minimal := true, attempts := n, reason := s.always.reason, failed := s.always.failed } }
    else
      let s := { s with
        always := { s.always with attempts := s.always.attempts + 1 }
        service := { v with attempts := n, bootAt := some s.kiln } }
      match s.bootFault with
      | some (reason, die) =>
        let r := BitVec.ofNat 8 reason
        let d := BitVec.ofNat 8 die
        .next { s with
          always := { s.always with reason := r, failed := d }
          service := { s.service with reason := r, failed := d } }.acceptSeq
      | none =>
        let record := s.flash.record
        let s := ({ s.acceptSeq with service := { s.service with record := record } }.factory record).trainInside
        .next ([0, 1, 2, 3].foldl (fun s d => s.leaveReset d) s)

/-- READY_TIMEOUT (R429): READY not set within 2^32 cycles of step 1. -/
def execReadyTimeout (s : State) : Host.Outcome State Fault Refusal :=
  match s.service.bootAt with
  | none => .next s
  | some t =>
    if s.kiln.toNat < t.toNat + 2 ^ 32 then .next s
    else
      let s := if s.service.reason = 0 then { s with always := { s.always with reason := 7, failed := 0 } } else s
      .next s.packageReset

/-- THERMAL_ACTION (R431): the junction temperature of a die, in degrees Celsius. -/
def execThermalAction (die degrees : Nat) (s : State) : Host.Outcome State Fault Refusal :=
  if 4 ≤ die then .fault .noSuchUnit
  else if 115 ≤ degrees then .next { s with always := { s.always with thermal := 2 } }.packageReset
  else if 105 ≤ degrees then
    .next ((s.mapDie die fun d => { d with ntokNext := some 1 }).event physFn 0x0070 0xFFFF (die + 256))
  else .next s

/-! ### The image loader (R430) -/

/-- The payload that the host offers, if the loader accepts it. -/
def State.payload (s : State) : Except (BitVec 8) (List Byte) :=
  let v := s.service
  if v.imgLen.toNat = 0 ∨ 2 ^ 28 < v.imgLen.toNat then .error 5
  else match s.hostRead physFn none v.imgAddr.toNat v.imgLen.toNat with
    | none => .error 0x0A
    | some bs =>
      let good := if v.imgRecord then recordOk bs && (recordStranger bs).isNone && decide (s.always.seq.toNat ≤ recordSeq bs)
        else recordOk s.flash.record && imageOkFor s.flash.record bs
      if good then .ok bs else .error 5

/-- IMAGE_LOADER (R430): a payload that verifies goes to board flash, the counter is cleared, and the package resets. -/
def execImageLoader (s : State) : Host.Outcome State Fault Refusal :=
  let v := s.service
  if !v.minimal ∨ !v.imgBusy then .next s
  else
    let s := s.keepRange physFn none v.imgAddr.toNat v.imgLen.toNat false
    match s.payload with
    | .error code => .next { s with service := { v with imgBusy := false, imgResult := code } }
    | .ok bs =>
      let flash : Flash := if v.imgRecord then { s.flash with record := bs } else { s.flash with image := bs }
      .next { s with flash := flash, always := { s.always with attempts := 0 } }.packageReset

end Sys2Proof.Machine
end

