-- ==== Sys2Proof/Machine/Soft.lean ====
section
/-! DEFINITION. Soft errors in the architectural state of a core (R411, R413): which registers and queue entries a word
consumes and writes, and the trap of a word that consumes a bad value. -/

namespace Sys2Proof.Machine

/-- A register, accumulator, descriptor or queue entry of a core, as a word names it. -/
inductive Cell where
  | g (r : BitVec 5)
  | c (st : Stream) (r : BitVec 4)
  /-- A vector operand code: a register, or the head of a load queue. -/
  | vec (code : BitVec 5)
  /-- The operand vs2 under its selector: a vector, a c register, the head of S→V, or an immediate. -/
  | opd (code : BitVec 5) (sopd : BitVec 3)
  | acc (a : BitVec 2)
  /-- An accumulator that a step reads unless it overwrites it. -/
  | accIf (a : BitVec 2) (ow : BitVec 1)
  | td (t : BitVec 3)
  /-- The head of a wide or scalar queue. -/
  | wide (q : Nat)
  | scalar (q : Nat)
  /-- Words of a region of the state window: VSHAPE, MESH, a map, a descriptor, a result FIFO's head, the monitor. -/
  | win (region first n : Nat)
  deriving DecidableEq, Repr

/-- The 64-bit words of the state window that a range of a region's words stands for: their numbers. -/
def flipKey (region word : Nat) : Nat := region * 2 ^ 20 + word

/-- A cell as words of the state window: the region, the first word, and how many. -/
def Core.cell (k : Core) (x : Cell) : Nat × Nat × Nat :=
  match x with
  | .g r => (0x01, r.toNat, 1)
  | .c st r => (0x02, (match st with | .x => 0 | .m => 16 | _ => 32) + r.toNat, 1)
  | .vec code =>
    if code.toNat < 28 then (0x03, 32 * code.toNat, 32)
    else let q := code.toNat - 28; (0x0B, 256 * q + 32 * ((k.wide q).head.toNat % 8), 32)
  | .opd code sopd =>
    if sopd = 0 then
      if code.toNat < 28 then (0x03, 32 * code.toNat, 32)
      else let q := code.toNat - 28; (0x0B, 256 * q + 32 * ((k.wide q).head.toNat % 8), 32)
    else if sopd = 1 then (0x02, 32 + code.toNat % 16, 1)
    else if sopd = 2 then (0x0C, (k.scalar 0).head.toNat % 16, 1)
    else (0x02, 0, 0)
  | .acc a => (0x04, 2048 * a.toNat, 2048)
  | .accIf a ow => (0x04, 2048 * a.toNat, if ow = 0 then 2048 else 0)
  | .td t => (0x05, 4 * t.toNat, 4)
  | .wide q => (0x0B, 256 * q + 32 * ((k.wide q).head.toNat % 8), 32)
  | .scalar q => (0x0C, 16 * q + (k.scalar q).head.toNat % 16, 1)
  | .win region first n => (region, first, n)

/-- A cell holds an uncorrectable error. -/
def Core.cellBad (k : Core) (x : Cell) : Bool :=
  let (region, first, n) := k.cell x
  k.flips.any fun p => decide (flipKey region first ≤ p.1) && decide (p.1 < flipKey region first + n) && wordBad p.2

/-- A cell that has been written holds no error. -/
def Core.cellClean (k : Core) (x : Cell) : Core :=
  let (region, first, n) := k.cell x
  { k with flips := k.flips.filter fun p => !(decide (flipKey region first ≤ p.1) && decide (p.1 < flipKey region first + n)) }

/-- VSHAPE; MESH; a shard map; a descriptor; the head of a port's results or arrivals; the monitor. -/
def Cell.vshape : Cell := .win 0x03 896 1
def Cell.mesh : Cell := .win 0x07 32 1
def Cell.map (m : BitVec 4) : Cell := .win 0x07 (2 * m.toNat) 2
def Cell.ring (r : BitVec 4) : Cell := .win 0x06 (4 * r.toNat) 4
def Cell.result (port : BitVec 3) : Cell := .win 0x0E (32 * windowPort port.toNat) 1
def Cell.monitor : Cell := .win 0x0F 0 1

/-- A result or arrival popped: those behind it move up, and their errors with them (R402). -/
def Core.popFlips (k : Core) (port : BitVec 3) : Core :=
  let first := flipKey 0x0E (32 * windowPort port.toNat)
  { k with flips := (k.flips.filter fun p => p.1 != first).map fun p =>
    if first < p.1 ∧ p.1 < first + 32 then (p.1 - 1, p.2) else p }

/-- The cells that a word of a stream consumes, and those it writes. Words that name none have an empty list. -/
def Instr.cells (i : Instr) : List Cell × List Cell :=
  match i with
  | .add gd gs1 gs2 => ([.g gs1, .g gs2], [.g gd])
  | .sub gd gs1 gs2 => ([.g gs1, .g gs2], [.g gd])
  | .mul gd gs1 gs2 => ([.g gs1, .g gs2], [.g gd])
  | .mulh gd gs1 gs2 => ([.g gs1, .g gs2], [.g gd])
  | .mulhu gd gs1 gs2 => ([.g gs1, .g gs2], [.g gd])
  | .madd gd gs1 gs2 => ([.g gs1, .g gs2, .g gd], [.g gd])
  | .div gd gs1 gs2 => ([.g gs1, .g gs2], [.g gd])
  | .divu gd gs1 gs2 => ([.g gs1, .g gs2], [.g gd])
  | .rem gd gs1 gs2 => ([.g gs1, .g gs2], [.g gd])
  | .remu gd gs1 gs2 => ([.g gs1, .g gs2], [.g gd])
  | .and gd gs1 gs2 => ([.g gs1, .g gs2], [.g gd])
  | .or gd gs1 gs2 => ([.g gs1, .g gs2], [.g gd])
  | .xor gd gs1 gs2 => ([.g gs1, .g gs2], [.g gd])
  | .andn gd gs1 gs2 => ([.g gs1, .g gs2], [.g gd])
  | .shl gd gs1 gs2 => ([.g gs1, .g gs2], [.g gd])
  | .shr gd gs1 gs2 => ([.g gs1, .g gs2], [.g gd])
  | .sar gd gs1 gs2 => ([.g gs1, .g gs2], [.g gd])
  | .slt gd gs1 gs2 => ([.g gs1, .g gs2], [.g gd])
  | .sltu gd gs1 gs2 => ([.g gs1, .g gs2], [.g gd])
  | .min gd gs1 gs2 => ([.g gs1, .g gs2], [.g gd])
  | .max gd gs1 gs2 => ([.g gs1, .g gs2], [.g gd])
  | .minu gd gs1 gs2 => ([.g gs1, .g gs2], [.g gd])
  | .maxu gd gs1 gs2 => ([.g gs1, .g gs2], [.g gd])
  | .clz gd gs1 => ([.g gs1], [.g gd])
  | .popc gd gs1 => ([.g gs1], [.g gd])
  | .sel gd gs1 gs2 gc => ([.g gs1, .g gs2, .g gc], [.g gd])
  | .addi gd gs1 _ => ([.g gs1], [.g gd])
  | .andi gd gs1 _ => ([.g gs1], [.g gd])
  | .ori gd gs1 _ => ([.g gs1], [.g gd])
  | .xori gd gs1 _ => ([.g gs1], [.g gd])
  | .slti gd gs1 _ => ([.g gs1], [.g gd])
  | .sltiu gd gs1 _ => ([.g gs1], [.g gd])
  | .shli gd gs1 _ => ([.g gs1], [.g gd])
  | .shri gd gs1 _ => ([.g gs1], [.g gd])
  | .sari gd gs1 _ => ([.g gs1], [.g gd])
  | .bfx gd gs1 _ _ => ([.g gs1], [.g gd])
  | .bfi gd gs1 _ _ => ([.g gs1, .g gd], [.g gd])
  | .lui gd _ => ([], [.g gd])
  | .addpc gd _ => ([], [.g gd])
  | .ldr gd _ => ([], [.g gd])
  | .bcc _ gs1 gs2 _ => ([.g gs1, .g gs2], [])
  | .jr gs1 _ => ([.g gs1], [])
  | .jlr gd gs1 _ => ([.g gs1], [.g gd])
  | .loop gs1 _ => ([.g gs1], [])
  | .kread gd => ([], [.g gd])
  | .pwin gd gs1 => ([.g gs1], [.g gd])
  | .barInit gs1 gs2 => ([.g gs1, .g gs2], [])
  | .barArr gs1 => ([.g gs1], [])
  | .barArrDrop gs1 => ([.g gs1], [])
  | .barArrJoin gs1 => ([.g gs1], [])
  | .barWait gs1 => ([.g gs1], [])
  | .monarm gbase _ => ([.g gbase], [.monitor])
  | .mwait gd gs1 gs2 => ([.g gs1, .g gs2, .monitor], [.g gd])
  | .mwaitW gd gs1 gs2 => ([.g gs1, .g gs2, .monitor], [.g gd])
  | .ld gd gbase _ _ _ => ([.g gbase], [.g gd])
  | .ldu gd gbase _ _ _ => ([.g gbase], [.g gd])
  | .st g gbase _ _ _ => ([.g g, .g gbase], [])
  | .ldq _ gbase _ _ => ([.g gbase], [])
  | .stq q gbase _ _ => ([.g gbase, .wide (4 + q.toNat)], [])
  | .pref _ gbase _ => ([.g gbase], [])
  | .ipref _ gbase _ => ([.g gbase], [])
  | .clean gbase _ => ([.g gbase], [])
  | .invl gbase _ => ([.g gbase], [])
  | .amoAdd gd gs1 gs2 _ _ => ([.g gs1, .g gs2], [.g gd])
  | .amoAnd gd gs1 gs2 _ _ => ([.g gs1, .g gs2], [.g gd])
  | .amoOr gd gs1 gs2 _ _ => ([.g gs1, .g gs2], [.g gd])
  | .amoXor gd gs1 gs2 _ _ => ([.g gs1, .g gs2], [.g gd])
  | .amoMin gd gs1 gs2 _ _ => ([.g gs1, .g gs2], [.g gd])
  | .amoMax gd gs1 gs2 _ _ => ([.g gs1, .g gs2], [.g gd])
  | .amoMinu gd gs1 gs2 _ _ => ([.g gs1, .g gs2], [.g gd])
  | .amoMaxu gd gs1 gs2 _ _ => ([.g gs1, .g gs2], [.g gd])
  | .amoSwap gd gs1 gs2 _ _ => ([.g gs1, .g gs2], [.g gd])
  | .amoFadd gd gs1 gs2 _ => ([.g gs1, .g gs2], [.g gd])
  | .cas gd gs1 gs2 _ _ => ([.g gs1, .g gs2, .g gd], [.g gd])
  | .qputV gs1 => ([.g gs1], [])
  | .qputM gs1 => ([.g gs1], [])
  | .qputX gs1 => ([.g gs1], [])
  | .qget gd => ([.scalar 1], [.g gd])
  | .rngset ga gb ring => ([.g ga, .g gb], [.win 0x06 (4 * ring.toNat) 1, .win 0x06 (4 * ring.toNat + 2) 1])
  | .rngstat ga ring => ([.ring ring], [.g ga])
  | .sdset ga w ring => ([.g ga], [.win 0x06 (4 * ring.toNat + w.toNat) 1])
  | .sdget ga w ring => ([.win 0x06 (4 * ring.toNat + w.toNat) 1], [.g ga])
  | .epush ga _ => ([.g ga], [])
  | .epushEnd ga _ => ([.g ga], [])
  | .epop ga port => ([.result port], [.g ga])
  | .epoll ga port => ([.result port], [.g ga])
  | .estat ga _ => ([], [.g ga])
  | .tlocR ga gb mp => ([.g ga, .g gb, .map mp, .mesh], [.g ga])
  | .tlocD ga gb mp => ([.g ga, .g gb, .map mp, .mesh], [.g ga])
  | .tsmap ga gb mp => ([.g ga, .g gb], [.map mp])
  | .tmesh ga => ([.g ga], [.mesh])
  | .reshard ga gb mps mpd => ([.g ga, .g gb, .map mps, .map mpd, .mesh], [])
  | .rstat ga gb => ([.g gb], [.g ga])
  | .smv ga gb ring => ([.g ga, .g (ga + 1), .g (ga + 2), .g (ga + 3), .g gb, .ring ring], [])
  | .sysr ga _ => ([], [.g ga])
  | .sysw ga _ => ([.g ga], [])
  | .tlbinvVa ga gb => ([.g ga, .g gb], [])
  | .tlbinvPasid _ gb => ([.g gb], [])
  | .tlbinvIpa ga gb => ([.g ga, .g gb], [])
  | .tlbinvPart ga _ => ([.g ga], [])
  | .icinv ga _ => ([.g ga], [])
  | .vadd _ vd vs1 vs2 _ _ sopd => ([.vshape, .vec vs1, .opd vs2 sopd], [.vec vd])
  | .vsub _ vd vs1 vs2 _ _ sopd => ([.vshape, .vec vs1, .opd vs2 sopd], [.vec vd])
  | .vmul _ vd vs1 vs2 _ _ sopd => ([.vshape, .vec vs1, .opd vs2 sopd], [.vec vd])
  | .vfma _ vd vs1 vs2 _ _ sopd => ([.vshape, .vec vs1, .opd vs2 sopd, .vec vd], [.vec vd])
  | .vfms _ vd vs1 vs2 _ _ sopd => ([.vshape, .vec vs1, .opd vs2 sopd, .vec vd], [.vec vd])
  | .vmin _ vd vs1 vs2 sopd => ([.vshape, .vec vs1, .opd vs2 sopd], [.vec vd])
  | .vmax _ vd vs1 vs2 sopd => ([.vshape, .vec vs1, .opd vs2 sopd], [.vec vd])
  | .vabs _ vd vs1 => ([.vshape, .vec vs1], [.vec vd])
  | .vneg _ vd vs1 => ([.vshape, .vec vs1], [.vec vd])
  | .vfrcp _ vd vs1 => ([.vshape, .vec vs1], [.vec vd])
  | .vfrsq _ vd vs1 => ([.vshape, .vec vs1], [.vec vd])
  | .vfexp2 _ vd vs1 => ([.vshape, .vec vs1], [.vec vd])
  | .vflog2 _ vd vs1 => ([.vshape, .vec vs1], [.vec vd])
  | .vftanh _ vd vs1 => ([.vshape, .vec vs1], [.vec vd])
  | .vcmpeq _ vd vs1 vs2 sopd => ([.vshape, .vec vs1, .opd vs2 sopd], [.vec vd])
  | .vcmplt _ vd vs1 vs2 sopd => ([.vshape, .vec vs1, .opd vs2 sopd], [.vec vd])
  | .vcmple _ vd vs1 vs2 sopd => ([.vshape, .vec vs1, .opd vs2 sopd], [.vec vd])
  | .vsel _ vd vs1 vs2 sopd => ([.vshape, .vec vs1, .opd vs2 sopd, .vec vd], [.vec vd])
  | .viadd _ vd vs1 vs2 sopd => ([.vshape, .vec vs1, .opd vs2 sopd], [.vec vd])
  | .visub _ vd vs1 vs2 sopd => ([.vshape, .vec vs1, .opd vs2 sopd], [.vec vd])
  | .vimul _ vd vs1 vs2 sopd => ([.vshape, .vec vs1, .opd vs2 sopd], [.vec vd])
  | .vimin _ vd vs1 vs2 sopd => ([.vshape, .vec vs1, .opd vs2 sopd], [.vec vd])
  | .vimax _ vd vs1 vs2 sopd => ([.vshape, .vec vs1, .opd vs2 sopd], [.vec vd])
  | .vand _ vd vs1 vs2 sopd => ([.vshape, .vec vs1, .opd vs2 sopd], [.vec vd])
  | .vor _ vd vs1 vs2 sopd => ([.vshape, .vec vs1, .opd vs2 sopd], [.vec vd])
  | .vxor _ vd vs1 vs2 sopd => ([.vshape, .vec vs1, .opd vs2 sopd], [.vec vd])
  | .vshl _ vd vs1 vs2 sopd => ([.vshape, .vec vs1, .opd vs2 sopd], [.vec vd])
  | .vshr _ vd vs1 vs2 sopd => ([.vshape, .vec vs1, .opd vs2 sopd], [.vec vd])
  | .vsar _ vd vs1 vs2 sopd => ([.vshape, .vec vs1, .opd vs2 sopd], [.vec vd])
  | .vcvt _ vd vs1 _ _ _ _ => ([.vshape, .vec vs1], [.vec vd])
  | .vqnt _ vd vs1 vs2 _ _ _ sopd => ([.vshape, .vec vs1, .opd vs2 sopd], [.vec vd])
  | .vdqnt _ vd vs1 vs2 _ sopd => ([.vshape, .vec vs1, .opd vs2 sopd], [.vec vd])
  | .vrsum _ vd vs1 => ([.vshape, .vec vs1], [.vec vd])
  | .vrmax _ vd vs1 => ([.vshape, .vec vs1], [.vec vd])
  | .vrmin _ vd vs1 => ([.vshape, .vec vs1], [.vec vd])
  | .vperm _ vd vs1 vs2 sopd => ([.vshape, .vec vs1, .opd vs2 sopd], [.vec vd])
  | .vbcast _ vd vs1 vs2 sopd => ([.vshape, .vec vs1, .opd vs2 sopd], [.vec vd])
  | .vrot _ vd vs1 vs2 sopd => ([.vshape, .vec vs1, .opd vs2 sopd], [.vec vd])
  | .vrd _ vd ring => ([.ring ring], [.vec vd])
  | .vmov _ vd vs2 sopd => ([.opd vs2 sopd], [.vec vd])
  | .vext _ vd vs1 vs2 sopd => ([.vshape, .vec vs1, .opd vs2 sopd], [.vec vd])
  | .vshape _ vs2 sopd => ([.opd vs2 sopd], [.vshape])
  | .vloop _ cn _ => ([.c .v cn], [])
  | .vbcc _ _ ca cb _ => ([.c .v ca, .c .v cb], [])
  | .vcli _ cd _ => ([], [.c .v cd])
  | .vcadd _ cd ca _ => ([.c .v ca], [.c .v cd])
  | .mma _ acc sta stb _ _ ow _ _ _ _ => ([.accIf acc ow, .ring sta, .ring stb], [.acc acc])
  | .mmat _ acc sta stb _ _ ow _ _ _ _ => ([.accIf acc ow, .ring sta, .ring stb], [.acc acc])
  | .mzero _ acc => ([], [.acc acc])
  | .mdrain _ acc ring _ => ([.acc acc, .ring ring], [])
  | .mfill _ acc ring _ => ([.ring ring], [.acc acc])
  | .macc _ acc src => ([.acc acc, .acc src], [.acc acc])
  | .mstamp _ => ([.scalar 2], [])
  | .mloop _ cn _ => ([.c .m cn], [])
  | .mbcc _ _ ca cb _ => ([.c .m ca, .c .m cb], [])
  | .xtd _ td cb => ([.c .x cb, .c .x (cb + 1), .c .x (cb + 2), .c .x (cb + 3)], [.td td])
  | .xtdi _ td _ _ => ([.td td], [.td td])
  | .xcopy _ td ring ci => ([.td td, .c .x ci, .ring ring], [])
  | .xput _ td ring ci => ([.td td, .c .x ci, .ring ring], [])
  | .xcvt _ td ring ci _ _ _ _ _ _ => ([.td td, .c .x ci, .ring ring], [])
  | .xgath _ td ring ci sti => ([.td td, .c .x ci, .ring ring, .ring sti], [])
  | .xscat _ td ring ci sti => ([.td td, .c .x ci, .ring ring, .ring sti], [])
  | .xwopen _ td ring => ([.td td, .ring ring], [])
  | .xwadv _ td ring ci => ([.td td, .c .x ci, .ring ring], [])
  | .xkvq _ td ring ci _ _ _ => ([.td td, .c .x ci, .td (td + 1), .ring ring], [])
  | .xfill _ td ring ci => ([.td td, .c .x ci, .ring ring], [])
  | .xftl _ td _ => ([.td td], [])
  | .xpeer _ td ring ci => ([.td td, .c .x ci, .ring ring], [])
  | .xqget _ cd => ([.scalar 3], [.c .x cd])
  | .xcli _ cd _ => ([], [.c .x cd])
  | .xcadd _ cd ca _ => ([.c .x ca], [.c .x cd])
  | .xcmul _ cd ca cb => ([.c .x ca, .c .x cb], [.c .x cd])
  | .xloop _ cn _ => ([.c .x cn], [])
  | .xbcc _ _ ca cb _ => ([.c .x ca, .c .x cb], [])
  | _ => ([], [])

/-- A word whose core holds errors: one that consumes a bad value traps and does not issue; what a word writes as it
retires is good again (R413). -/
def softWord (i : Instr) (st : Stream) (w : Word) (s : State) (run : State → Host.Outcome State Fault Refusal) :
    Host.Outcome State Fault Refusal :=
  if (Instr.cells i).1.any s.core.cellBad then .next (s.raise s.me (some st) { cls := 0x0E } (s.core.pcOf st) w)
  else match run s with
    | .next t =>
      if vget t.core.seq 0 st.code = vget s.core.seq 0 st.code then .next t
      else .next (t.mapCore fun c =>
        let c := match i with | .epop _ port => c.popFlips port | _ => c
        (Instr.cells i).2.foldl (fun c x => c.cellClean x) c)
    | o => o

end Sys2Proof.Machine
end

