-- ==== Sys2Proof/Machine/Storage.lean ====
section
/-! DEFINITION. The memory system's own events: L2 evictions, scrubs, soft errors, and the kiln tick boundary (R130, R261,
R411 to R413, R421). -/

namespace Sys2Proof.Machine

/-- The channel and row of a tile of a node's domain, by its DPA divided by 2048. -/
def State.tilePlace (s : State) (node tile : Nat) : Option (Nat × Nat × Nat) :=
  (s.dieOfNode node).bind fun d => ((s.die d).placeOf (tile * 2048)).map fun p => (d, p.1, p.2 / 2048)

/-- L2_EVICTION (R261, R262): L2 evicts the block of a tile; its seal-tile accesses wait for the budget of its partition
(R130). -/
def execL2Eviction (node tile : Nat) (s : State) : Host.Outcome State Fault Refusal :=
  match s.tilePlace node tile with
  | none => .fault .noSuchUnit
  | some (d, chan, row) =>
    if !Tab.has s.l2 (tileKey d chan row) then .next s
    else .next (if s.affords (s.evict d chan row) holdOther then s.evict d chan row else s)

/-- Correctable errors counted at a channel, with the event at every multiple of 65,536 (R421). -/
def State.countCorrected (s : State) (d chan n : Nat) : State :=
  let old := Tab.get 0 (s.die d).corrected chan
  let s := s.mapDie d fun x => { x with corrected := Tab.set x.corrected chan (old + n) }
  if old / 65536 < (old + n) / 65536 then s.event physFn 0x0040 0xFFFF (chan + 64 * d) else s

/-- SCRUB (R412): the channel's Glaze unit reads a tile and writes it back corrected, under the same VERSION and TAG; an
uncorrectable error poisons it. -/
def execScrub (node tile : Nat) (s : State) : Host.Outcome State Fault Refusal :=
  match s.tilePlace node tile with
  | none => .fault .noSuchUnit
  | some (d, chan, row) =>
    let flips := (s.tileFlips d chan row).filter fun p => !p.2.isEmpty
    if flips.isEmpty then .next s
    else if flips.any fun p => granuleBad p.2 then
      .next ((s.poisonTile d chan row).event physFn 0x0041 0xFFFF (chan + 256 * d))
    else .next ((s.clearTile d chan row).countCorrected d chan flips.length)

/-! ### Soft errors (R411, R413) -/

/-- A bit flipped in a list of flipped bits. -/
def flipBit (flips : List Nat) (b : Nat) : List Nat := if flips.contains b then flips.erase b else flips ++ [b]

/-- A bit flipped in the errors under a number. -/
def State.flip (s : State) (key b : Nat) : State :=
  let l := flipBit (Tab.get [] s.ecc key) b
  { s with ecc := if l.isEmpty then Tab.erase s.ecc key else Tab.set s.ecc key l }

/-- A soft error in the cached copy of a byte: a clean copy is dropped; a dirty one keeps the error. -/
def State.strikeCopy (s : State) (d chan b bit : Nat) : State :=
  let row := b / 2048
  let sec := b % 2048 / 128
  let line := Key.hbm d chan (b / 128 * 128)
  let hs := s.holders d line
  let blk := s.block d chan row
  let own := hs.any fun h => h.2 == .m || h.2 == .o
  if own || blk.dirty.getLsbD sec then s.flip (wordKey (Key.hbm d chan (b / 8 * 8))) (b % 8 * 8 + bit)
  else if blk.valid.getLsbD sec then s.setBlock d chan row { blk with valid := blk.valid &&& ~~~(1#16 <<< sec) }
  else hs.foldl (fun s h => s.setL1 h.1 line none) s

/-- A soft error in a register, accumulator, descriptor or queue entry of a core: byte `off` of a region of the state
window. An entry that a queue does not hold is written before it is read. -/
def Core.strike (c : Core) (region off bit : Nat) : Core :=
  let w := off / 8
  let held : Bool :=
    if region = 0x0E then decide (w % 32 < (vget c.ports {} (windowPort (w / 32))).results.length)
    else if region = 0x0B then (let q := c.wide (w / 256); decide ((w / 32 % 8 + 8 - q.head.toNat % 8) % 8 < q.size))
    else if region = 0x0C then (let q := c.scalar (w / 16); decide ((w % 16 + 16 - q.head.toNat % 16) % 16 < q.size))
    else true
  if !held ∨ (region = 0x01 ∧ w = 0) then c
  else
    let l := flipBit (Tab.get [] c.flips (flipKey region w)) (off % 8 * 8 + bit)
    { c with flips := if l.isEmpty then Tab.erase c.flips (flipKey region w) else Tab.set c.flips (flipKey region w) l }

/-- A soft error in entry `n` of a die's cullet table (R411). What follows an error there that is not corrected is nowhere
stated: the message ends with the STATUS of an uncorrectable error (DESIGN CHOICE, assumption log 26). -/
def State.strikeCullet (s : State) (d n bit : Nat) : State :=
  let strike (c : Cullet) : Cullet :=
    let l := flipBit c.flips bit
    { c with flips := l, status := if flipsBad l ∧ c.status = 0 then 0x06 else c.status
             cause := if flipsBad l ∧ c.status = 0 then 0x11 else c.cause }
  s.mapDie d fun x => { x with cullet := x.cullet.zipIdx.map fun c => if c.2 = n then strike c.1 else c.1 }

/-- A soft error in word `w` of a port's command FIFO, counted from its head (R411). -/
def Port.strike (p : Port) (w bit : Nat) : Port :=
  let hit (at0 : Nat) (k : Command) : Command :=
    if at0 ≤ w ∧ w < at0 + k.words.length then { k with flips := flipBit k.flips (64 * (w - at0) + bit) } else k
  let r := p.fifo.foldl (fun (a : Nat × List Command) k => (a.1 + k.words.length, a.2 ++ [hit a.1 k])) (0, [])
  { p with fifo := r.2, part := p.part.map (hit r.1) }

/-- SOFT_ERROR (R411, R413): bit `bit` of a byte flips. Addresses below 2^38 are DPAs of the node's HBM; from 2^48 the
metadata in the carve-outs, 32 addresses for each tile in the order of their DPAs, of which 24 exist; from 2^49 the
copies of those DPAs in L2 and the L1s; from 2^50 the scratchpads of the node's cores, 1 MiB each; from 2^51 their
registers and queues by region of the state window, 16 MiB each core and 1 MiB each region; from 2^52 the entries of the
dies' cullet tables, 64 addresses each; from 2^53 the words of the command FIFOs, 8 addresses each, by core and port (the
model's numbering, assumption log 26). -/
def execSoftError (node addr bit : Nat) (s : State) : Host.Outcome State Fault Refusal :=
  match s.dieOfNode node with
  | none => .fault .noSuchUnit
  | some d =>
    if 8 ≤ bit then .fault .noSuchUnit
    else if 2 ^ 53 ≤ addr then
      let off := addr - 2 ^ 53
      let k := d * 256 + off / 2048
      if 256 ≤ off / 2048 ∨ 5 ≤ off / 256 % 8 then .fault .noSuchUnit
      else
        let c := s.coreAt k
        let n := off / 256 % 8
        .next (s.putCore k (c.setPort n ((c.port n).strike (off / 8 % 32) (off % 8 * 8 + bit))))
    else if 2 ^ 52 ≤ addr then
      let off := addr - 2 ^ 52
      if culletSize * 64 ≤ off then .fault .noSuchUnit else .next (s.strikeCullet d (off / 64) (off % 64 * 8 + bit))
    else if 2 ^ 51 ≤ addr then
      let k := (addr - 2 ^ 51) / 2 ^ 24
      let region := (addr - 2 ^ 51) / 2 ^ 20 % 16
      let off := (addr - 2 ^ 51) % 2 ^ 20
      if 256 ≤ k ∨ regionSize region ≤ off then .fault .noSuchUnit
      else .next (s.putCore (d * 256 + k) ((s.coreAt (d * 256 + k)).strike region off bit))
    else if 2 ^ 50 ≤ addr then
      let off := addr - 2 ^ 50
      if 2 ^ 28 ≤ off then .fault .noSuchUnit
      else
        let k := Key.scratch (d * 256) 0 + off
        .next (s.flip (wordKey k) (k % 8 * 8 + bit))
    else if 2 ^ 48 ≤ addr ∧ addr < 2 ^ 49 then
      let off := addr - 2 ^ 48
      match (s.die d).placeOf (off / 32 * 2048) with
      | none => .fault .noSuchUnit
      | some (chan, b) =>
        if 24 ≤ off % 32 then .fault .noSuchUnit
        else .next (s.flip (metaKey d chan (b / 2048)) (off % 32 * 8 + bit))
    else
      let copy := decide (2 ^ 49 ≤ addr)
      match (s.die d).placeOf (if copy then addr - 2 ^ 49 else addr) with
      | none => .fault .noSuchUnit
      | some (chan, b) =>
        if copy then .next (s.strikeCopy d chan b bit)
        else
          let k := Key.hbm d chan b
          .next (s.flip (k / 32) (k % 32 * 8 + bit))

/-- KILN_TICK_BOUNDARY (R130): time passes up to the next boundary. -/
def execKilnTickBoundary (s : State) : Host.Outcome State Fault Refusal := .next (s.pass (4096 - s.kiln.toNat % 4096))

end Sys2Proof.Machine
end

