-- ==== Sys2Proof/Machine/Trans.lean ====
section
/-! DEFINITION. The five transcendental functions of V (R191): each result is the exact value rounded once. An irrational
value is replaced by a point of the 256-bit grid cell that holds it, which no rounding boundary of a lane format comes
near. -/

namespace Sys2Proof.Machine

/-- Fraction bits of the fixed-point values below. -/
def fixBits : Nat := 256

/-- The real between n and n + 1 units of 2^e, or n units exactly, as a value that every format rounds alike. -/
def between (neg : Bool) (n : Nat) (exact : Bool) (e : Int) : Num :=
  .fin neg (2 * n + if exact then 0 else 1) (e - 1)

/-- The largest r ≤ 2^(bits) − 1 with r² ≤ n, from the top bit down. -/
def isqrt (n : Nat) : Nat → Nat → Nat
  | 0, r => r
  | b + 1, r => isqrt n b (if (r + 2 ^ b) * (r + 2 ^ b) ≤ n then r + 2 ^ b else r)

/-- 2 × atanh(p ÷ q) in fixed point, for p ÷ q ≤ 1/3: the series z + z³/3 + z⁵/5 + … -/
def atanh2 (p q : Nat) : Nat :=
  let z := p * 2 ^ fixBits / q
  let z2 := z * z / 2 ^ fixBits
  ((List.range 90).foldl (fun (a : Nat × Nat) k => (a.1 + a.2 / (2 * k + 1), a.2 * z2 / 2 ^ fixBits)) (0, z)).1 * 2

/-- ln 2 in fixed point. -/
def ln2Fix : Nat := atanh2 1 3

/-- 2^f in fixed point for 0 ≤ f < 1 in fixed point: the exponential series of f × ln 2. -/
def exp2Fix (f : Nat) : Nat :=
  let y := f * ln2Fix / 2 ^ fixBits
  ((List.range 70).foldl (fun (a : Nat × Nat) k => (a.1 + a.2, a.2 * y / 2 ^ fixBits / (k + 1))) (0, 2 ^ fixBits)).1

/-- The functions. -/
inductive Transc where
  | rcp | rsq | exp2 | log2 | tanh
  deriving DecidableEq, Repr

/-- 1 ÷ (m × 2^q), m ≠ 0. -/
def rcpNum (neg : Bool) (m : Nat) (q : Int) : Num :=
  let k := Nat.log2 m + 128
  between neg (2 ^ k / m) (decide (2 ^ k % m = 0)) (-(k : Int) - q)

/-- 1 ÷ √(m × 2^q), m ≠ 0. -/
def rsqNum (m : Nat) (q : Int) : Num :=
  let m := if q % 2 = 0 then m else 2 * m
  let q := if q % 2 = 0 then q else q - 1
  let k := Nat.log2 m + 64
  let n := 2 ^ (2 * k)
  let r := isqrt (n / m) (k + 1) 0
  between false r (decide (r * r * m = n)) (-(k : Int) - q / 2)

/-- 2^(± m × 2^q): exact for an integer, else between two points of the fine grid. -/
def exp2Num (neg : Bool) (m : Nat) (q : Int) : Num :=
  if m = 0 then .fin false 1 0
  else if 16 ≤ (Nat.log2 m : Int) + q then .fin false 1 (if neg then -65536 else 65536)
  else
    let x : Int := (if 0 ≤ q then m * 2 ^ q.toNat * 2 ^ fixBits else m * 2 ^ (fixBits - (-q).toNat) : Nat)
    let x := if neg then -x else x
    let n := x / 2 ^ fixBits
    let f := (x % 2 ^ fixBits).toNat
    if f = 0 then .fin false 1 n else between false (exp2Fix f) false (n - fixBits)

/-- log2(m × 2^q), m ≠ 0: exact for a power of two. -/
def log2Num (m : Nat) (q : Int) : Num :=
  let b := Nat.log2 m
  let e : Int := b + q
  if m = 2 ^ b then .ofInt e
  else
    let f := atanh2 (m - 2 ^ b) (m + 2 ^ b) * 2 ^ fixBits / ln2Fix
    let x : Int := e * 2 ^ fixBits + f
    if 0 ≤ x then between false x.toNat false (-(fixBits : Int))
    else between true ((-x).toNat - 1) false (-(fixBits : Int))

/-- tanh(± m × 2^q). Below 2^−30 the value lies within 2^−60 of the input, which it rounds to; from 32 on it lies
between 1 − 2^−90 and 1. -/
def tanhNum (neg : Bool) (m : Nat) (q : Int) : Num :=
  if m = 0 then .fin neg 0 0
  else if (Nat.log2 m : Int) + q < -30 then .fin neg m q
  else if 5 ≤ (Nat.log2 m : Int) + q then .fin neg (2 ^ 90 - 1) (-90)
  else
    let x := if 0 ≤ q then m * 2 ^ q.toNat * 2 ^ fixBits else m * 2 ^ (fixBits - (-q).toNat)
    let y := 2 * x * 2 ^ fixBits / ln2Fix
    let t := exp2Fix (y % 2 ^ fixBits) * 2 ^ (y / 2 ^ fixBits)
    between neg ((t - 2 ^ fixBits) * 2 ^ fixBits / (t + 2 ^ fixBits)) false (-(fixBits : Int))

/-- The exact value of a function, with the special inputs of the table of R191. -/
def Transc.value (t : Transc) (x : Num) : Num :=
  match t, x with
  | _, .nan => .nan
  | .rcp, .inf n => .fin n 0 0
  | .rcp, .fin n m q => if m = 0 then .inf n else rcpNum n m q
  | .rsq, .inf n => if n then .nan else .fin false 0 0
  | .rsq, .fin n m q => if m = 0 then .inf n else if n then .nan else rsqNum m q
  | .exp2, .inf n => if n then .fin false 0 0 else .inf false
  | .exp2, .fin n m q => exp2Num n m q
  | .log2, .inf n => if n then .nan else .inf false
  | .log2, .fin n m q => if m = 0 then .inf true else if n then .nan else log2Num m q
  | .tanh, .inf n => .fin n 1 0
  | .tanh, .fin n m q => tanhNum n m q

/-- A lane of a transcendental word: rounded by RNE with OVFSPEC (R191). -/
def Transc.lane (t : Transc) (f : Fmt) (c : Nat) : Nat := f.round .rne true true (t.value (f.decode true c))

end Sys2Proof.Machine
end

