-- ==== Sys2Proof/Machine/Vector.lean ====
section
/-! DEFINITION. The vector engine (R41 to R43, R181 to R200): lanes and VSHAPE, operands and results, and the meanings of
the V words other than the control words. -/

namespace Sys2Proof.Machine

/-! ### Lanes and VSHAPE (R181 to R183) -/

/-- What a legal VSHAPE says: the lane format, the narrow format, and LEN. -/
structure Shape where
  fmt : Fmt
  narrow : Option Fmt
  len : Nat
  deriving DecidableEq, Repr

/-- A lane format (R181). -/
def Fmt.isLane : Fmt → Bool
  | .fp32 => true | .bf16 => true | .i32 => true | .i64 => true | _ => false

/-- A format that NFMT may name (R182). -/
def Fmt.isNarrow (f : Fmt) : Bool := decide (f.width ≤ 8)

/-- VSHAPE from 64 bits, where R183 accepts them. -/
def Shape.ofWord (x : Dword) : Option Shape := do
  let f ← Fmt.ofCode (BitVec.ofNat 5 (bits x 4 0))
  let n := bits x 9 5
  let nf := Fmt.ofCode (BitVec.ofNat 5 n)
  let len := bits x 16 10 + 1
  if bits x 63 17 = 0 ∧ f.isLane ∧ len * f.width ≤ 2048 ∧ (n = 0 ∨ (nf.map Fmt.isNarrow).getD false) then
    some { fmt := f, narrow := if n = 0 then none else nf, len := len }
  else none

/-- Elements 0 to `n` − 1 of a register, `w` bits each (R181). -/
def lanesOf (x : BitVec 2048) (w n : Nat) : List Nat := (List.range n).map fun i => (x.extractLsb' (i * w) w).toNat

/-- Elements of `w` bits put from bit 0 on, zero above them (R181, R185). -/
def packLanes (w : Nat) (l : List Nat) : BitVec 2048 :=
  BitVec.ofNat 2048 (l.foldr (fun c acc => c % 2 ^ w + 2 ^ w * acc) 0)

/-! ### Operands (R42, R184) -/

/-- A vector operand: a register, or the head of a load queue. -/
def Core.vec (c : Core) (code : BitVec 5) : BitVec 2048 :=
  if code.toNat < 28 then vget c.v 0 code.toNat else (c.wide (code.toNat - 28)).top

/-- Where a lane operand comes from. -/
structure VSrc where
  code : BitVec 5
  sopd : BitVec 3
  deriving DecidableEq, Repr

/-- A scalar operand's 64 bits: a c register or the head of the S→V queue. -/
def VSrc.scalar (o : VSrc) (c : Core) : Dword :=
  if o.sopd = 1 then c.readC .v (o.code.extractLsb' 0 4) else (c.scalar 0).top

/-- The lanes of the vs2 operand; `raw` for the index operands, whose immediate is not converted. -/
def VSrc.lanes (o : VSrc) (c : Core) (h : Shape) (raw : Bool) : List Nat :=
  let w := h.fmt.width
  if o.sopd = 0 then lanesOf (c.vec o.code) w h.len
  else
    let x := if o.sopd = 3 then
        (if raw then (o.code.signExtend 64).toNat % 2 ^ w
         else h.fmt.round .rne false true (.ofInt o.code.toInt))
      else (o.scalar c).toNat % 2 ^ w
    List.replicate h.len x

/-- The load queues that vector operands name, each once. -/
def queuesOf (codes : List (BitVec 5)) : List Nat :=
  ((codes.filter fun k => decide (28 ≤ k.toNat)).map fun k => k.toNat - 28).eraseDups

/-- The vector operands of a word with a vs2 operand. -/
def VSrc.vecs (o : VSrc) : List (BitVec 5) := if o.sopd = 0 then [o.code] else []

/-! ### Issue and retirement (R42, R185, R186) -/

/-- Hold until every queue read holds an entry. -/
def needQueues (qs : List Nat) (sv : Bool) : M Unit := do
  let c ← M.core
  qs.forM fun q => M.until (c.readable q) (.emptyWide q)
  if sv then M.until (c.readable 6) (.emptyScalar 0)

/-- Hold until the queue a destination names has room. -/
def needRoom (vd : BitVec 5) : M Unit := do
  let c ← M.core
  if vd = 28 then M.until (c.writable 4) (.fullWide 4)
  else if vd = 29 then M.until (c.writable 5) (.fullWide 5)
  else if vd = 30 then M.until (c.writable 7) (.fullScalar 1)

/-- The queues read, popped. -/
def Core.popQueues (c : Core) (qs : List Nat) (sv : Bool) : Core :=
  let c := qs.foldl Core.popWide c
  if sv then c.popScalar 0 else c

/-- A result written to its destination. -/
def Core.writeV (c : Core) (vd : BitVec 5) (x : BitVec 2048) : Core :=
  if vd.toNat < 28 then { c with v := vset c.v vd.toNat x }
  else if vd = 28 then c.pushWide 4 x
  else if vd = 29 then c.pushWide 5 x
  else if vd = 30 then c.pushScalar 1 (x.extractLsb' 0 64)
  else c

/-- A V word that computes a result from its core: `f` gives none for a run-time operand error (R186). -/
def runVector (i : Instr) (sync : BitVec 4) (vd : BitVec 5) (vecs : List (BitVec 5)) (sv : Bool)
    (f : Core → Option (BitVec 2048)) (s : State) : Host.Outcome State Fault Refusal :=
  runWord i .v sync (do
    let qs := queuesOf vecs
    needQueues qs sv
    needRoom vd
    match f (← M.core) with
    | none => M.operandOpen
    | some x => do
      M.mapCore fun c => (c.popQueues qs sv).writeV vd x
      return .next) s

/-- The classes of V words by the lane formats they take (R186). -/
inductive VClass where
  | any | float | int
  deriving DecidableEq, Repr

/-- The shape a word finds, where VSHAPE is legal and of the word's class. -/
def Core.shape (c : Core) (k : VClass) : Option Shape := do
  let h ← Shape.ofWord c.vshape
  match k with
  | .any => some h
  | .float => if h.fmt.isInt then none else some h
  | .int => if h.fmt.isInt then some h else none

/-- A word with two operands that computes each lane from the lanes of vs1 and vs2 and of vd. -/
def runLanes (i : Instr) (sync : BitVec 4) (vd vs1 vs2 : BitVec 5) (sopd : BitVec 3) (k : VClass)
    (f : Fmt → Nat → Nat → Nat → Nat) (s : State) : Host.Outcome State Fault Refusal :=
  let o : VSrc := { code := vs2, sopd := sopd }
  runVector i sync vd (vs1 :: o.vecs) (sopd == 2) (fun c => do
    let h ← c.shape k
    let w := h.fmt.width
    let a := lanesOf (c.vec vs1) w h.len
    let b := o.lanes c h false
    let d := if vd.toNat < 28 then lanesOf (c.vec vd) w h.len else List.replicate h.len 0
    some (packLanes w ((a.zip (b.zip d)).map fun p => f h.fmt p.1 p.2.1 p.2.2))) s

/-- A word with one operand that computes each lane from the lane of vs1. -/
def runUnary (i : Instr) (sync : BitVec 4) (vd vs1 : BitVec 5) (f : Fmt → Nat → Nat) (s : State) :
    Host.Outcome State Fault Refusal :=
  runVector i sync vd [vs1] false (fun c => do
    let h ← c.shape .float
    some (packLanes h.fmt.width ((lanesOf (c.vec vs1) h.fmt.width h.len).map (f h.fmt)))) s

/-! ### Floating arithmetic (R189, R190) -/

/-- One lane of R189: an exact expression rounded once. -/
def floatLane (g : Rnd → Num → Num → Num → Num) (rnd : BitVec 2) (ovf : BitVec 1) (f : Fmt) (a b d : Nat) : Nat :=
  let r := Rnd.ofCode rnd
  f.round r (ovf == 1) true (g r (f.decode true a) (f.decode true b) (f.decode true d))

/-- VADD. -/
def execVadd (sync : BitVec 4) (vd vs1 vs2 : BitVec 5) (rnd : BitVec 2) (ovf : BitVec 1) (sopd : BitVec 3) (s : State) :
    Host.Outcome State Fault Refusal :=
  runLanes (.vadd sync vd vs1 vs2 rnd ovf sopd) sync vd vs1 vs2 sopd .float
    (floatLane (fun r a b _ => a.add r b) rnd ovf) s

/-- VSUB. -/
def execVsub (sync : BitVec 4) (vd vs1 vs2 : BitVec 5) (rnd : BitVec 2) (ovf : BitVec 1) (sopd : BitVec 3) (s : State) :
    Host.Outcome State Fault Refusal :=
  runLanes (.vsub sync vd vs1 vs2 rnd ovf sopd) sync vd vs1 vs2 sopd .float
    (floatLane (fun r a b _ => a.add r b.neg) rnd ovf) s

/-- VMUL. -/
def execVmul (sync : BitVec 4) (vd vs1 vs2 : BitVec 5) (rnd : BitVec 2) (ovf : BitVec 1) (sopd : BitVec 3) (s : State) :
    Host.Outcome State Fault Refusal :=
  runLanes (.vmul sync vd vs1 vs2 rnd ovf sopd) sync vd vs1 vs2 sopd .float
    (floatLane (fun _ a b _ => a.mul b) rnd ovf) s

/-- VFMA. -/
def execVfma (sync : BitVec 4) (vd vs1 vs2 : BitVec 5) (rnd : BitVec 2) (ovf : BitVec 1) (sopd : BitVec 3) (s : State) :
    Host.Outcome State Fault Refusal :=
  runLanes (.vfma sync vd vs1 vs2 rnd ovf sopd) sync vd vs1 vs2 sopd .float
    (floatLane (fun r a b d => (a.mul b).add r d) rnd ovf) s

/-- VFMS. -/
def execVfms (sync : BitVec 4) (vd vs1 vs2 : BitVec 5) (rnd : BitVec 2) (ovf : BitVec 1) (sopd : BitVec 3) (s : State) :
    Host.Outcome State Fault Refusal :=
  runLanes (.vfms sync vd vs1 vs2 rnd ovf sopd) sync vd vs1 vs2 sopd .float
    (floatLane (fun r a b d => d.add r (a.mul b).neg) rnd ovf) s

/-- x ≤ y of two values that are not NaN, −0 below +0 where `signed` (R190, R192, R197). -/
def Num.le (signed : Bool) : Num → Num → Bool
  | .inf n, .inf n' => n || !n'
  | .inf n, _ => n
  | _, .inf n => !n
  | .fin n m q, .fin n' m' q' =>
    let e := min q q'
    let a : Int := (m * 2 ^ (q - e).toNat : Nat)
    let b : Int := (m' * 2 ^ (q' - e).toNat : Nat)
    let a := if n then -a else a
    let b := if n' then -b else b
    if signed ∧ a = 0 ∧ b = 0 then n || !n' else decide (a ≤ b)
  | _, _ => false

/-- The smaller (or the larger) of two codes, exactly; NaN if either is NaN. -/
def minMaxLane (larger : Bool) (f : Fmt) (a b : Nat) : Nat :=
  let x := f.decode true a
  let y := f.decode true b
  if x = .nan ∨ y = .nan then f.nan else if x.le true y = larger then b else a

/-- VMIN. -/
def execVmin (sync : BitVec 4) (vd vs1 vs2 : BitVec 5) (sopd : BitVec 3) (s : State) :
    Host.Outcome State Fault Refusal :=
  runLanes (.vmin sync vd vs1 vs2 sopd) sync vd vs1 vs2 sopd .float (fun f a b _ => minMaxLane false f a b) s

/-- VMAX. -/
def execVmax (sync : BitVec 4) (vd vs1 vs2 : BitVec 5) (sopd : BitVec 3) (s : State) :
    Host.Outcome State Fault Refusal :=
  runLanes (.vmax sync vd vs1 vs2 sopd) sync vd vs1 vs2 sopd .float (fun f a b _ => minMaxLane true f a b) s

/-- VABS. -/
def execVabs (sync : BitVec 4) (vd vs1 : BitVec 5) (s : State) : Host.Outcome State Fault Refusal :=
  runUnary (.vabs sync vd vs1) sync vd vs1 (fun f a =>
    if f.decode true a = .nan then f.nan else a % 2 ^ (f.width - 1)) s

/-- VNEG. -/
def execVneg (sync : BitVec 4) (vd vs1 : BitVec 5) (s : State) : Host.Outcome State Fault Refusal :=
  runUnary (.vneg sync vd vs1) sync vd vs1 (fun f a =>
    if f.decode true a = .nan then f.nan else (a + 2 ^ (f.width - 1)) % 2 ^ f.width) s

/-! ### Transcendentals (R191) -/

/-- VFRCP. -/
def execVfrcp (sync : BitVec 4) (vd vs1 : BitVec 5) (s : State) : Host.Outcome State Fault Refusal :=
  runUnary (.vfrcp sync vd vs1) sync vd vs1 (Transc.lane .rcp) s

/-- VFRSQ. -/
def execVfrsq (sync : BitVec 4) (vd vs1 : BitVec 5) (s : State) : Host.Outcome State Fault Refusal :=
  runUnary (.vfrsq sync vd vs1) sync vd vs1 (Transc.lane .rsq) s

/-- VFEXP2. -/
def execVfexp2 (sync : BitVec 4) (vd vs1 : BitVec 5) (s : State) : Host.Outcome State Fault Refusal :=
  runUnary (.vfexp2 sync vd vs1) sync vd vs1 (Transc.lane .exp2) s

/-- VFLOG2. -/
def execVflog2 (sync : BitVec 4) (vd vs1 : BitVec 5) (s : State) : Host.Outcome State Fault Refusal :=
  runUnary (.vflog2 sync vd vs1) sync vd vs1 (Transc.lane .log2) s

/-- VFTANH. -/
def execVftanh (sync : BitVec 4) (vd vs1 : BitVec 5) (s : State) : Host.Outcome State Fault Refusal :=
  runUnary (.vftanh sync vd vs1) sync vd vs1 (Transc.lane .tanh) s

/-! ### Compare and select (R192) -/

/-- All ones where a relation holds. -/
def maskLane (f : Fmt) (b : Bool) : Nat := if b then 2 ^ f.width - 1 else 0

/-- a ≤ b of two lanes; false where either is NaN. -/
def leLane (f : Fmt) (a b : Nat) : Bool :=
  let x := f.decode true a
  let y := f.decode true b
  if x = .nan ∨ y = .nan then false else x.le false y

/-- VCMPEQ. -/
def execVcmpeq (sync : BitVec 4) (vd vs1 vs2 : BitVec 5) (sopd : BitVec 3) (s : State) :
    Host.Outcome State Fault Refusal :=
  runLanes (.vcmpeq sync vd vs1 vs2 sopd) sync vd vs1 vs2 sopd .any
    (fun f a b _ => maskLane f (leLane f a b && leLane f b a)) s

/-- VCMPLT. -/
def execVcmplt (sync : BitVec 4) (vd vs1 vs2 : BitVec 5) (sopd : BitVec 3) (s : State) :
    Host.Outcome State Fault Refusal :=
  runLanes (.vcmplt sync vd vs1 vs2 sopd) sync vd vs1 vs2 sopd .any
    (fun f a b _ => maskLane f (leLane f a b && !leLane f b a)) s

/-- VCMPLE. -/
def execVcmple (sync : BitVec 4) (vd vs1 vs2 : BitVec 5) (sopd : BitVec 3) (s : State) :
    Host.Outcome State Fault Refusal :=
  runLanes (.vcmple sync vd vs1 vs2 sopd) sync vd vs1 vs2 sopd .any (fun f a b _ => maskLane f (leLane f a b)) s

/-- VSEL: any non-zero bit of vd's lane selects vs1. -/
def execVsel (sync : BitVec 4) (vd vs1 vs2 : BitVec 5) (sopd : BitVec 3) (s : State) :
    Host.Outcome State Fault Refusal :=
  runLanes (.vsel sync vd vs1 vs2 sopd) sync vd vs1 vs2 sopd .any (fun _ a b d => if d = 0 then b else a) s

/-! ### Integer, logic and shift words (R193) -/

/-- VIADD. -/
def execViadd (sync : BitVec 4) (vd vs1 vs2 : BitVec 5) (sopd : BitVec 3) (s : State) :
    Host.Outcome State Fault Refusal :=
  runLanes (.viadd sync vd vs1 vs2 sopd) sync vd vs1 vs2 sopd .int (fun _ a b _ => a + b) s

/-- VISUB. -/
def execVisub (sync : BitVec 4) (vd vs1 vs2 : BitVec 5) (sopd : BitVec 3) (s : State) :
    Host.Outcome State Fault Refusal :=
  runLanes (.visub sync vd vs1 vs2 sopd) sync vd vs1 vs2 sopd .int (fun f a b _ => a + (2 ^ f.width - b)) s

/-- VIMUL. -/
def execVimul (sync : BitVec 4) (vd vs1 vs2 : BitVec 5) (sopd : BitVec 3) (s : State) :
    Host.Outcome State Fault Refusal :=
  runLanes (.vimul sync vd vs1 vs2 sopd) sync vd vs1 vs2 sopd .int (fun _ a b _ => a * b) s

/-- VIMIN. -/
def execVimin (sync : BitVec 4) (vd vs1 vs2 : BitVec 5) (sopd : BitVec 3) (s : State) :
    Host.Outcome State Fault Refusal :=
  runLanes (.vimin sync vd vs1 vs2 sopd) sync vd vs1 vs2 sopd .int
    (fun f a b _ => if signedOf f.width a ≤ signedOf f.width b then a else b) s

/-- VIMAX. -/
def execVimax (sync : BitVec 4) (vd vs1 vs2 : BitVec 5) (sopd : BitVec 3) (s : State) :
    Host.Outcome State Fault Refusal :=
  runLanes (.vimax sync vd vs1 vs2 sopd) sync vd vs1 vs2 sopd .int
    (fun f a b _ => if signedOf f.width a ≤ signedOf f.width b then b else a) s

/-- VAND. -/
def execVand (sync : BitVec 4) (vd vs1 vs2 : BitVec 5) (sopd : BitVec 3) (s : State) :
    Host.Outcome State Fault Refusal :=
  runLanes (.vand sync vd vs1 vs2 sopd) sync vd vs1 vs2 sopd .any (fun _ a b _ => a &&& b) s

/-- VOR. -/
def execVor (sync : BitVec 4) (vd vs1 vs2 : BitVec 5) (sopd : BitVec 3) (s : State) :
    Host.Outcome State Fault Refusal :=
  runLanes (.vor sync vd vs1 vs2 sopd) sync vd vs1 vs2 sopd .any (fun _ a b _ => a ||| b) s

/-- VXOR. -/
def execVxor (sync : BitVec 4) (vd vs1 vs2 : BitVec 5) (sopd : BitVec 3) (s : State) :
    Host.Outcome State Fault Refusal :=
  runLanes (.vxor sync vd vs1 vs2 sopd) sync vd vs1 vs2 sopd .any (fun _ a b _ => a ^^^ b) s

/-- VSHL. -/
def execVshl (sync : BitVec 4) (vd vs1 vs2 : BitVec 5) (sopd : BitVec 3) (s : State) :
    Host.Outcome State Fault Refusal :=
  runLanes (.vshl sync vd vs1 vs2 sopd) sync vd vs1 vs2 sopd .int (fun f a b _ => a * 2 ^ (b % f.width)) s

/-- VSHR. -/
def execVshr (sync : BitVec 4) (vd vs1 vs2 : BitVec 5) (sopd : BitVec 3) (s : State) :
    Host.Outcome State Fault Refusal :=
  runLanes (.vshr sync vd vs1 vs2 sopd) sync vd vs1 vs2 sopd .int (fun f a b _ => a / 2 ^ (b % f.width)) s

/-- VSAR. -/
def execVsar (sync : BitVec 4) (vd vs1 vs2 : BitVec 5) (sopd : BitVec 3) (s : State) :
    Host.Outcome State Fault Refusal :=
  runLanes (.vsar sync vd vs1 vs2 sopd) sync vd vs1 vs2 sopd .int
    (fun f a b _ => (signedOf f.width a / 2 ^ (b % f.width) % 2 ^ f.width).toNat) s

/-! ### Conversion, quantisation and dequantisation (R194 to R196) -/

/-- VCVT. -/
def execVcvt (sync : BitVec 4) (vd vs1 fmt : BitVec 5) (rnd : BitVec 2) (ovf inf : BitVec 1) (s : State) :
    Host.Outcome State Fault Refusal :=
  runVector (.vcvt sync vd vs1 fmt rnd ovf inf) sync vd [vs1] false (fun c => do
    let h ← c.shape .any
    let t ← Fmt.ofCode fmt
    if h.len * t.width ≤ 2048 then
      some (packLanes t.width ((lanesOf (c.vec vs1) h.fmt.width h.len).map fun a =>
        t.round (Rnd.ofCode rnd) (ovf == 1) (inf == 1) (h.fmt.decode true a)))
    else none) s

/-- VQNT. -/
def execVqnt (sync : BitVec 4) (vd vs1 vs2 : BitVec 5) (rnd : BitVec 2) (ovf inf : BitVec 1) (sopd : BitVec 3)
    (s : State) : Host.Outcome State Fault Refusal :=
  let o : VSrc := { code := vs2, sopd := sopd }
  runVector (.vqnt sync vd vs1 vs2 rnd ovf inf sopd) sync vd (vs1 :: o.vecs) (sopd == 2) (fun c => do
    let h ← c.shape .float
    let t ← h.narrow
    some (packLanes t.width (((lanesOf (c.vec vs1) h.fmt.width h.len).zip (o.lanes c h false)).map fun p =>
      t.round (Rnd.ofCode rnd) (ovf == 1) (inf == 1) ((h.fmt.decode true p.1).mul (h.fmt.decode true p.2))))) s

/-- VDQNT. -/
def execVdqnt (sync : BitVec 4) (vd vs1 vs2 : BitVec 5) (inf : BitVec 1) (sopd : BitVec 3) (s : State) :
    Host.Outcome State Fault Refusal :=
  let o : VSrc := { code := vs2, sopd := sopd }
  runVector (.vdqnt sync vd vs1 vs2 inf sopd) sync vd (vs1 :: o.vecs) (sopd == 2) (fun c => do
    let h ← c.shape .float
    let t ← h.narrow
    some (packLanes h.fmt.width (((lanesOf (c.vec vs1) t.width h.len).zip (o.lanes c h false)).map fun p =>
      h.fmt.round .rne true true
        (Fmt.bf16.decode true (dequant t (inf == 1) p.1 (roundBF16 (h.fmt.decode true p.2))))))) s

/-! ### Reductions (R163, R197) -/

/-- A reduction of the active lanes into lane 0. -/
def runReduce (i : Instr) (sync : BitVec 4) (vd vs1 : BitVec 5) (f : Fmt → List Nat → Nat) (s : State) :
    Host.Outcome State Fault Refusal :=
  runVector i sync vd [vs1] false (fun c => do
    let h ← c.shape .any
    some (packLanes h.fmt.width [f h.fmt (lanesOf (c.vec vs1) h.fmt.width h.len)])) s

/-- The sum of R163: a tree for float lanes, wrapping for integers. A NaN result is the produced code. -/
def sumLanes (f : Fmt) (l : List Nat) : Nat :=
  if f.isInt then l.foldl (· + ·) 0
  else f.round .rne true true (f.decode true (treeSum (fun a b =>
    f.round .rne true true ((f.decode true a).add .rne (f.decode true b))) 7 l))

/-- The extreme of the lanes; NaN if any float lane is NaN. -/
def extremeLanes (larger : Bool) (f : Fmt) (l : List Nat) : Nat :=
  let best (a b : Nat) : Nat :=
    if f.isInt then (if decide (signedOf f.width a ≤ signedOf f.width b) = larger then b else a)
    else minMaxLane larger f a b
  match l with
  | [] => 0
  | a :: rest => rest.foldl best (if f.decode true a = .nan then f.nan else a)

/-- VRSUM. -/
def execVrsum (sync : BitVec 4) (vd vs1 : BitVec 5) (s : State) : Host.Outcome State Fault Refusal :=
  runReduce (.vrsum sync vd vs1) sync vd vs1 sumLanes s

/-- VRMAX. -/
def execVrmax (sync : BitVec 4) (vd vs1 : BitVec 5) (s : State) : Host.Outcome State Fault Refusal :=
  runReduce (.vrmax sync vd vs1) sync vd vs1 (extremeLanes true) s

/-- VRMIN. -/
def execVrmin (sync : BitVec 4) (vd vs1 : BitVec 5) (s : State) : Host.Outcome State Fault Refusal :=
  runReduce (.vrmin sync vd vs1) sync vd vs1 (extremeLanes false) s

/-! ### Permutes (R198) -/

/-- A permute: from the lanes of vs1 and of the index operand. -/
def runPermute (i : Instr) (sync : BitVec 4) (vd vs1 vs2 : BitVec 5) (sopd : BitVec 3)
    (f : List Nat → List Nat → List Nat) (s : State) : Host.Outcome State Fault Refusal :=
  let o : VSrc := { code := vs2, sopd := sopd }
  runVector i sync vd (vs1 :: o.vecs) (sopd == 2) (fun c => do
    let h ← c.shape .any
    some (packLanes h.fmt.width (f (lanesOf (c.vec vs1) h.fmt.width h.len) (o.lanes c h true)))) s

/-- VPERM. -/
def execVperm (sync : BitVec 4) (vd vs1 vs2 : BitVec 5) (sopd : BitVec 3) (s : State) :
    Host.Outcome State Fault Refusal :=
  runPermute (.vperm sync vd vs1 vs2 sopd) sync vd vs1 vs2 sopd (fun a ix => ix.map fun j => a.getD j 0) s

/-- VBCAST. -/
def execVbcast (sync : BitVec 4) (vd vs1 vs2 : BitVec 5) (sopd : BitVec 3) (s : State) :
    Host.Outcome State Fault Refusal :=
  runPermute (.vbcast sync vd vs1 vs2 sopd) sync vd vs1 vs2 sopd
    (fun a ix => List.replicate a.length (a.getD (ix.headD 0) 0)) s

/-- VROT: lane i goes to lane (i + n) mod LEN. -/
def execVrot (sync : BitVec 4) (vd vs1 vs2 : BitVec 5) (sopd : BitVec 3) (s : State) :
    Host.Outcome State Fault Refusal :=
  runPermute (.vrot sync vd vs1 vs2 sopd) sync vd vs1 vs2 sopd (fun a ix =>
    let n := a.length
    (List.range n).map fun j => a.getD ((j + (n - ix.headD 0 % n)) % n) 0) s

/-- VEXT. -/
def execVext (sync : BitVec 4) (vd vs1 vs2 : BitVec 5) (sopd : BitVec 3) (s : State) :
    Host.Outcome State Fault Refusal :=
  runPermute (.vext sync vd vs1 vs2 sopd) sync vd vs1 vs2 sopd (fun a ix => [a.getD (ix.headD 0) 0]) s

/-! ### Moving data (R183, R199, R200) -/

/-- VRD: the 256 bytes at the head of a ring. A ring of Frit kind faults at once, also where it holds too few bytes, an order
that R199 leaves open (DESIGN CHOICE, assumption log 71). -/
def execVrd (sync : BitVec 4) (vd : BitVec 5) (ring : BitVec 4) (s : State) : Host.Outcome State Fault Refusal :=
  runWord (.vrd sync vd ring) .v sync (do
    needRoom vd
    let d := (← M.core).desc ring.toNat
    if d.isFrit then M.operandOpen
    M.until (256 ≤ d.avail) (.ringShort ring.toNat 256)
    let x := BitVec.ofNat 2048 (leNat (← readRing ring.toNat d.head 256))
    M.mapCore fun c => (c.setDesc ring.toNat (d.popBytes 256)).writeV vd x
    return .next) s

/-- VMOV. -/
def execVmov (sync : BitVec 4) (vd vs2 : BitVec 5) (sopd : BitVec 3) (s : State) : Host.Outcome State Fault Refusal :=
  let o : VSrc := { code := vs2, sopd := sopd }
  runVector (.vmov sync vd vs2 sopd) sync vd o.vecs (sopd == 2) (fun c =>
    if sopd = 0 then some (c.vec vs2)
    else do
      let h ← c.shape .any
      some (packLanes h.fmt.width (o.lanes c h false))) s

/-- VSHAPE: a refused value leaves VSHAPE and the queue as they are. -/
def execVshape (sync : BitVec 4) (vs2 : BitVec 5) (sopd : BitVec 3) (s : State) : Host.Outcome State Fault Refusal :=
  let o : VSrc := { code := vs2, sopd := sopd }
  runWord (.vshape sync vs2 sopd) .v sync (do
    needQueues [] (sopd == 2)
    let c ← M.core
    let x := o.scalar c
    if (Shape.ofWord x).isNone then M.operandOpen
    M.mapCore fun c => { c.popQueues [] (sopd == 2) with vshape := x }
    return .next) s

end Sys2Proof.Machine
end

