-- ==== Sys2Proof/Machine/Dispatch.lean ====
section
/-! DEFINITION. Dispatch: one arm per row of the opcode table, each one direct call of its meaning. -/

namespace Sys2Proof.Machine

/-- The meaning of every row of the table. -/
def exec (i : Instr) (s : State) : Host.Outcome State Fault Refusal :=
  match i with
  | .add gd gs1 gs2 => Sys2Proof.Machine.execAdd gd gs1 gs2 s
  | .sub gd gs1 gs2 => Sys2Proof.Machine.execSub gd gs1 gs2 s
  | .mul gd gs1 gs2 => Sys2Proof.Machine.execMul gd gs1 gs2 s
  | .mulh gd gs1 gs2 => Sys2Proof.Machine.execMulh gd gs1 gs2 s
  | .mulhu gd gs1 gs2 => Sys2Proof.Machine.execMulhu gd gs1 gs2 s
  | .madd gd gs1 gs2 => Sys2Proof.Machine.execMadd gd gs1 gs2 s
  | .div gd gs1 gs2 => Sys2Proof.Machine.execDiv gd gs1 gs2 s
  | .divu gd gs1 gs2 => Sys2Proof.Machine.execDivu gd gs1 gs2 s
  | .rem gd gs1 gs2 => Sys2Proof.Machine.execRem gd gs1 gs2 s
  | .remu gd gs1 gs2 => Sys2Proof.Machine.execRemu gd gs1 gs2 s
  | .and gd gs1 gs2 => Sys2Proof.Machine.execAnd gd gs1 gs2 s
  | .or gd gs1 gs2 => Sys2Proof.Machine.execOr gd gs1 gs2 s
  | .xor gd gs1 gs2 => Sys2Proof.Machine.execXor gd gs1 gs2 s
  | .andn gd gs1 gs2 => Sys2Proof.Machine.execAndn gd gs1 gs2 s
  | .shl gd gs1 gs2 => Sys2Proof.Machine.execShl gd gs1 gs2 s
  | .shr gd gs1 gs2 => Sys2Proof.Machine.execShr gd gs1 gs2 s
  | .sar gd gs1 gs2 => Sys2Proof.Machine.execSar gd gs1 gs2 s
  | .slt gd gs1 gs2 => Sys2Proof.Machine.execSlt gd gs1 gs2 s
  | .sltu gd gs1 gs2 => Sys2Proof.Machine.execSltu gd gs1 gs2 s
  | .min gd gs1 gs2 => Sys2Proof.Machine.execMin gd gs1 gs2 s
  | .max gd gs1 gs2 => Sys2Proof.Machine.execMax gd gs1 gs2 s
  | .minu gd gs1 gs2 => Sys2Proof.Machine.execMinu gd gs1 gs2 s
  | .maxu gd gs1 gs2 => Sys2Proof.Machine.execMaxu gd gs1 gs2 s
  | .clz gd gs1 => Sys2Proof.Machine.execClz gd gs1 s
  | .popc gd gs1 => Sys2Proof.Machine.execPopc gd gs1 s
  | .sel gd gs1 gs2 gc => Sys2Proof.Machine.execSel gd gs1 gs2 gc s
  | .addi gd gs1 imm => Sys2Proof.Machine.execAddi gd gs1 imm s
  | .andi gd gs1 imm => Sys2Proof.Machine.execAndi gd gs1 imm s
  | .ori gd gs1 imm => Sys2Proof.Machine.execOri gd gs1 imm s
  | .xori gd gs1 imm => Sys2Proof.Machine.execXori gd gs1 imm s
  | .slti gd gs1 imm => Sys2Proof.Machine.execSlti gd gs1 imm s
  | .sltiu gd gs1 imm => Sys2Proof.Machine.execSltiu gd gs1 imm s
  | .shli gd gs1 n => Sys2Proof.Machine.execShli gd gs1 n s
  | .shri gd gs1 n => Sys2Proof.Machine.execShri gd gs1 n s
  | .sari gd gs1 n => Sys2Proof.Machine.execSari gd gs1 n s
  | .bfx gd gs1 lsb width => Sys2Proof.Machine.execBfx gd gs1 lsb width s
  | .bfi gd gs1 lsb width => Sys2Proof.Machine.execBfi gd gs1 lsb width s
  | .lui gd imm => Sys2Proof.Machine.execLui gd imm s
  | .addpc gd imm => Sys2Proof.Machine.execAddpc gd imm s
  | .ldr gd imm => Sys2Proof.Machine.execLdr gd imm s
  | .bcc cond gs1 gs2 off => Sys2Proof.Machine.execBcc cond gs1 gs2 off s
  | .j off => Sys2Proof.Machine.execJ off s
  | .jl off => Sys2Proof.Machine.execJl off s
  | .jr gs1 imm => Sys2Proof.Machine.execJr gs1 imm s
  | .jlr gd gs1 imm => Sys2Proof.Machine.execJlr gd gs1 imm s
  | .loop gs1 len => Sys2Proof.Machine.execLoop gs1 len s
  | .loopi count len => Sys2Proof.Machine.execLoopi count len s
  | .rend => Sys2Proof.Machine.execRend s
  | .nop => Sys2Proof.Machine.execNop s
  | .yield => Sys2Proof.Machine.execYield s
  | .kread gd => Sys2Proof.Machine.execKread gd s
  | .pwin gd gs1 => Sys2Proof.Machine.execPwin gd gs1 s
  | .tkwait left right => Sys2Proof.Machine.execTkwait left right s
  | .tkpost left right => Sys2Proof.Machine.execTkpost left right s
  | .barInit gs1 gs2 => Sys2Proof.Machine.execBarInit gs1 gs2 s
  | .barArr gs1 => Sys2Proof.Machine.execBarArr gs1 s
  | .barArrDrop gs1 => Sys2Proof.Machine.execBarArrDrop gs1 s
  | .barArrJoin gs1 => Sys2Proof.Machine.execBarArrJoin gs1 s
  | .barWait gs1 => Sys2Proof.Machine.execBarWait gs1 s
  | .monarm gbase off => Sys2Proof.Machine.execMonarm gbase off s
  | .mwait gd gs1 gs2 => Sys2Proof.Machine.execMwait gd gs1 gs2 s
  | .mwaitW gd gs1 gs2 => Sys2Proof.Machine.execMwaitW gd gs1 gs2 s
  | .fence scope before after => Sys2Proof.Machine.execFence scope before after s
  | .fenceHb => Sys2Proof.Machine.execFenceHb s
  | .fenceStk => Sys2Proof.Machine.execFenceStk s
  | .ld gd gbase size order off => Sys2Proof.Machine.execLd gd gbase size order off s
  | .ldu gd gbase size order off => Sys2Proof.Machine.execLdu gd gbase size order off s
  | .st g gbase size order off => Sys2Proof.Machine.execSt g gbase size order off s
  | .ldq q gbase order off => Sys2Proof.Machine.execLdq q gbase order off s
  | .stq q gbase order off => Sys2Proof.Machine.execStq q gbase order off s
  | .pref level gbase off => Sys2Proof.Machine.execPref level gbase off s
  | .ipref target gbase off => Sys2Proof.Machine.execIpref target gbase off s
  | .clean gbase off => Sys2Proof.Machine.execClean gbase off s
  | .invl gbase off => Sys2Proof.Machine.execInvl gbase off s
  | .amoAdd gd gs1 gs2 size order => Sys2Proof.Machine.execAmoAdd gd gs1 gs2 size order s
  | .amoAnd gd gs1 gs2 size order => Sys2Proof.Machine.execAmoAnd gd gs1 gs2 size order s
  | .amoOr gd gs1 gs2 size order => Sys2Proof.Machine.execAmoOr gd gs1 gs2 size order s
  | .amoXor gd gs1 gs2 size order => Sys2Proof.Machine.execAmoXor gd gs1 gs2 size order s
  | .amoMin gd gs1 gs2 size order => Sys2Proof.Machine.execAmoMin gd gs1 gs2 size order s
  | .amoMax gd gs1 gs2 size order => Sys2Proof.Machine.execAmoMax gd gs1 gs2 size order s
  | .amoMinu gd gs1 gs2 size order => Sys2Proof.Machine.execAmoMinu gd gs1 gs2 size order s
  | .amoMaxu gd gs1 gs2 size order => Sys2Proof.Machine.execAmoMaxu gd gs1 gs2 size order s
  | .amoSwap gd gs1 gs2 size order => Sys2Proof.Machine.execAmoSwap gd gs1 gs2 size order s
  | .amoFadd gd gs1 gs2 order => Sys2Proof.Machine.execAmoFadd gd gs1 gs2 order s
  | .cas gd gs1 gs2 size order => Sys2Proof.Machine.execCas gd gs1 gs2 size order s
  | .qputV gs1 => Sys2Proof.Machine.execQputV gs1 s
  | .qputM gs1 => Sys2Proof.Machine.execQputM gs1 s
  | .qputX gs1 => Sys2Proof.Machine.execQputX gs1 s
  | .qget gd => Sys2Proof.Machine.execQget gd s
  | .rngset ga gb ring => Sys2Proof.Machine.execRngset ga gb ring s
  | .rngstat ga ring => Sys2Proof.Machine.execRngstat ga ring s
  | .sdset ga w ring => Sys2Proof.Machine.execSdset ga w ring s
  | .sdget ga w ring => Sys2Proof.Machine.execSdget ga w ring s
  | .epush ga port => Sys2Proof.Machine.execEpush ga port s
  | .epushEnd ga port => Sys2Proof.Machine.execEpushEnd ga port s
  | .epop ga port => Sys2Proof.Machine.execEpop ga port s
  | .epoll ga port => Sys2Proof.Machine.execEpoll ga port s
  | .estat ga port => Sys2Proof.Machine.execEstat ga port s
  | .tlocR ga gb mp => Sys2Proof.Machine.execTlocR ga gb mp s
  | .tlocD ga gb mp => Sys2Proof.Machine.execTlocD ga gb mp s
  | .tsmap ga gb mp => Sys2Proof.Machine.execTsmap ga gb mp s
  | .tmesh ga => Sys2Proof.Machine.execTmesh ga s
  | .reshard ga gb mps mpd => Sys2Proof.Machine.execReshard ga gb mps mpd s
  | .rstat ga gb => Sys2Proof.Machine.execRstat ga gb s
  | .smv ga gb ring => Sys2Proof.Machine.execSmv ga gb ring s
  | .sysr ga num => Sys2Proof.Machine.execSysr ga num s
  | .sysw ga num => Sys2Proof.Machine.execSysw ga num s
  | .ecall n => Sys2Proof.Machine.execEcall n s
  | .trap n => Sys2Proof.Machine.execTrap n s
  | .tret => Sys2Proof.Machine.execTret s
  | .tlbinvVa ga gb => Sys2Proof.Machine.execTlbinvVa ga gb s
  | .tlbinvPasid ga gb => Sys2Proof.Machine.execTlbinvPasid ga gb s
  | .tlbinvIpa ga gb => Sys2Proof.Machine.execTlbinvIpa ga gb s
  | .tlbinvPart ga gb => Sys2Proof.Machine.execTlbinvPart ga gb s
  | .tlbsync => Sys2Proof.Machine.execTlbsync s
  | .icinv ga mask => Sys2Proof.Machine.execIcinv ga mask s
  | .icinvAll ga mask => Sys2Proof.Machine.execIcinvAll ga mask s
  | .halt => Sys2Proof.Machine.execHalt s
  | .vadd sync vd vs1 vs2 rnd ovf sopd => Sys2Proof.Machine.execVadd sync vd vs1 vs2 rnd ovf sopd s
  | .vsub sync vd vs1 vs2 rnd ovf sopd => Sys2Proof.Machine.execVsub sync vd vs1 vs2 rnd ovf sopd s
  | .vmul sync vd vs1 vs2 rnd ovf sopd => Sys2Proof.Machine.execVmul sync vd vs1 vs2 rnd ovf sopd s
  | .vfma sync vd vs1 vs2 rnd ovf sopd => Sys2Proof.Machine.execVfma sync vd vs1 vs2 rnd ovf sopd s
  | .vfms sync vd vs1 vs2 rnd ovf sopd => Sys2Proof.Machine.execVfms sync vd vs1 vs2 rnd ovf sopd s
  | .vmin sync vd vs1 vs2 sopd => Sys2Proof.Machine.execVmin sync vd vs1 vs2 sopd s
  | .vmax sync vd vs1 vs2 sopd => Sys2Proof.Machine.execVmax sync vd vs1 vs2 sopd s
  | .vabs sync vd vs1 => Sys2Proof.Machine.execVabs sync vd vs1 s
  | .vneg sync vd vs1 => Sys2Proof.Machine.execVneg sync vd vs1 s
  | .vfrcp sync vd vs1 => Sys2Proof.Machine.execVfrcp sync vd vs1 s
  | .vfrsq sync vd vs1 => Sys2Proof.Machine.execVfrsq sync vd vs1 s
  | .vfexp2 sync vd vs1 => Sys2Proof.Machine.execVfexp2 sync vd vs1 s
  | .vflog2 sync vd vs1 => Sys2Proof.Machine.execVflog2 sync vd vs1 s
  | .vftanh sync vd vs1 => Sys2Proof.Machine.execVftanh sync vd vs1 s
  | .vcmpeq sync vd vs1 vs2 sopd => Sys2Proof.Machine.execVcmpeq sync vd vs1 vs2 sopd s
  | .vcmplt sync vd vs1 vs2 sopd => Sys2Proof.Machine.execVcmplt sync vd vs1 vs2 sopd s
  | .vcmple sync vd vs1 vs2 sopd => Sys2Proof.Machine.execVcmple sync vd vs1 vs2 sopd s
  | .vsel sync vd vs1 vs2 sopd => Sys2Proof.Machine.execVsel sync vd vs1 vs2 sopd s
  | .viadd sync vd vs1 vs2 sopd => Sys2Proof.Machine.execViadd sync vd vs1 vs2 sopd s
  | .visub sync vd vs1 vs2 sopd => Sys2Proof.Machine.execVisub sync vd vs1 vs2 sopd s
  | .vimul sync vd vs1 vs2 sopd => Sys2Proof.Machine.execVimul sync vd vs1 vs2 sopd s
  | .vimin sync vd vs1 vs2 sopd => Sys2Proof.Machine.execVimin sync vd vs1 vs2 sopd s
  | .vimax sync vd vs1 vs2 sopd => Sys2Proof.Machine.execVimax sync vd vs1 vs2 sopd s
  | .vand sync vd vs1 vs2 sopd => Sys2Proof.Machine.execVand sync vd vs1 vs2 sopd s
  | .vor sync vd vs1 vs2 sopd => Sys2Proof.Machine.execVor sync vd vs1 vs2 sopd s
  | .vxor sync vd vs1 vs2 sopd => Sys2Proof.Machine.execVxor sync vd vs1 vs2 sopd s
  | .vshl sync vd vs1 vs2 sopd => Sys2Proof.Machine.execVshl sync vd vs1 vs2 sopd s
  | .vshr sync vd vs1 vs2 sopd => Sys2Proof.Machine.execVshr sync vd vs1 vs2 sopd s
  | .vsar sync vd vs1 vs2 sopd => Sys2Proof.Machine.execVsar sync vd vs1 vs2 sopd s
  | .vcvt sync vd vs1 fmt rnd ovf inf => Sys2Proof.Machine.execVcvt sync vd vs1 fmt rnd ovf inf s
  | .vqnt sync vd vs1 vs2 rnd ovf inf sopd => Sys2Proof.Machine.execVqnt sync vd vs1 vs2 rnd ovf inf sopd s
  | .vdqnt sync vd vs1 vs2 inf sopd => Sys2Proof.Machine.execVdqnt sync vd vs1 vs2 inf sopd s
  | .vrsum sync vd vs1 => Sys2Proof.Machine.execVrsum sync vd vs1 s
  | .vrmax sync vd vs1 => Sys2Proof.Machine.execVrmax sync vd vs1 s
  | .vrmin sync vd vs1 => Sys2Proof.Machine.execVrmin sync vd vs1 s
  | .vperm sync vd vs1 vs2 sopd => Sys2Proof.Machine.execVperm sync vd vs1 vs2 sopd s
  | .vbcast sync vd vs1 vs2 sopd => Sys2Proof.Machine.execVbcast sync vd vs1 vs2 sopd s
  | .vrot sync vd vs1 vs2 sopd => Sys2Proof.Machine.execVrot sync vd vs1 vs2 sopd s
  | .vrd sync vd ring => Sys2Proof.Machine.execVrd sync vd ring s
  | .vmov sync vd vs2 sopd => Sys2Proof.Machine.execVmov sync vd vs2 sopd s
  | .vext sync vd vs1 vs2 sopd => Sys2Proof.Machine.execVext sync vd vs1 vs2 sopd s
  | .vshape sync vs2 sopd => Sys2Proof.Machine.execVshape sync vs2 sopd s
  | .vloop sync cn len => Sys2Proof.Machine.execVloop sync cn len s
  | .vbcc sync cond ca cb off => Sys2Proof.Machine.execVbcc sync cond ca cb off s
  | .vrend sync => Sys2Proof.Machine.execVrend sync s
  | .vnop sync => Sys2Proof.Machine.execVnop sync s
  | .vcli sync cd imm => Sys2Proof.Machine.execVcli sync cd imm s
  | .vcadd sync cd ca imm => Sys2Proof.Machine.execVcadd sync cd ca imm s
  | .mma sync acc sta stb ta tb ow pa pb last stamp => Sys2Proof.Machine.execMma sync acc sta stb ta tb ow pa pb last stamp s
  | .mmat sync acc sta stb ta tb ow pa pb last stamp => Sys2Proof.Machine.execMmat sync acc sta stb ta tb ow pa pb last stamp s
  | .mzero sync acc => Sys2Proof.Machine.execMzero sync acc s
  | .mdrain sync acc ring last => Sys2Proof.Machine.execMdrain sync acc ring last s
  | .mfill sync acc ring pa => Sys2Proof.Machine.execMfill sync acc ring pa s
  | .macc sync acc src => Sys2Proof.Machine.execMacc sync acc src s
  | .mstamp sync => Sys2Proof.Machine.execMstamp sync s
  | .mwin sync n => Sys2Proof.Machine.execMwin sync n s
  | .mloop sync cn len => Sys2Proof.Machine.execMloop sync cn len s
  | .mbcc sync cond ca cb off => Sys2Proof.Machine.execMbcc sync cond ca cb off s
  | .mrend sync => Sys2Proof.Machine.execMrend sync s
  | .mnop sync => Sys2Proof.Machine.execMnop sync s
  | .xtd sync td cb => Sys2Proof.Machine.execXtd sync td cb s
  | .xtdi sync td f imm => Sys2Proof.Machine.execXtdi sync td f imm s
  | .xcopy sync td ring ci => Sys2Proof.Machine.execXcopy sync td ring ci s
  | .xput sync td ring ci => Sys2Proof.Machine.execXput sync td ring ci s
  | .xcvt sync td ring ci fmt rnd ovf inf tr ts => Sys2Proof.Machine.execXcvt sync td ring ci fmt rnd ovf inf tr ts s
  | .xgath sync td ring ci sti => Sys2Proof.Machine.execXgath sync td ring ci sti s
  | .xscat sync td ring ci sti => Sys2Proof.Machine.execXscat sync td ring ci sti s
  | .xwopen sync td ring => Sys2Proof.Machine.execXwopen sync td ring s
  | .xwadv sync td ring ci => Sys2Proof.Machine.execXwadv sync td ring ci s
  | .xkvq sync td ring ci fmt rnd ovf => Sys2Proof.Machine.execXkvq sync td ring ci fmt rnd ovf s
  | .xfill sync td ring ci => Sys2Proof.Machine.execXfill sync td ring ci s
  | .xftl sync td table => Sys2Proof.Machine.execXftl sync td table s
  | .xpeer sync td ring ci => Sys2Proof.Machine.execXpeer sync td ring ci s
  | .xwait sync td => Sys2Proof.Machine.execXwait sync td s
  | .xwaitAll sync => Sys2Proof.Machine.execXwaitAll sync s
  | .xqget sync cd => Sys2Proof.Machine.execXqget sync cd s
  | .xcli sync cd imm => Sys2Proof.Machine.execXcli sync cd imm s
  | .xcadd sync cd ca imm => Sys2Proof.Machine.execXcadd sync cd ca imm s
  | .xcmul sync cd ca cb => Sys2Proof.Machine.execXcmul sync cd ca cb s
  | .xloop sync cn len => Sys2Proof.Machine.execXloop sync cn len s
  | .xbcc sync cond ca cb off => Sys2Proof.Machine.execXbcc sync cond ca cb off s
  | .xrend sync => Sys2Proof.Machine.execXrend sync s
  | .xnop sync => Sys2Proof.Machine.execXnop sync s
  | .notify fn queue value => Sys2Proof.Machine.execNotify fn queue value s
  | .queueMap die slot pqn => Sys2Proof.Machine.execQueueMap die slot pqn s
  | .queueUnmap die slot => Sys2Proof.Machine.execQueueUnmap die slot s
  | .commandFetch die slot => Sys2Proof.Machine.execCommandFetch die slot s
  | .nodeDispatch part => Sys2Proof.Machine.execNodeDispatch part s
  | .startJob part die => Sys2Proof.Machine.execStartJob part die s
  | .iterationRetirement core => Sys2Proof.Machine.execIterationRetirement core s
  | .nodeBoundary part => Sys2Proof.Machine.execNodeBoundary part s
  | .park core => Sys2Proof.Machine.execPark core s
  | .unpark core => Sys2Proof.Machine.execUnpark core s
  | .stopcore core => Sys2Proof.Machine.execStopcore core s
  | .savecore core => Sys2Proof.Machine.execSavecore core s
  | .restorecore core => Sys2Proof.Machine.execRestorecore core s
  | .corestart core => Sys2Proof.Machine.execCorestart core s
  | .rstore core => Sys2Proof.Machine.execRstore core s
  | .msend core => Sys2Proof.Machine.execMsend core s
  | .swrite core => Sys2Proof.Machine.execSwrite core s
  | .stab core => Sys2Proof.Machine.execStab core s
  | .stackSideProduct core => Sys2Proof.Machine.execStackSideProduct core s
  | .reshardPlan core => Sys2Proof.Machine.execReshardPlan core s
  | .reshardDigestTimeout die n => Sys2Proof.Machine.execReshardDigestTimeout die n s
  | .reshardPiece die n => Sys2Proof.Machine.execReshardPiece die n s
  | .ep3ArrivalPush die n => Sys2Proof.Machine.execEp3ArrivalPush die n s
  | .transferCompletion core n => Sys2Proof.Machine.execTransferCompletion core n s
  | .stepRetirement core => Sys2Proof.Machine.execStepRetirement core s
  | .decodeChunk core ring chunk => Sys2Proof.Machine.execDecodeChunk core ring chunk s
  | .l2Eviction node tile => Sys2Proof.Machine.execL2Eviction node tile s
  | .scrub node tile => Sys2Proof.Machine.execScrub node tile s
  | .stallFault core => Sys2Proof.Machine.execStallFault core s
  | .kilnTickBoundary => Sys2Proof.Machine.execKilnTickBoundary s
  | .trapEntry core => Sys2Proof.Machine.execTrapEntry core s
  | .drainTimeout core => Sys2Proof.Machine.execDrainTimeout core s
  | .asynchronousRecord core => Sys2Proof.Machine.execAsynchronousRecord core s
  | .arpop core value => Sys2Proof.Machine.execArpop core value s
  | .stateWindowAccess core write value => Sys2Proof.Machine.execStateWindowAccess core write value s
  | .pbench die part value => Sys2Proof.Machine.execPbench die part value s
  | .pnset die part value => Sys2Proof.Machine.execPnset die part value s
  | .vfbind vf value => Sys2Proof.Machine.execVfbind vf value s
  | .budgetRegisterWrite die part value => Sys2Proof.Machine.execBudgetRegisterWrite die part value s
  | .ntokWrite die value => Sys2Proof.Machine.execNtokWrite die value s
  | .scownWrite die index value => Sys2Proof.Machine.execScownWrite die index value s
  | .domcfgWrite die value => Sys2Proof.Machine.execDomcfgWrite die value s
  | .registerWrite fn offset value => Sys2Proof.Machine.execRegisterWrite fn offset value s
  | .keyGen die => Sys2Proof.Machine.execKeyGen die s
  | .keyDerive die => Sys2Proof.Machine.execKeyDerive die s
  | .keyImport die => Sys2Proof.Machine.execKeyImport die s
  | .keyExport die => Sys2Proof.Machine.execKeyExport die s
  | .keySweep die => Sys2Proof.Machine.execKeySweep die s
  | .keyRetire die => Sys2Proof.Machine.execKeyRetire die s
  | .keyZeroise die => Sys2Proof.Machine.execKeyZeroise die s
  | .attestationRequest fn => Sys2Proof.Machine.execAttestationRequest fn s
  | .retireCore => Sys2Proof.Machine.execRetireCore s
  | .retireBench => Sys2Proof.Machine.execRetireBench s
  | .retireChan => Sys2Proof.Machine.execRetireChan s
  | .retireLink => Sys2Proof.Machine.execRetireLink s
  | .fwupdate => Sys2Proof.Machine.execFwupdate s
  | .ckptBuddy => Sys2Proof.Machine.execCkptBuddy s
  | .ckptCxl => Sys2Proof.Machine.execCkptCxl s
  | .restoreBuddy => Sys2Proof.Machine.execRestoreBuddy s
  | .restoreCxl => Sys2Proof.Machine.execRestoreCxl s
  | .imageLoader => Sys2Proof.Machine.execImageLoader s
  | .boot => Sys2Proof.Machine.execBoot s
  | .readyTimeout => Sys2Proof.Machine.execReadyTimeout s
  | .thermalAction die degrees => Sys2Proof.Machine.execThermalAction die degrees s
  | .dieReset die => Sys2Proof.Machine.execDieReset die s
  | .pwrite n => Sys2Proof.Machine.execPwrite n s
  | .pread n => Sys2Proof.Machine.execPread n s
  | .rdata n => Sys2Proof.Machine.execRdata n s
  | .patom n => Sys2Proof.Machine.execPatom n s
  | .adata n => Sys2Proof.Machine.execAdata n s
  | .ack n => Sys2Proof.Machine.execAck n s
  | .nack n => Sys2Proof.Machine.execNack n s
  | .flitRetry die n => Sys2Proof.Machine.execFlitRetry die n s
  | .xlatreq n => Sys2Proof.Machine.execXlatreq n s
  | .xlatrsp n => Sys2Proof.Machine.execXlatrsp n s
  | .announce n => Sys2Proof.Machine.execAnnounce n s
  | .annack n => Sys2Proof.Machine.execAnnack n s
  | .ctrl n => Sys2Proof.Machine.execCtrl n s
  | .requestTimeout die msgid => Sys2Proof.Machine.execRequestTimeout die msgid s
  | .frame die port => Sys2Proof.Machine.execFrame die port s
  | .linkAcknowledgement die port ok => Sys2Proof.Machine.execLinkAcknowledgement die port ok s
  | .linkDown die port => Sys2Proof.Machine.execLinkDown die port s
  | .linkTraining die port => Sys2Proof.Machine.execLinkTraining die port s
  | .rekey die port => Sys2Proof.Machine.execRekey die port s
  | .atsInvalidation vf pasid base len => Sys2Proof.Machine.execAtsInvalidation vf pasid base len s
  | .pageRequestGroupClose n => Sys2Proof.Machine.execPageRequestGroupClose n s
  | .pageRequestResponse n code => Sys2Proof.Machine.execPageRequestResponse n code s
  | .storePerformed core n => Sys2Proof.Machine.execStorePerformed core n s
  | .queueEntryFill core q => Sys2Proof.Machine.execQueueEntryFill core q s
  | .softError node addr bit => Sys2Proof.Machine.execSoftError node addr bit s

end Sys2Proof.Machine
end

