-- ==== Sys2Proof/Machine/Router.lean ====
section
/-! DEFINITION. The router of a die: productive ports, slots, ages, and one cycle of it (R134, R135, R137). -/

namespace Sys2Proof.Machine

/-! ### Productive ports (R135) -/

/-- The ports of a die that lead to a node one hop nearer to a destination. -/
def State.productive (s : State) (die node : Nat) : List Nat :=
  (s.upPorts die).filter fun p => s.hopsVia die node p == s.distance die node

/-! ### Slots and ages (R134) -/

/-- Slots of a port in a cycle, in each direction, and the ejection slots of the local port. -/
def slotsOf (die port : Nat) (kiln : Nat) : Nat :=
  if (neighbour die port).isSome then (if kiln % 5 = 4 then 6 else 5)
  else if kiln % 10 = 0 ∨ kiln % 10 = 3 ∨ kiln % 10 = 6 then 2 else 1
def ejectSlots : Nat := 8
def localPort : Nat := 6

/-- Output slots of a port that are left in this cycle, of which `n` are taken: none on a port that is draining, and none
for CTR 2^48 − 2 (R385, R424). -/
def State.freeSlots (s : State) (die port n : Nat) : Nat :=
  let l := s.link die port
  if l.draining then 0 else min (slotsOf die port s.kiln.toNat - n) (lastCtr - l.ctr - l.opened.length)

/-- STAMP a is earlier than STAMP b. -/
def earlier (a b : BitVec 24) : Bool := decide (1 ≤ (b - a).toNat) && decide ((b - a).toNat ≤ 2 ^ 23)

/-- The fields that decide between flits of equal STAMP, in their order. -/
def Flit.order (f : Flit) : Nat :=
  (((f.src.toNat * 2 ^ 12 + f.dest.toNat) * 2 ^ 10 + f.msgid.toNat) * 2 ^ 6 + f.seq.toNat) * 2 ^ 4 + f.kind.toNat

/-- A flit is at least as old as another. -/
def Flit.older (f g : Flit) : Bool := if f.stamp = g.stamp then decide (f.order ≤ g.order) else earlier f.stamp g.stamp

/-! ### One cycle -/

/-- Where a router sends a flit in a cycle: to its die, over a port, by deflection where no productive port is free, or
nowhere, since no way leads to its destination (R134, R135). -/
inductive Way where
  | eject
  | port (p : Nat)
  | deflect (p : Nat)
  | lost
  deriving DecidableEq, Repr

/-- Slots taken in this cycle, by port. -/
abbrev Taken7 := Vector Nat 7

/-- The way of a flit at a router, where a slot is free for it; a flit that the router has received is deflected rather
than kept. -/
def State.wayOf (s : State) (die : Nat) (taken : Taken7) (transit : Bool) (f : Flit) : Option Way :=
  let free (p : Nat) : Bool := decide (0 < s.freeSlots die p (vget taken 0 p))
  if f.dest.toNat = s.nodeOf die ∧ vget taken 0 localPort < ejectSlots then some .eject
  else if f.dest.toNat = s.nodeOf die ∧ !transit then none
  else if !s.reachable die f.dest.toNat then some .lost
  else match (s.productive die f.dest.toNat).find? free with
    | some p => some (.port p)
    | none => if transit then ((s.upPorts die).find? free).map .deflect else none

/-- The slot that a way takes. -/
def Way.slot : Way → Option Nat
  | .eject => some localPort
  | .port p => some p
  | .deflect p => some p
  | .lost => none

/-- A flit put into a port's frame; one whose way leads to a node in reset is dropped (R416). -/
def State.sendFlit (s : State) (die port : Nat) (f : Flit) : State :=
  match neighbour die port with
  | some e =>
    if f.dest.toNat = s.nodeOf e ∧ (s.die e).inReset ∧ !f.routing then s.dropFlit
    else s.mapLink die port fun l => { l with opened := l.opened ++ [f] }
  | none => s.mapLink die port fun l => { l with opened := l.opened ++ [f] }

/-- A flit goes its way. -/
def State.goes (s : State) (die : Nat) (f : Flit) : Way → State
  | .eject => { s with net := s.net ++ [{ f with spot := .arrived }] }
  | .port p => s.sendFlit die p f
  | .deflect p => s.sendFlit die p f
  | .lost => s.lost die f

/-- A slot taken. -/
def Way.take (w : Way) (n : Taken7) : Taken7 := match w.slot with
  | some p => vset n p (vget n 0 p + 1)
  | none => n

/-- One flit that the router of a die has received. Those that it sends on are its transit flits, of which it counts the
deflected: a flit that it ejects is none (DESIGN CHOICE, assumption log 14). The link layer keeps a flit for which this
cycle has no slot. -/
def routeFlit (die : Nat) (acc : State × Taken7) (f : Flit) : State × Taken7 :=
  let s := acc.1
  match s.wayOf die acc.2 true f with
  | none => acc
  | some w =>
    let s := { s with net := s.net.erase f }
    let s := match w with
      | .port _ => s.mapDie die fun d => { d with transit := d.transit + 1 }
      | .deflect _ => s.mapDie die fun d => { d with transit := d.transit + 1, deflected := d.deflected + 1 }
      | _ => s
    (s.goes die f w, w.take acc.2)

/-- One injection candidate of a die injected, where a productive port, or for the die itself an ejection slot, is free. -/
def tryInject (die : Nat) (acc : State × Taken7) (f : Flit) : Option (State × Taken7) :=
  let s := acc.1
  if f.capped && !s.mayInject die f then none
  else (s.wayOf die acc.2 false f).map fun w => ((s.injected die f).goes die { f with stamp := s.stamp } w, w.take acc.2)

/-- An uncapped flit or a retry that is due. -/
def injectFlit (die : Nat) (acc : State × Taken7) (f : Flit) : State × Taken7 := (tryInject die acc f).getD acc

/-- Whether every uncapped candidate of a die and every due retry has been placed (R137). -/
def State.allPlaced (s : State) (die : Nat) : Bool :=
  !(s.net.any fun f => f.spot == .candidate die) && (s.die die).offers.1.isEmpty

/-- A new capped flit, with how many the cycle has injected: at level 3 one at most, once all else is placed (R137). -/
def injectNew (die : Nat) (acc : (State × Taken7) × Nat) (f : Flit) : (State × Taken7) × Nat :=
  let s := acc.1.1
  if (s.die die).throttle = 3 ∧ (!s.allPlaced die ∨ acc.2 ≠ 0) then acc
  else ((tryInject die acc.1 f).map fun t => (t, acc.2 + 1)).getD acc

/-- The flits of a cycle that the link layers of a die's ports release: of each port as many as it has slots. -/
def State.receivedBy (s : State) (die : Nat) : List Flit :=
  (List.range 6).flatMap fun p => (s.net.filter fun f => f.spot == .received die p).take (slotsOf die p s.kiln.toNat)

/-- RouterCycle() of R134: the received flits, oldest first, then the candidates in the order of R137. A frame closes at 16
flits, and when its port has no flit for this cycle (R383). -/
def State.routerCycle (s : State) (die : Nat) : State :=
  let t := (sortBy Flit.older (s.receivedBy die)).foldl (routeFlit die) (s, Vector.replicate 7 0)
  let old := (t.1.net.filter fun f => f.spot == .candidate die) ++ (t.1.die die).offers.1
  let t := old.foldl (injectFlit die) t
  let t := (((t.1.die die).offers.2).foldl (injectNew die) (t, 0)).1
  (List.range 6).foldl (fun s p =>
    if 16 ≤ (s.link die p).opened.length ∨ vget t.2 0 p = 0 then s.transmit die p true else s) t.1

/-- A router that has something to do. -/
def State.routerBusy (s : State) (die : Nat) : Bool :=
  (s.net.any fun f => match f.spot with
    | .candidate d => d == die
    | .received d _ => d == die
    | .arrived => false) || !(s.die die).formed.isEmpty || (s.die die).links.toList.any fun l => !l.opened.isEmpty

end Sys2Proof.Machine
end

