-- ==== Sys2Proof/Machine/Schedule.lean ====
section
/-! DEFINITION. Which stream and which events come next while the agenda names none: the streams of the running cores take
turns, and between them everything outstanding in the package goes on (assumption log 27). -/

namespace Sys2Proof.Machine

/-- Whether a core runs words at all. -/
def Core.runs (c : Core) : Bool := c.state != .free && c.state != .offline

/-- The core after a core, round the ring of those that run. -/
def State.nextCore (s : State) (k : Nat) : Nat :=
  let live := (s.cores.filter fun p => p.2.runs).map (·.1)
  match live.find? fun n => decide (k < n) with
  | some n => n
  | none => live.headD k

/-- The stream that takes its turn after a stream: round the ring of R18, then the next core. -/
def State.rotate (s : State) : State :=
  { s with turn := if s.turn.2 = .v then (s.nextCore s.turn.1, .s) else (s.turn.1, s.turn.2.right) }

/-- A core's outstanding work. -/
def Core.due (k : Nat) (c : Core) : List Due :=
  (List.range c.stores.length).map (.store k ·) ++
    ((List.range 4).filter (fun q => !(vget c.fills [] q).isEmpty)).map (.fill k ·) ++
    (List.range c.xfers.length).map (.xfer k ·) ++ c.steps.map (fun _ => .matrix k) ++
    ((List.range 5).filter fun n => !(vget c.ports {} n).fifo.isEmpty || (n == 1 && !(vget c.ports {} 1).active.isEmpty)).map
      (.engine k ·) ++
    (if c.products.isEmpty then [] else [.product k]) ++
    (if c.pending.isSome then [.trap k] else []) ++
    (if c.records.isEmpty then [] else [.record k]) ++ (if c.wrapped then [.stall k] else [])

/-- A die's outstanding work. -/
def Die.due (e : Nat) (d : Die) : List Due :=
  (d.slots.filter (fun p => p.2.cmd.isNone && decide (p.2.ridx.toNat < p.2.w.toNat))).map (fun p => .fetch e p.1) ++
    (d.reqs.filter (fun r => !r.retry.isEmpty)).map (fun r => .retry e r.msgid) ++
    d.reqs.map (fun r => .timeout e r.msgid) ++
    (if d.reshards.isEmpty then [] else [.reshard e]) ++
    (List.range d.reshards.length).map (.digest e ·) ++
    (List.range (d.cullet.filter (fun c => c.action == 1)).length).map (.arrival e ·) ++
    (if d.keycmd.isSome then [.key e] else [])

/-- A partition's dispatcher, or the walkers and the boundary of the node that runs. -/
def Part.due (n : Nat) (p : Part) : List Due :=
  if p.running.isSome then (List.range 4).map (.walk n ·) ++ [.boundary n]
  else if p.pnset.getLsbD 0 then [.dispatch n] else []

/-- Everything outstanding in the package. Flits are delivered from the last to the first, so that the places of the
others stand; iterations retire after the walkers have acted, so that a core is FREE from the next cycle (R82). -/
def State.due (s : State) : List Due :=
  ((List.range s.net.length).reverse.map .flit) ++ (([0, 1, 2, 3].filter s.routerBusy).map .router) ++ (s.cores.flatMap fun p => p.2.due p.1) ++
    (s.dies.toList.zipIdx.flatMap fun p => p.1.due p.2) ++ (s.parts.toList.zipIdx.flatMap fun p => p.1.due p.2) ++
    (s.inbox.map fun p => .frame (p.1 / 6) (p.1 % 6)) ++
    ([0, 1, 2, 3].flatMap fun d => ((List.range 6).filter fun p => !(s.link d p).unacked.isEmpty).map (.acks d ·)) ++ (s.groups.map fun g => .group g.id) ++
    ((s.fns.filter fun p => p.2.attBusy).map fun p => .attest p.1) ++
    (if s.service.busy.isSome then [.service] else []) ++ (if s.service.imgBusy then [.loader] else []) ++
    (if s.service.bootAt.isSome then [.boot] else []) ++
    ((List.range s.saves.length).filter fun n => ((s.saves[n]?).bind (·.image)).isSome).map .image ++
    ((s.cores.filter fun p => p.2.state == .rendezvous).map fun p => .iteration p.1)

/-- What follows a turn that the agenda did not order: the next stream. Once each stream of each running core has had its
turn, a cycle of the kiln counter passes and all that is outstanding has its turn. -/
def State.follow (s : State) : State :=
  let r := s.rotate
  if r.turn.2 = .s ∧ r.turn.1 ≤ s.turn.1 then { r.pass 1 with agenda := (r.pass 1).due.map .due } else r

/-- The core whose M stands at a timed step whose target cycle has come: it goes first (R214). -/
def State.timedDue (s : State) : Option Nat :=
  (s.cores.find? fun p => match vget p.2.hold .none 2 with
    | .timed t => p.2.runs && p.2.pending.isNone && decide (t.toNat ≤ s.kiln.toNat)
    | _ => false).map (·.1)

/-- Cycles until the first target of a timed step. -/
def State.untilTimed (s : State) (n : Nat) : Nat :=
  s.cores.foldl (fun m p => match vget p.2.hold .none 2 with
    | .timed t => if s.kiln.toNat < t.toNat then min m (t.toNat - s.kiln.toNat) else m
    | _ => m) n

end Sys2Proof.Machine
end

