-- ==== Sys2Proof/Machine/Run.lean ====
section
/-! DEFINITION. One turn of a stream: whether it may issue, fetching and decoding its word, and running it; and what the
environment of the package can do (R27, R28, R82, R391, R393). -/

namespace Sys2Proof.Machine

/-- Whether a stream of a core may act: its core runs it and no stop forbids it. A word
of S whose request, stamp or answer is out goes on during any stop (R286, R393). -/
def Core.mayIssue (c : Core) (st : Stream) : Bool :=
  let lives := match c.state with
    | .running => st == .s || c.pl == 0
    | .rendezvous => c.pl == 0
    | .trapped => st == .s && c.pl != 0
    | .free => false
    | .offline => false
  let out := match c.waitOf st with
    | .sc _ _ _ _ => true
    | .peer _ _ _ => true
    | .answered _ _ _ => true
    | _ => false
  let stop := match c.pending with
    | none => true
    | some p => out || (p.trap.stop == .drain && p.stream != some st && !vget c.stopped false st.code)
  lives && stop

/-- Fetch, decode and run the next word of the acting stream (R27). -/
def runNext (s : State) : Host.Outcome State Fault Refusal :=
  let st := s.turn.2
  match (fetchWord s.me st).run.run s with
  | (.error (.hold h), _) => .next (s.held st h)
  | (.error (.keep h), s') => .next (s'.held st h)
  | (.error (.trap t), s') => .next (s'.raise s.me (some st) t (s.core.pcOf st) 0)
  | (.ok w, s') =>
    match decode st w with
    | .ok i => if s'.core.flips.isEmpty then exec i s' else softWord i st w s' (exec i)
    | .error e =>
      .next (s'.raise s.me (some st) { cls := 0x01, sub := BitVec.ofNat 32 e.subcode } (s.core.pcOf st) w)

/-- What an agent does, unless its seal-tile accesses would pass a budget: it then waits until the budgets admit them (R130). -/
def gated (s : State) (who : Nat) (waits : State → State) (o : Host.Outcome State Fault Refusal) :
    Host.Outcome State Fault Refusal :=
  match o with
  | .next t => .next (if s.affords t who then t else waits (s.holdUnits who (s.refused t who)))
  | .fault e => .fault e
  | .refused e => .refused e

/-- What the acting stream does: it settles the posts it owes, or runs its next word, or stands (R19, R393). -/
def runStream (s : State) : Host.Outcome State Fault Refusal :=
  let st := s.turn.2
  let c := s.core
  if c.mayIssue st then
    if (c.settle st).2 then
      let c' := (c.settle st).1
      if c.owes st then
        .next ((s.putCore s.me c').held st (if vget c.arrived false st.code then .rend else .none))
      else if vget c.arrived false st.code then .next s
      else runNext s
    else .next ((s.putCore s.me (c.settle st).1).held st .postToken)
  else .next s

/-- One turn of the acting stream, which a budget can hold (R88, R130). -/
def runTurn (s : State) : Host.Outcome State Fault Refusal :=
  gated s (holdNo s.me s.turn.2.code) (fun t => t.held s.turn.2 (.device 15)) (runStream s)

/-- A program becomes resident once its LNRs pass the residency check; of a slot that fails it no node runs (R69, R78,
R79). -/
def State.makeResident (s : State) (part slot : Nat) (p : Program) : State :=
  let k := part * 64 + slot
  { s with programs := if p.ok then Tab.set s.programs k p else Tab.erase s.programs k }

/-- Firmware of a die writes the record of a parked invocation at a device physical address, 64-byte aligned, through its
reserved core (R408, R438). -/
def State.writeRecord (s : State) (die slot dpa : Nat) : State :=
  match s.slot die slot with
  | none => s
  | some q =>
    let p : Piece := {
      va := place 0xFE 56 ||| place dpa 0, place := .hbm (s.nodeOf die), addr := dpa, len := q.record.length, kind := .rc
      l1 := false, am := false, part := 0, key := 0, anyOwner := true }
    if q.parked ∧ dpa % 64 = 0 then s.lateWrite (homeAgent die) p q.record else s

/-- A line of an L1 evicted, written back where it is dirty (R258). -/
def State.evictL1 (s : State) (k line : Nat) : State :=
  match (s.coreAt k).l1.find? fun e => e.1 == line with
  | none => s
  | some e =>
    let s := if e.2 == .m || e.2 == .o then ((writeBack k line).run.run s).2 else s
    s.setL1 k line none

/-- What the environment does (R13, R69, R107, R134, R137, R250, R258, R265, R349, R359, R363, R429). PRI comes on only where
the record has the feature (R388). -/
def State.environment (s : State) (e : Env) : State :=
  match e with
  | .hostWrite hpa bs => s.writeBytes (Key.host hpa) bs none
  | .hostGrant g => { s with grants := g :: s.grants }
  | .hostRevoke fn page => { s with grants := s.grants.filter fun g => !(g.fn == fn && g.page == page) }
  | .hostPri fn n => s.mapFn fn fun f => { f with priOn := s.feature 1, priStopped := false, allowance := n, atomicOn := true }
  | .resident part slot p => s.makeResident part slot p
  | .evictProgram part slot => { s with programs := Tab.erase s.programs (part * 64 + slot) }
  | .arrive die port f => { s with inbox := s.inbox ++ [(portKey die port, f)] }
  | .transmit die port good => s.transmit die port good
  | .ready =>
    if s.service.bootAt.isSome ∧ s.service.reason = 0 then
      { s with service := { s.service with ready := true, bootAt := none }, always := { s.always with attempts := 0 } }
    else s
  | .record die slot dpa => s.writeRecord die slot dpa
  | .flash f => { s with flash := f }
  | .untrained ds => { s with untrained := ds }
  | .dropTlb k n => let c := s.coreAt k; s.putCore k { c with tlb := c.tlb.eraseIdx n }
  | .dropXtlb k n => let c := s.coreAt k; s.putCore k { c with xtlb := c.xtlb.eraseIdx n }
  | .dropBench b n => { s with bench := s.bench.map fun p => if p.1 = b then (p.1, p.2.eraseIdx n) else p }
  | .dropFetch k st va =>
    let c := s.coreAt k
    s.putCore k { c with icache := vset c.icache st.code ((vget c.icache [] st.code).filter fun l => l.va != va) }
  | .dropL1 k line => s.evictL1 k line
  | .wake k => let c := s.coreAt k; s.putCore k { c with monitor := c.monitor.trigger }
  | .cable die port node => s.mapLink die port fun l => { l with peer := some node }
  | .readRegister fn offset => { s with hostOut := s.hostOut ++ [.registerData fn offset (s.barRead fn offset)] }

/-- The OP of the command at the head of a port. -/
def Core.headOp (c : Core) (port : Nat) : Nat := ((c.head port).map (·.op)).getD 0

/-- The engine of a port takes the command at its head. -/
def runEngine (k port : Nat) (s : State) : Host.Outcome State Fault Refusal :=
  let op := (s.coreAt k).headOp port
  match port with
  | 0 => if op = 0x02 then execMsend k s else execRstore k s
  | 1 => execReshardPlan k s
  | 2 =>
    if ((s.coreAt k).head 2).any (·.isProduct) then execStackSideProduct k s
    else if op = 0x11 then execStab k s else execSwrite k s
  | 4 =>
    match op with
    | 0x31 => execSavecore k s
    | 0x32 => execRestorecore k s
    | 0x33 => execCorestart k s
    | 0x34 => execPark k s
    | 0x35 => execUnpark k s
    | _ => execStopcore k s
  | _ => .next s

/-- A flit in flight comes to its destination. -/
def runFlit (n : Nat) (s : State) : Host.Outcome State Fault Refusal :=
  match (s.net[n]?.map (·.kind.toNat)).getD 0 with
  | 1 => execPwrite n s
  | 2 => execPread n s
  | 3 => execRdata n s
  | 4 => execPatom n s
  | 5 => execAdata n s
  | 6 => execAck n s
  | 7 => execNack n s
  | 8 => execXlatreq n s
  | 9 => execXlatrsp n s
  | 10 => execAnnounce n s
  | 11 => execAnnack n s
  | 12 => execCtrl n s
  | _ => .next (s.dropReserved n)

/-- The key command of a die goes on. -/
def runKey (die : Nat) (s : State) : Host.Outcome State Fault Refusal :=
  match (((s.die die).keycmd.map fun x => bits x 63 60)).getD 0 with
  | 1 => execKeyGen die s
  | 2 => execKeyDerive die s
  | 3 => execKeyImport die s
  | 4 => execKeyExport die s
  | 5 => execKeySweep die s
  | 6 => execKeyRetire die s
  | 7 => execKeyZeroise die s
  | _ => .next s

/-- The service command goes on. -/
def runService (s : State) : Host.Outcome State Fault Refusal :=
  match ((s.service.busy.map svcOp)).getD 0 with
  | 0x01 => execRetireCore s
  | 0x02 => execRetireBench s
  | 0x03 => execRetireChan s
  | 0x04 => execRetireLink s
  | 0x10 => execFwupdate s
  | 0x20 => execCkptBuddy s
  | 0x21 => execCkptCxl s
  | 0x22 => execRestoreBuddy s
  | 0x23 => execRestoreCxl s
  | _ => .next s

/-- The agent whose accesses an event makes. -/
def agentOf (s : State) : Instr → Nat
  | .storePerformed k _ => holdNo k 4
  | .transferCompletion k _ => holdNo k 5
  | .stackSideProduct k => holdNo k 6
  | .queueEntryFill k _ => holdNo k 13
  | .rstore k | .msend k => holdNo k 8
  | .swrite k | .stab k => holdNo k 10
  | .savecore k | .restorecore k => holdNo k 12
  | .reshardPiece d _ => holdPieces d
  | .keySweep d => holdKeys d
  | .pwrite n | .pread n | .patom n | .xlatreq n =>
    match (s.net[n]?).bind fun f => s.dieOfNode f.dest.toNat with
    | some d => holdFlits d
    | none => holdOther
  | _ => holdOther

/-- The same for outstanding work. -/
def Due.agent (s : State) : Due → Nat
  | .store k _ => holdNo k 4
  | .fill k _ => holdNo k 13
  | .xfer k _ => holdNo k 5
  | .engine k port => holdNo k (8 + port)
  | .product k => holdNo k 6
  | .flit n =>
    match (s.net[n]?).bind fun f => s.dieOfNode f.dest.toNat with
    | some d => holdFlits d
    | none => holdOther
  | .reshard die => holdPieces die
  | .key die => holdKeys die
  | .service => holdService
  | _ => holdOther

/-- An event, which a budget can hold (R130). -/
def runEvent (i : Instr) (s : State) : Host.Outcome State Fault Refusal := gated s (agentOf s i) id (exec i s)

/-- Outstanding work goes on: the event of the table that it is. -/
def dueEvent (d : Due) (s : State) : Host.Outcome State Fault Refusal :=
  match d with
  | .store k n => execStorePerformed k n s
  | .fill k q => execQueueEntryFill k q s
  | .xfer k n => execTransferCompletion k n s
  | .matrix k => execStepRetirement k s
  | .engine k port => runEngine k port s
  | .product k => execStackSideProduct k s
  | .trap k =>
    if ((s.coreAt k).pending.map fun p => decide (p.trap.stop = .drain ∧ p.since.toNat + 4096 ≤ s.kiln.toNat)).getD false then
      execDrainTimeout k s
    else execTrapEntry k s
  | .record k => execAsynchronousRecord k s
  | .iteration k => execIterationRetirement k s
  | .stall k => execStallFault k s
  | .flit n => runFlit n s
  | .router die => .next (s.routerCycle die)
  | .acks die port => execLinkAcknowledgement die port (match farEnd die port with
      | some (e, q) => (s.link e q).discarding.isNone
      | none => true) s
  | .retry die n => execFlitRetry die n s
  | .timeout die n => execRequestTimeout die n s
  | .reshard die => execReshardPiece die 0 s
  | .digest die n => execReshardDigestTimeout die n s
  | .arrival die n => execEp3ArrivalPush die n s
  | .key die => runKey die s
  | .fetch die n => execCommandFetch die n s
  | .dispatch p => execNodeDispatch p s
  | .walk p die => execStartJob p die s
  | .boundary p => execNodeBoundary p s
  | .frame die port => execFrame die port s
  | .group n => execPageRequestGroupClose n s
  | .attest fn => execAttestationRequest fn s
  | .service => runService s
  | .loader => execImageLoader s
  | .boot => execReadyTimeout s
  | .image n => .next (s.resumeWaiting n)

/-- The same, which a budget can hold (R130). -/
def runDue (d : Due) (s : State) : Host.Outcome State Fault Refusal := gated s (d.agent s) id (dueEvent d s)

/-- An outcome's state changed, where it has one. -/
def after (o : Host.Outcome State Fault Refusal) (f : State → State) : Host.Outcome State Fault Refusal :=
  match o with
  | .next s => .next (f s)
  | .fault r => .fault r
  | .refused r => .refused r

/-- An instruction stored where a stream of a core fetches next, and the core made to run it (Sys2Proof/Machine/Step.lean,
withFetchWord). -/
def State.place (s : State) (st : Stream) (k : Nat) (w : Word) : State :=
  let c := s.coreAt k
  let pc := if bits (c.pcOf st) 63 56 = 0xFE then c.pcOf st &&& ~~~3#64 else 0xFE00000000000000
  let pl : BitVec 2 := if st == .s then 2 else 0
  let l := { c with pl := pl }.lineAt st pc ((w.setWidth 512) <<< (8 * (pc.toNat % 64)))
  { s.putCore k { c with
      state := .running, pl := pl, pending := none, xwait := .none, waiting := .none
      fwait := Vector.replicate 4 .none
      pc := vset c.pc st.code pc, arrived := vset c.arrived st.code false, owed := vset c.owed st.code 0, pend := 0
      icache := vset c.icache st.code [l] } with
    turn := (k, st), agenda := [] }

end Sys2Proof.Machine
end

