-- ==== Sys2Proof/Machine/Step.lean ====
section
/-! DEFINITION. One step of the package: the head of the agenda, or the next turn of the acting core's streams. -/

namespace Sys2Proof.Machine

/-- The step that an agenda orders. -/
def ordered (a : Agenda) (s : State) : Host.Outcome State Fault Refusal :=
  match a with
  | .run k st => after (runTurn { s with turn := (k, st) }) fun s => s.pass 1
  | .idle n =>
    let m := s.untilTimed n
    .next (State.pass (if m < n then { s with agenda := .idle (n - m) :: s.agenda } else s) m)
  | .event i => if encode i = none then after (runEvent i s) fun s => s.pass 1 else .next s
  | .due d => runDue d s
  | .env e => .next (s.environment e)

/-- One step: a timed step of M whose target cycle is now; else the head of the agenda; else the turn of the acting
stream. A turn or an event that the agenda orders takes a cycle of the kiln counter; a round of all streams takes one. -/
def step (s : State) : Host.Outcome State Fault Refusal :=
  match s.timedDue with
  | some k => after (runTurn { s with turn := (k, .m) }) fun t => { t with turn := s.turn }
  | none =>
    match s.agenda with
    | [] => after (runTurn s) State.follow
    | a :: rest => ordered a { s with agenda := rest }

/-- `s` with the instruction whose bits are `w` stored where the next step fetches it: core 0's S at PL2, or a stream of
core 1 for words of X, M and V (assumption log 2). -/
def State.withFetchWord (s : State) (_nbits w : Nat) : State :=
  let word := BitVec.ofNat 32 w
  match tableStream word with
  | some .s => s.place .s 0 word
  | some st => s.place st 1 word
  | none => s.place .s 0 word

end Sys2Proof.Machine
end

