-- ==== Sys2Proof/Safety.lean ====
section
/-! DEFINITION. What a safe step and a safe run are: neither faults nor is refused. -/

namespace Sys2Proof.Machine

/-- The step from a state answers a next state. -/
def State.safe (s : State) : Prop := ∃ t, step s = .next t

/-- `n` steps from a state all answer next states. -/
def State.safeFor : Nat → State → Prop
  | 0, _ => True
  | n + 1, s => ∃ t, step s = .next t ∧ t.safeFor n

end Sys2Proof.Machine
end

