-- ==== Sys2Proof/Certificates/Slice0/Obligations.lean ====
section
/-! DEFINITION. The statements for the provers: the spec's rules about what each row of the opcode table does, and the
invariants of the whole machine. -/

open Sys2Proof Sys2Proof.Machine

namespace Sys2Proof.Claim

/-- The destination and the value of a scalar word of S, as R173 to R180 give them over the integers. -/
def value (i : Instr) (c : Core) : Option (BitVec 5 × Dword) :=
  let u (r : BitVec 5) : Nat := (c.readG r).toNat
  let z (r : BitVec 5) : Int := (c.readG r).toInt
  let nat (n : Nat) : Dword := BitVec.ofNat 64 n
  let int (n : Int) : Dword := BitVec.ofInt 64 n
  match i with
  | .add gd a b => some (gd, int (z a + z b))
  | .sub gd a b => some (gd, int (z a - z b))
  | .mul gd a b => some (gd, int (z a * z b))
  | .mulh gd a b => some (gd, int ((z a * z b).fdiv (2 ^ 64)))
  | .mulhu gd a b => some (gd, nat (u a * u b / 2 ^ 64))
  | .madd gd a b => some (gd, int (z gd + z a * z b))
  | .div gd a b => some (gd, if u b = 0 then int (-1) else int ((z a).tdiv (z b)))
  | .divu gd a b => some (gd, if u b = 0 then nat (2 ^ 64 - 1) else nat (u a / u b))
  | .rem gd a b => some (gd, int (z a - z b * (z a).tdiv (z b)))
  | .remu gd a b => some (gd, if u b = 0 then nat (u a) else nat (u a - u b * (u a / u b)))
  | .and gd a b => some (gd, nat (u a &&& u b))
  | .or gd a b => some (gd, nat (u a ||| u b))
  | .xor gd a b => some (gd, nat (u a ^^^ u b))
  | .andn gd a b => some (gd, nat (u a &&& (2 ^ 64 - 1 - u b)))
  | .shl gd a b => some (gd, nat (u a * 2 ^ (u b % 64)))
  | .shr gd a b => some (gd, nat (u a / 2 ^ (u b % 64)))
  | .sar gd a b => some (gd, int ((z a).fdiv (2 ^ (u b % 64))))
  | .slt gd a b => some (gd, if z a < z b then 1 else 0)
  | .sltu gd a b => some (gd, if u a < u b then 1 else 0)
  | .min gd a b => some (gd, int (min (z a) (z b)))
  | .max gd a b => some (gd, int (max (z a) (z b)))
  | .minu gd a b => some (gd, nat (min (u a) (u b)))
  | .maxu gd a b => some (gd, nat (max (u a) (u b)))
  | .clz gd a => some (gd, nat ((List.range 64).countP fun n => u a < 2 ^ n))
  | .popc gd a => some (gd, nat ((List.range 64).map fun n => u a / 2 ^ n % 2).sum)
  | .sel gd a b gc => some (gd, if u gc ≠ 0 then nat (u a) else nat (u b))
  | .addi gd a imm => some (gd, int (z a + imm.toInt))
  | .andi gd a imm => some (gd, nat (u a &&& imm.toNat))
  | .ori gd a imm => some (gd, nat (u a ||| imm.toNat))
  | .xori gd a imm => some (gd, nat (u a ^^^ imm.toNat))
  | .slti gd a imm => some (gd, if z a < imm.toInt then 1 else 0)
  | .sltiu gd a imm => some (gd, if (u a : Int) < imm.toInt % 2 ^ 64 then 1 else 0)
  | .shli gd a n => some (gd, nat (u a * 2 ^ n.toNat))
  | .shri gd a n => some (gd, nat (u a / 2 ^ n.toNat))
  | .sari gd a n => some (gd, int ((z a).fdiv (2 ^ n.toNat)))
  | .bfx gd a lsb width => some (gd, nat (u a / 2 ^ lsb.toNat % 2 ^ width.toNat))
  | .bfi gd a lsb width => some (gd, nat (u gd / 2 ^ (lsb.toNat + width.toNat) * 2 ^ (lsb.toNat + width.toNat) +
      u a % 2 ^ width.toNat * 2 ^ lsb.toNat + u gd % 2 ^ lsb.toNat))
  | .lui gd imm => some (gd, int (imm.toInt * 4096))
  | .addpc gd imm => some (gd, int ((c.pcOf .s).toInt + imm.toInt * 4096))
  | _ => none

end Sys2Proof.Claim

/-- R173 to R180: a scalar word that computes a g register gives it the value of its rule, over the integers, and S goes on at the
next word; no operand makes one of them fault. R175: the encodings of the four division words. -/
def Obligations.ScalarValue : Prop :=
  (∀ (i : Instr) (s : State) (gd : BitVec 5) (x : Dword), i.wf = true →
    Claim.value i s.core = some (gd, x) →
    s.core.logRoom (gWrite gd + s.core.loopBack) = true →
    exec i s = .next (s.mapCore fun c => ((c.logWrites (gWrite gd + c.loopBack)).writeG gd x).advance .s .next)) ∧
  (∀ gd a b : BitVec 5,
    let word (func : Nat) : Option Word :=
      some (BitVec.ofNat 32 (2 ^ 25 + gd.toNat * 2 ^ 20 + a.toNat * 2 ^ 15 + b.toNat * 2 ^ 10 + func))
    encode (.div gd a b) = word 6 ∧ encode (.divu gd a b) = word 7 ∧ encode (.rem gd a b) = word 8 ∧
      encode (.remu gd a b) = word 9)


/-! ### Frames of the words that write one g register -/

namespace Sys2Proof.Claim

/-- A word of S that does no more than give a g register a value and go on (R169 to R180, R109, R110). -/
def valueWord (i : Instr) : Option (BitVec 5) :=
  match i with
  | .kread gd => some gd
  | .pwin gd _ => some gd
  | i => (value i {}).map (·.1)

end Sys2Proof.Claim

/-- R34, R169: a word that computes a g register changes that register, S's program counter, S's loop stack, the count of S's
words and what the stall counter and the log of R397 hold; every other register, every queue, every other core and every byte
of memory stand. A write to g0 changes no register. -/
def Obligations.ScalarFrame : Prop :=
  ∀ (i : Instr) (s t : State) (gd : BitVec 5), Claim.valueWord i = some gd → exec i s = .next t →
    t.mem = s.mem ∧ (∀ a, Memory.read t.mem a = Memory.read s.mem a) ∧
    { t with cores := s.cores } = s ∧ (∀ k, k ≠ s.me → t.coreAt k = s.coreAt k) ∧
    (∀ r, r ≠ gd → t.core.readG r = s.core.readG r) ∧ (gd = 0 → t.core.g = s.core.g) ∧
    { t.core with g := s.core.g, pc := s.core.pc, seq := s.core.seq, loops := s.core.loops, hold := s.core.hold,
                  stall := s.core.stall, logged := s.core.logged } = s.core ∧
    (∀ st, st ≠ Stream.s → t.core.pcOf st = s.core.pcOf st)

/-! ### Control flow -/

namespace Sys2Proof.Claim

/-- Cond(code, a, b) of R31, over the integers. -/
def cond (code : BitVec 4) (a b : Dword) : Bool :=
  if code = 0 then a.toNat == b.toNat
  else if code = 1 then a.toNat != b.toNat
  else if code = 2 then decide (a.toInt < b.toInt)
  else if code = 3 then decide (b.toInt ≤ a.toInt)
  else if code = 4 then decide (a.toNat < b.toNat)
  else if code = 5 then decide (b.toNat ≤ a.toNat)
  else if code = 6 then a &&& b != 0
  else a &&& b == 0

/-- The address `n` words after an address. -/
def words (pc : Dword) (n : Int) : Dword := BitVec.ofInt 64 (pc.toInt + 4 * n)

/-- A word of X, M or V whose waits stand: it takes their tokens, goes on as `k` says and posts its tokens (R19, R29); the
posts of a word of M wait behind the steps before it (R19, R205). -/
def issued (s : State) (st : Stream) (sync : BitVec 4) (f : Core → Core) (k : Ctl) : State :=
  s.mapCore fun c =>
    if st = .m ∧ postBits sync ≠ 0 ∧ c.steps ≠ [] then (((f c).postBehind (postBits sync)).take st sync).advance st k
    else (((f c).take st sync).advance st k).postOrOwe st (postBits sync)

/-- What a word of X, M or V needs before its effect: its tokens (R29). -/
def mayStart (s : State) (st : Stream) (sync : BitVec 4) : Prop := s.core.tokens st sync = true

end Sys2Proof.Claim

/-- R31, R95: a conditional branch goes to its target exactly where its condition holds of its two registers, else to the next
word; it writes no register. Condition codes 8 to 15 are reserved: no well-formed word has one. J and JL go to their label and
JR and JLR to gs1 plus four times imm; JL leaves the address of the next word in g1 and JLR in gd, its target formed before gd
is written. A target of JR or JLR that is not a multiple of four raises class 0x09 at the jump, and nothing is written. -/
def Obligations.Branches : Prop :=
  (∀ (code : BitVec 4) (sync a b : BitVec 4) (c d : BitVec 5), 8 ≤ code.toNat →
    (∀ off, (Instr.bcc code c d off).wf = false) ∧ (∀ off, (Instr.vbcc sync code a b off).wf = false) ∧
    (∀ off, (Instr.mbcc sync code a b off).wf = false) ∧ (∀ off, (Instr.xbcc sync code a b off).wf = false)) ∧
  (∀ (s : State) (code : BitVec 4), code.toNat < 8 →
    (∀ (a b : BitVec 5) (off : BitVec 11),
      let c := s.core
      let taken := Claim.cond code (c.readG a) (c.readG b)
      let k : Ctl := if taken then .branch (Claim.words c.spc off.toInt) else .next
      let n := if taken then 0 else c.loopBack
      c.logRoom n = true →
      exec (.bcc code a b off) s = .next (s.mapCore fun c => (c.logWrites n).advance .s k)) ∧
    (∀ (sync a b : BitVec 4) (off : BitVec 10),
      let k : Ctl := if Claim.cond code (s.core.readC .v a) (s.core.readC .v b)
        then .branch (Claim.words (s.core.pcOf .v) off.toInt) else .next
      Claim.mayStart s .v sync → exec (.vbcc sync code a b off) s = .next (Claim.issued s .v sync id k)) ∧
    (∀ (sync a b : BitVec 4) (off : BitVec 12),
      let k : Ctl := if Claim.cond code (s.core.readC .m a) (s.core.readC .m b)
        then .branch (Claim.words (s.core.pcOf .m) off.toInt) else .next
      Claim.mayStart s .m sync → exec (.mbcc sync code a b off) s = .next (Claim.issued s .m sync id k)) ∧
    (∀ (sync a b : BitVec 4) (off : BitVec 8),
      let k : Ctl := if Claim.cond code (s.core.readC .x a) (s.core.readC .x b)
        then .branch (Claim.words (s.core.pcOf .x) off.toInt) else .next
      Claim.mayStart s .x sync → exec (.xbcc sync code a b off) s = .next (Claim.issued s .x sync id k))) ∧
  (∀ (s : State),
    let c := s.core
    let reg (a : BitVec 5) (imm : BitVec 15) : Dword := BitVec.ofInt 64 ((c.readG a).toInt + 4 * imm.toInt)
    (∀ off : BitVec 25, c.logRoom 0 = true →
      exec (.j off) s = .next (s.mapCore fun c => (c.logWrites 0).advance .s (.branch (Claim.words c.spc off.toInt)))) ∧
    (∀ off : BitVec 25, c.logRoom 1 = true →
      exec (.jl off) s = .next (s.mapCore fun c =>
        ((c.writeG 1 (c.spc + 4)).logWrites 1).advance .s (.call (Claim.words c.spc off.toInt)))) ∧
    (∀ (a : BitVec 5) (imm : BitVec 15), c.logRoom 0 = true →
      exec (.jr a imm) s = .next (if (reg a imm).toNat % 4 = 0
        then s.mapCore fun c => (c.logWrites 0).advance .s (.branch (reg a imm))
        else s.raise s.me (some .s) { cls := 0x09 } c.spc (wordOf (.jr a imm)))) ∧
    (∀ (gd a : BitVec 5) (imm : BitVec 15), c.logRoom (gWrite gd) = true →
      exec (.jlr gd a imm) s = .next (if (reg a imm).toNat % 4 = 0
        then s.mapCore fun c => ((c.writeG gd (c.spc + 4)).logWrites (gWrite gd)).advance .s (.call (reg a imm))
        else s.raise s.me (some .s) { cls := 0x09 } c.spc (wordOf (.jlr gd a imm)))))

/-- R97, R392: after a word that neither branches nor starts a loop, the stream goes on at the next word; where that is the end
of the innermost loop it goes back to the loop's first word (a multiple of four, as any PC is, R25) while iterations remain, and otherwise the loop is popped and the
enclosing one tested in the same way (a stack holds at most six entries, R97). The count of the stream's words rises by one,
and no other stream's does. R97, R98: a branch goes to its target and leaves every innermost loop whose body holds the branch and not the target; a
call leaves the stack as it is. -/
def Obligations.StreamAddress : Prop :=
  (∀ (c : Core) (st : Stream), (c.loop st).depth.toNat ≤ 6 →
    let l := c.loop st
    let n := c.pcOf st + 4
    let t := c.advance st .next
    (l.depth = 0 ∨ l.top.past ≠ n → t.pcOf st = n ∧ t.loop st = l) ∧
    (l.depth ≠ 0 → l.top.past = n → 1 < l.top.rem.toNat →
      (l.top.first.toNat % 4 = 0 → t.pcOf st = l.top.first) ∧ (t.loop st).depth = l.depth ∧ (t.loop st).top = { l.top with rem := l.top.rem - 1 } ∧
      (∀ i, i + 1 ≠ l.depth.toNat → (t.loop st).get i = l.get i)) ∧
    (l.depth ≠ 0 → l.top.past = n → l.top.rem.toNat ≤ 1 →
      let u := (c.setLoop st { l with depth := l.depth - 1 }).advance st .next
      t.pcOf st = u.pcOf st ∧ t.loop st = u.loop st) ∧
    vget t.seq 0 st.code = vget c.seq 0 st.code + 1 ∧
    (∀ st', st' ≠ st → vget t.seq 0 st'.code = vget c.seq 0 st'.code ∧ t.pcOf st' = c.pcOf st')) ∧
  (∀ (c : Core) (st : Stream) (dest : Dword), (c.loop st).depth.toNat ≤ 6 →
    let l := c.loop st
    let inside (x : Dword) : Prop := l.top.first.toNat ≤ x.toNat ∧ x.toNat < l.top.past.toNat
    let t := c.advance st (.branch dest)
    t.pcOf st = dest ∧ (c.advance st (.call dest)).pcOf st = dest ∧ (c.advance st (.call dest)).loop st = l ∧
    (l.depth = 0 ∨ ¬ inside (c.pcOf st) ∨ inside dest → t.loop st = l) ∧
    (l.depth ≠ 0 → inside (c.pcOf st) → ¬ inside dest →
      t.loop st = ((c.setLoop st { l with depth := l.depth - 1 }).advance st (.branch dest)).loop st))

namespace Sys2Proof.Claim

/-- What a loop word of R97 needs: its count below 2^32, its end within the enclosing loop, and room on the stack unless its
count is 0. -/
def loopAccepted (l : LoopStack) (a count : Dword) (len : Nat) : Prop :=
  count.toNat < 2 ^ 32 ∧ (l.depth ≠ 0 → (a + 4 + 4 * BitVec.ofNat 64 len).toNat ≤ l.top.past.toNat) ∧
    (count ≠ 0 → l.depth.toNat < 6)

/-- The stack and the address that a loop word leaves (R97): an entry pushed and the first word of the body, or, with a count
of 0, what the end test finds at the end of the body. -/
def loopTaken (l : LoopStack) (a count : Dword) (len : Nat) : LoopStack × Dword :=
  let past := a + 4 + 4 * BitVec.ofNat 64 len
  if count = 0 then l.endTest 7 past
  else ({ depth := l.depth + 1, ent := vset l.ent l.depth.toNat { first := a + 4, past := past, rem := count } }, a + 4)

/-- How a loop word leaves its stream. -/
def loopCtl (c : Core) (st : Stream) (count : Dword) (len : Nat) : Ctl :=
  .looped (loopTaken (c.loop st) (c.pcOf st) count len).1 (loopTaken (c.loop st) (c.pcOf st) count len).2

/-- What the loop words of X, M and V do. -/
def loopWord (i : Instr) (s : State) (st : Stream) (sync : BitVec 4) (count : Dword) (len : Nat) : Prop :=
  mayStart s st sync →
  (loopAccepted (s.core.loop st) (s.core.pcOf st) count len →
    exec i s = .next (issued s st sync id (loopCtl s.core st count len))) ∧
  (¬ loopAccepted (s.core.loop st) (s.core.pcOf st) count len →
    exec i s = .next (s.raise s.me (some st) { cls := 0x0A } (s.core.pcOf st) (wordOf i)))

/-- What the loop words of S do. -/
def loopWordS (i : Instr) (s : State) (count : Dword) (len : Nat) : Prop :=
  s.core.logRoom (loopWrites count len s.core) = true →
  (loopAccepted (s.core.loop .s) (s.core.pcOf .s) count len →
    exec i s = .next (s.mapCore fun c =>
      (c.logWrites (loopWrites count len c)).advance .s (loopCtl s.core .s count len))) ∧
  (¬ loopAccepted (s.core.loop .s) (s.core.pcOf .s) count len →
    exec i s = .next (s.raise s.me (some .s) { cls := 0x0A } (s.core.pcOf .s) (wordOf i)))

end Sys2Proof.Claim

/-- R96, R97: a loop word pushes an entry and goes on at the first word of its body, skips the body where its count is 0, and
raises the loop fault (class 0x0A) where its count is 2^32 or more, its end lies past the enclosing loop's, or the stack of six
is full. -/
def Obligations.LoopWords : Prop :=
  ∀ (s : State),
    (∀ (a : BitVec 5) (len : BitVec 15), Claim.loopWordS (.loop a len) s (s.core.readG a) len.toNat) ∧
    (∀ (count len : BitVec 10), Claim.loopWordS (.loopi count len) s (BitVec.ofNat 64 count.toNat) len.toNat) ∧
    (∀ (sync cn : BitVec 4) (len : BitVec 10),
      Claim.loopWord (.vloop sync cn len) s .v sync (s.core.readC .v cn) len.toNat ∧
      Claim.loopWord (.mloop sync cn len) s .m sync (s.core.readC .m cn) len.toNat ∧
      Claim.loopWord (.xloop sync cn len) s .x sync (s.core.readC .x cn) len.toNat)

/-- R99: XCLI and VCLI give a c register of their stream a signed constant, XCADD and VCADD a c register plus one, and XCMUL a
product, modulo 2^64; they change no other register. -/
def Obligations.ControlRegisters : Prop :=
  ∀ (s : State) (sync cd ca cb : BitVec 4),
    (Claim.mayStart s .x sync →
      let gives (i : Instr) (x : Int) : Prop := exec i s = .next (Claim.issued s .x sync
        (fun c => { c with cx := vset c.cx cd.toNat (BitVec.ofInt 64 x) }) .next)
      let z (r : BitVec 4) : Int := (vget s.core.cx 0 r.toNat).toInt
      (∀ imm, gives (.xcli sync cd imm) imm.toInt) ∧ (∀ imm, gives (.xcadd sync cd ca imm) (z ca + imm.toInt)) ∧
        gives (.xcmul sync cd ca cb) (z ca * z cb)) ∧
    (Claim.mayStart s .v sync →
      let gives (i : Instr) (x : Int) : Prop := exec i s = .next (Claim.issued s .v sync
        (fun c => { c with cv := vset c.cv cd.toNat (BitVec.ofInt 64 x) }) .next)
      (∀ imm, gives (.vcli sync cd imm) imm.toInt) ∧
        (∀ imm, gives (.vcadd sync cd ca imm) ((vget s.core.cv 0 ca.toNat).toInt + imm.toInt)))

/-- R101: NOP, YIELD, XNOP, MNOP and VNOP only go on to the next word, XNOP, MNOP and VNOP with their sync bits. -/
def Obligations.NoOps : Prop :=
  ∀ (s : State) (sync : BitVec 4),
    (s.core.logRoom s.core.loopBack = true →
      exec .nop s = .next (s.mapCore fun c => (c.logWrites c.loopBack).advance .s .next) ∧
      exec .yield s = .next (s.mapCore fun c => (c.logWrites c.loopBack).advance .s .next)) ∧
    (Claim.mayStart s .x sync → exec (.xnop sync) s = .next (Claim.issued s .x sync id .next)) ∧
    (Claim.mayStart s .m sync → exec (.mnop sync) s = .next (Claim.issued s .m sync id .next)) ∧
    (Claim.mayStart s .v sync → exec (.vnop sync) s = .next (Claim.issued s .v sync id .next))

namespace Sys2Proof.Claim

/-- A core one of whose streams stands at REND: the first of them makes it RENDEZVOUS (R82). -/
def rendezvous (c : Core) : Core := if c.state = .running then { c with state := .rendezvous } else c

end Sys2Proof.Claim

/-- R82, R98, R100: a stream that issues its REND word stands at that word with its loop stack empty, and the first stream of a
RUNNING core to do so makes the core RENDEZVOUS. -/
def Obligations.Rendezvous : Prop :=
  ∀ (s : State) (sync : BitVec 4),
    (s.core.untaken = false →
      exec .rend s = .next (s.mapCore fun c => (Claim.rendezvous c).advance .s .arrive)) ∧
    (Claim.mayStart s .x sync → exec (.xrend sync) s = .next (Claim.issued s .x sync Claim.rendezvous .arrive)) ∧
    (Claim.mayStart s .m sync → exec (.mrend sync) s = .next (Claim.issued s .m sync Claim.rendezvous .arrive)) ∧
    (Claim.mayStart s .v sync → exec (.vrend sync) s = .next (Claim.issued s .v sync Claim.rendezvous .arrive)) ∧
    (∀ (c : Core) (st : Stream), let t := c.advance st .arrive
      t.pcOf st = c.pcOf st ∧ (t.loop st).depth = 0 ∧ vget t.arrived false st.code = true ∧ t.state = c.state)

/-! ### The kiln counter, power windows, tokens, barriers and monitors -/

namespace Sys2Proof.Claim

/-- A word of S that writes one g register and goes on. -/
def wrote (s : State) (gd : BitVec 5) (x : Dword) : State :=
  s.mapCore fun c => ((c.logWrites (gWrite gd + c.loopBack)).writeG gd x).advance .s .next

/-- A word of S that goes on. -/
def gone (s : State) : State := s.mapCore fun c => c.advance .s .next

/-- Bench `b` holds window `w` by token `k` of `n` (R110). -/
def holdsWindow (n b w k : Nat) : Prop := k < n ∧ ((b : Int) - w) % 16 = (k * 16 / n : Nat)

end Sys2Proof.Claim

/-- R109, R110: KREAD writes the kiln counter. PWIN writes HELD (bit 63: whether a token of the die gives the core's bench the
window of the kiln value in gs1), N, K (that token), THR and DELTA (to the next window the bench holds). -/
def Obligations.KilnWords : Prop :=
  ∀ (s : State) (gd a : BitVec 5), s.core.logRoom (gWrite gd + s.core.loopBack) = true →
    exec (.kread gd) s = .next (Claim.wrote s gd s.kiln) ∧
    ∃ x : Dword, exec (.pwin gd a) s = .next (Claim.wrote s gd x) ∧
      let d := s.die (dieOf s.me)
      let n := d.ntok.toNat
      let t := (s.core.readG a).toNat
      let bench := s.me / 16 % 16
      1 ≤ n → n ≤ 16 → d.throttle ≤ 3 →
        bits x 62 58 = n ∧ bits x 53 52 = d.throttle ∧ bits x 51 13 = 0 ∧
        (bits x 63 63 = 1 ↔ ∃ k, Claim.holdsWindow n bench (t / 256) k) ∧
        (bits x 63 63 = 1 → Claim.holdsWindow n bench (t / 256) (bits x 57 54)) ∧
        (bits x 63 63 = 0 → bits x 57 54 = 0) ∧
        (∀ w k, t / 256 < w → Claim.holdsWindow n bench w k →
          (∀ v j, t / 256 < v → v < w → ¬ Claim.holdsWindow n bench v j) → bits x 12 0 = 256 * w - t)

namespace Sys2Proof.Claim

/-- A FIFO of TKCNT (R395) holds a token, or has room for one, that stood when the cycle started: what the cycle has put in is
not yet there, and the places of what it has taken out are not yet free (R19). -/
def hasToken (c : Core) (f : Nat) : Prop := (vget c.fresh 0 f).toNat < c.count f
def hasRoom (c : Core) (f : Nat) : Prop := c.count f + (vget c.gone 0 f).toNat < 16

/-- A token taken from a FIFO, or put into it, in this cycle. -/
def takeToken (c : Core) (f : Nat) : Core :=
  { c with tok := vset c.tok f (vget c.tok 0 f - 1), gone := vset c.gone f (vget c.gone 0 f + 1) }
def putToken (c : Core) (f : Nat) : Core :=
  { c with tok := vset c.tok f (vget c.tok 0 f + 1), fresh := vset c.fresh f (vget c.fresh 0 f + 1) }

end Sys2Proof.Claim

/-- R18, R19, R102: TKWAIT takes one token from the FIFO of each neighbour it names, V→S on the left and X→S on the right, and
holds with nothing taken while one of them is empty; TKPOST, a release of S's accesses, adds one to S→V and S→X once those are
performed and where they have room for all it posts. Counts are those of the start of the cycle. -/
def Obligations.TokenWords : Prop :=
  ∀ (s : State) (l r : BitVec 1), s.core.state ≠ .trapped → s.core.untaken = false →
    let c := s.core
    ((l = 1 → Claim.hasToken c 6) → (r = 1 → Claim.hasToken c 1) →
      exec (.tkwait l r) s = .next (s.mapCore fun c =>
        let c := if l = 1 then Claim.takeToken c 6 else c
        let c := if r = 1 then Claim.takeToken c 1 else c
        c.advance .s .next)) ∧
    ((l = 1 ∧ ¬ Claim.hasToken c 6) ∨ (r = 1 ∧ ¬ Claim.hasToken c 1) →
      exec (.tkwait l r) s = .next (s.held .s (.waitToken (l ++ r ++ 0#2)))) ∧
    (c.performed = false → exec (.tkpost l r) s = .next (s.held .s (.device 12))) ∧
    (c.performed = true → (l = 1 → Claim.hasRoom c 7) → (r = 1 → Claim.hasRoom c 0) →
      exec (.tkpost l r) s = .next (s.mapCore fun c =>
        let c := c.advance .s .next
        let c := if l = 1 then Claim.putToken c 7 else c
        if r = 1 then Claim.putToken c 0 else c)) ∧
    (c.performed = true → (l = 1 ∧ ¬ Claim.hasRoom c 7) ∨ (r = 1 ∧ ¬ Claim.hasRoom c 0) →
      exec (.tkpost l r) s = .next (s.mapCore fun c =>
        let c := c.advance .s .next
        { c with owed := vset c.owed 0 (l ++ r) }))

namespace Sys2Proof.Claim

/-- The core and the barrier that a name names (R103). -/
def barrierCore (s : State) (name : Dword) : Nat := if bit name 13 then s.me else s.me / 128 * 128 + bits name 12 6
def barrierIndex (name : Dword) : Nat := bits name 5 0

/-- A barrier name without an operand error (R103). -/
def barrierName (name : Dword) : Prop :=
  bits name 63 14 = 0 ∧ bits name 5 0 < 48 ∧ (bit name 13 = true → bits name 12 6 = 0)

/-- The barrier of a name. -/
def barrierOf (s : State) (name : Dword) : Barrier := (s.coreAt (barrierCore s name)).barrier (barrierIndex name)

/-- The state with the barrier of a name changed, and S gone on. -/
def barrierSet (s : State) (name : Dword) (b : Barrier) : State :=
  let k := barrierCore s name
  gone (s.putCore k { s.coreAt k with bar := vset (s.coreAt k).bar (barrierIndex name) b })

/-- Complete(B) of R105. -/
def complete (b : Barrier) : Barrier := if b.arr = b.exp then { b with arr := 0, cmp := b.cmp + 1 } else b

/-- What a barrier word needs: no handler runs it, no command is untaken, and it names a barrier of a worker core of the
partition (R103, R397, R398). -/
def barrierReady (s : State) (name : Dword) : Prop :=
  s.core.state ≠ .trapped ∧ s.core.untaken = false ∧ barrierName name ∧ s.owns s.core.part (barrierCore s name) = true

/-- The trap of a word of S. -/
def trapped (s : State) (i : Instr) (t : Trap) : State := s.raise s.me (some .s) t s.core.spc (wordOf i)

end Sys2Proof.Claim

/-- R103 to R106: what BAR.INIT, BAR.ARR, BAR.ARR.DROP, BAR.ARR.JOIN and BAR.WAIT make of the barrier they name. An arrival
holds until S's earlier accesses are performed. R103, R105, R398: where the barrier words trap. A name with an operand error raises class 0x08 with detail 0x90, before a
name of a core that is no worker core of the partition raises class 0x0B with SUB 1; an arrival or a DROP at a barrier that
expects none, and a JOIN at one that expects 65535, raise class 0x0B with SUB 2. -/
def Obligations.BarrierWords : Prop :=
  (∀ (s : State) (a b : BitVec 5),
    let name := s.core.readG a
    let n := s.core.readG b
    let B := Claim.barrierOf s name
    Claim.barrierReady s name →
    (n.toNat ≠ 0 → n.toNat ≤ 65535 →
      exec (.barInit a b) s = .next (Claim.barrierSet s name { B with exp := n.setWidth 16, arr := 0, seen := B.cmp })) ∧
    (B.exp ≠ 0 → s.core.performed = true →
      exec (.barArr a) s = .next (Claim.barrierSet s name (Claim.complete { B with arr := B.arr + 1 })) ∧
      exec (.barArrDrop a) s = .next (Claim.barrierSet s name (Claim.complete { B with exp := B.exp - 1 }))) ∧
    (B.exp ≠ 0 → s.core.performed = false →
      exec (.barArr a) s = .next (s.held .s (.device 12)) ∧ exec (.barArrDrop a) s = .next (s.held .s (.device 12))) ∧
    (B.exp ≠ 65535 → exec (.barArrJoin a) s = .next (Claim.barrierSet s name { B with exp := B.exp + 1 })) ∧
    (Claim.barrierCore s name = s.me →
      exec (.barWait a) s = .next (if B.cmp = B.seen then s.held .s (.barrier (Claim.barrierIndex name))
        else Claim.barrierSet s name { B with seen := B.cmp }))) ∧
  (∀ (s : State) (a b : BitVec 5), s.core.state ≠ .trapped → s.core.untaken = false →
    let name := s.core.readG a
    let n := s.core.readG b
    let B := Claim.barrierOf s name
    let bad (i : Instr) : Prop := exec i s = .next (Claim.trapped s i (Trap.operand 0x90))
    let foreign (i : Instr) : Prop := exec i s = .next (Claim.trapped s i { cls := 0x0B, sub := 1 })
    let full (i : Instr) : Prop := exec i s = .next (Claim.trapped s i { cls := 0x0B, sub := 2 })
    (¬ Claim.barrierName name → bad (.barInit a b) ∧ bad (.barArr a) ∧ bad (.barArrDrop a) ∧ bad (.barArrJoin a) ∧ bad (.barWait a)) ∧
    (n.toNat = 0 ∨ 65535 < n.toNat → bad (.barInit a b)) ∧
    (Claim.barrierCore s name ≠ s.me → bad (.barWait a)) ∧
    (Claim.barrierName name → s.owns s.core.part (Claim.barrierCore s name) = false →
      foreign (.barArr a) ∧ foreign (.barArrDrop a) ∧ foreign (.barArrJoin a) ∧
      (n.toNat ≠ 0 → n.toNat ≤ 65535 → foreign (.barInit a b)) ∧
      (Claim.barrierCore s name = s.me → foreign (.barWait a))) ∧
    (Claim.barrierReady s name → B.exp = 0 → full (.barArr a) ∧ full (.barArrDrop a)) ∧
    (Claim.barrierReady s name → B.exp = 65535 → full (.barArrJoin a)))

namespace Sys2Proof.Claim

/-- A part of a word's work that neither holds nor traps: its answer and the state it leaves. -/
def does {α : Type} (x : M α) (s : State) (a : α) (t : State) : Prop := x.run.run s = (.ok a, t)

/-- The same of the work of an access in memory. -/
def doesR {α : Type} (x : R α) (s : State) (a : α) (t : State) : Prop := x.run.run s = (.ok a, t)

/-- The address that a word forms: a base register and a scaled offset (R285). -/
def address (c : Core) (base : BitVec 5) (off : Int) (scale : Nat) : Dword :=
  BitVec.ofInt 64 ((c.readG base).toInt + off * scale)

/-- The 128-byte line of an address. -/
def line (va : Dword) : Dword := BitVec.ofNat 64 (va.toNat / 128 * 128)

/-- S is free to run a word that holds behind untaken commands, in no handler where `job` is set (R397, R398). -/
def free (s : State) (job : Bool) : Prop := s.core.untaken = false ∧ (job = true → s.core.state ≠ .trapped)

/-- A core's monitor armed on the line of an address and on the line of a piece's memory (R107). -/
def armed (s : State) (va : Dword) (ps : List Piece) : State :=
  s.mapCore fun c => { c with monitor := .armed (line va) (((ps.map fun p => p.key0 s).headD 0) / 128 * 128) }

/-- MWAIT and MWAIT.W of `n` bytes (R108). -/
def monitorWait (i : Instr) (s : State) (gd a b : BitVec 5) (n : Nat) : Prop :=
  ∀ (ps : List Piece) (bs : List Byte) (s1 s2 : State),
    let va := s.core.readG a
    let s1' := if s.core.monitor.on (line va) then s1 else armed s1 va ps
    free s true → does (monitorPieces va n) s ps s1 → does (loadBytes ps) s1' bs s2 →
    exec i s = .next (
      if leNat bs = (s.core.readG b).toNat % 2 ^ (8 * n) ∧ s2.core.monitor.fired = false then s2.held .s .mwait
      else gone (s2.mapCore fun c => { (c.writeG gd (BitVec.ofNat 64 (leNat bs))) with monitor := .disarmed }))

end Sys2Proof.Claim

/-- R107, R108: MONARM arms the monitor on the line of its address. MWAIT and MWAIT.W arm it unless it stands on the line,
read the value, and hold while it equals the low bytes of gs2 and the monitor is not triggered; else they give gd the value,
zero-extended, and disarm the monitor. -/
def Obligations.Monitors : Prop :=
  ∀ (s : State),
    (∀ (b : BitVec 5) (off : BitVec 10) (ps : List Piece) (s1 : State),
      let va := Claim.address s.core b off.toInt 128
      Claim.free s true → Claim.does (monitorPieces va 1) s ps s1 →
      exec (.monarm b off) s = .next (Claim.gone (Claim.armed s1 va ps))) ∧
    (∀ gd a b : BitVec 5, Claim.monitorWait (.mwait gd a b) s gd a b 8 ∧ Claim.monitorWait (.mwaitW gd a b) s gd a b 4)

/-- R277 to R279: FENCE goes on once the loads and stores of its before-set are performed. FENCE.STK goes on once S's accesses
to channel-resident pages and the core's stack-side commands are performed. FENCE.HB waits for every access of its core, those
that X's words and fetches have out at peers among them, then takes the next tick boundary and goes on once the boundary has come and every access that a core of the die, its own and
the reserved one among them, issued before it is performed, and so is every message that the die has in hand. Until then each of them holds. -/
def Obligations.Fences : Prop :=
  ∀ (s : State), s.core.untaken = false →
    let c := s.core
    let loaded := c.fills.toList.all fun q => q.all fun f => f.data.isSome
    let stands (x : State) : State := x.held .s (.device 22)
    (∀ (scope : BitVec 3) (bef aft : BitVec 4),
      exec (.fence scope bef aft) s = .next (
        if (bef.getLsbD 3 = true → loaded = true) ∧ (bef.getLsbD 2 = true → c.stores = []) then Claim.gone s else stands s)) ∧
    (exec .fenceStk s = .next (
        if (∀ x ∈ c.stores, ∀ p ∈ x.pieces, p.isCR = false) ∧
            (∀ q ∈ c.fills.toList, ∀ f ∈ q, f.data.isSome = true ∨ ∀ p ∈ f.pieces, p.isCR = false) ∧ (vget c.ports {} 2).active = [] ∧ c.products = [] then Claim.gone s else stands s)) ∧
    (c.pl = 2 → c.boundary = none →
      exec .fenceHb s = .next (
        if c.stores = [] ∧ loaded = true ∧ c.xwait.performed = true ∧ (∀ w ∈ c.fwait.toList, w.performed = true) ∧
            c.xfers = [] ∧ c.steps = []
        then stands (s.mapCore fun c => { c with boundary := some ((s.kiln + 4095) &&& ~~~4095#64) }) else stands s)) ∧
    (∀ b : Dword, c.pl = 2 → c.boundary = some b →
      exec .fenceHb s = .next (
        if b.toNat ≤ s.kiln.toNat ∧
            (∀ p ∈ s.cores, dieOf p.1 = dieOf s.me → p.2.doneBefore b = true) ∧ (s.die (dieOf s.me)).doneBefore b = true
        then Claim.gone (s.mapCore fun c => { c with boundary := none }) else stands s))

/-! ### Memory words of S -/

namespace Sys2Proof.Claim

/-- The value of `n` bytes as a signed number. -/
def signed (n x : Nat) : Int := if x < 2 ^ (8 * n - 1) then x else (x : Int) - 2 ^ (8 * n)

/-- What a load gives its register: its bytes, the first the least significant, extended by sign or by zero (R5, R287). -/
def loaded (sign : Bool) (n : Nat) (bs : List Byte) : Dword :=
  if sign then BitVec.ofInt 64 (signed n (leNat bs)) else BitVec.ofNat 64 (leNat bs)

/-- LD and LDU: plain (order 0) and acquire (order 1) loads log their write; an SC load (order 2) is answered at its stamp. -/
def loads (i : Instr) (s : State) (sign : Bool) (gd b : BitVec 5) (size : BitVec 3) (order : BitVec 2) (off : BitVec 10) : Prop :=
  ∀ (ps : List Piece) (bs : List Byte) (s1 s2 : State),
    let n := 2 ^ size.toNat
    let va := address s.core b off.toInt n
    let w := gWrite gd + s.core.loopBack
    does (sPieces .load va n (if order = 0 then 1 else n)) s ps s1 →
    (order ≠ 2 → s.core.logRoom w = true → does (loadBytes ps) s1 bs s2 →
      exec i s = .next (s2.mapCore fun c => ((c.writeG gd (loaded sign n bs)).logWrites w).advance .s .next)) ∧
    (order = 2 → s.core.untaken = false → does (scAccess ps .read) s1 bs s2 →
      exec i s = .next (gone (s2.mapCore fun c => c.writeG gd (loaded sign n bs))))

end Sys2Proof.Claim

/-- R285, R287, R290: LD and LDU form their address from gbase and the offset times the size, LDR from the program counter with
its low three bits clear and the offset times 8; what the translated pieces read goes to gd, extended by sign for LD and by
zero for LDU and LDR, and S goes on. -/
def Obligations.Loads : Prop :=
  ∀ (s : State),
    (∀ (gd b : BitVec 5) (size : BitVec 3) (order : BitVec 2) (off : BitVec 10), size.toNat ≤ 3 →
      Claim.loads (.ld gd b size order off) s true gd b size order off ∧
      Claim.loads (.ldu gd b size order off) s false gd b size order off) ∧
    (∀ (gd : BitVec 5) (imm : BitVec 20) (ps : List Piece) (bs : List Byte) (s1 s2 : State),
      let va := BitVec.ofInt 64 ((s.core.spc.toNat / 8 * 8 : Nat) + imm.toInt * 8)
      let w := gWrite gd + s.core.loopBack
      Claim.does (sPieces .load va 8 1) s ps s1 → s.core.logRoom w = true → Claim.does (loadBytes ps) s1 bs s2 →
      exec (.ldr gd imm) s = .next (s2.mapCore fun c =>
        ((c.writeG gd (BitVec.ofNat 64 (leNat bs))).logWrites w).advance .s .next))

namespace Sys2Proof.Claim

/-- The one piece of `n` bytes at an address of the scratchpad window (R249, R252). -/
def scratchPiece (s : State) (va : Dword) (n k off : Nat) : Piece :=
  { va := va, place := .scratch k, addr := off, len := n, kind := .rc, l1 := false, am := false
    part := s.core.part, key := 0, anyOwner := false }

/-- An aligned access of S to the scratchpad window of a worker core of its partition and cluster (R249). -/
def inWindow (s : State) (va : Dword) (n k off : Nat) : Prop :=
  bits va 63 56 = 0xFF ∧ windowOf va = some (k, off) ∧ k / 128 = s.me / 128 ∧ s.owns s.core.part k = true ∧ va.toNat % n = 0

/-- The memory requests that S and X have outstanding: pending stores, reserved queue entries, and the messages of transfers. -/
def requests (c : Core) : Nat :=
  c.stores.length + (c.fills.toList.map List.length).sum +
    ((c.xfers.filter fun x => !x.done).map fun x => max 1 x.waits.length).sum

end Sys2Proof.Claim

/-- R287, R288: ST forms its address as LD does and retires with the low bytes of its register as a pending store, the first
byte the least significant; a store with release order is marked so, and an SC store (order 2) is applied at its stamp. No
register but the program counter changes. R17: with 4096 requests of S and X outstanding the store holds. -/
def Obligations.Stores : Prop :=
  ∀ (s : State) (g b : BitVec 5) (size : BitVec 3) (order : BitVec 2) (off : BitVec 10) (ps : List Piece) (s1 : State),
    size.toNat ≤ 3 →
    let n := 2 ^ size.toNat
    let va := Claim.address s.core b off.toInt n
    let bs := leBytes n (s.core.readG g).toNat
    s.core.untaken = false → Claim.does (sPieces .store va n (if order = 0 then 1 else n)) s ps s1 →
    (order ≠ 2 → Claim.does (soWait ps) s1 () s1 →
      exec (.st g b size order off) s = .next (if 4096 ≤ Claim.requests s1.core then s.held .s (.device 12)
        else Claim.gone (s1.mapCore fun c => { c with
          stores := c.stores ++ [{ pc := c.spc, pieces := ps, bytes := bs, release := order == 1#2, born := s1.kiln,
                                     job := c.job }] }))) ∧
    (∀ s2 got, order = 2 → Claim.does (scAccess ps (.write bs)) s1 got s2 →
      exec (.st g b size order off) s = .next (Claim.gone s2))

/-- R16, R249, R287: an aligned plain load from a core's scratchpad, once S's earlier accesses are performed, gives gd the bytes
that the scratchpad holds there (those of memory, but for bytes that R86 leaves undefined) and changes no byte of memory: the
registers change as Loads says, and S waits for no budget any more. R16, R288: a store to a core's scratchpad that waits behind nothing is performed: it leaves the list of pending stores, its
bytes stand in memory, and every other byte of memory is as before. -/
def Obligations.ScratchMemory : Prop :=
  (∀ (s : State) (gd b : BitVec 5) (size : BitVec 3) (off : BitVec 10) (k o : Nat), size.toNat ≤ 3 →
    let n := 2 ^ size.toNat
    let va := Claim.address s.core b off.toInt n
    let w := gWrite gd + s.core.loopBack
    Claim.inWindow s va n k o → s.core.performed = true → s.core.waiting = .none → s.core.logRoom w = true →
    s.wordsBad (Key.scratch k o) n = false →
    let bs := s.scratchBytes k o n
    let out (sign : Bool) : State := (s.leaveHeld (holdNo s.me 0)).mapCore fun c =>
      ((c.writeG gd (Claim.loaded sign n bs)).logWrites w).advance .s .next
    ((s.coreAt k).seed = none → bs = Memory.readN s.mem (Key.scratch k o) n) ∧
    exec (.ld gd b size 0 off) s = .next (out true) ∧ exec (.ldu gd b size 0 off) s = .next (out false) ∧
    (∀ a, Memory.read (out true).mem a = Memory.read s.mem a)) ∧
  (∀ (s : State) (core n k : Nat) (st : PendingStore) (p : Piece), core < 1024 → Memory.wf s.mem = true →
    (s.coreAt core).stores[n]? = some st → (s.coreAt core).storeReady n st = true →
    st.pieces = [p] → p.place = .scratch k → p.len = st.bytes.length →
    ∃ t, exec (.storePerformed core n) s = .next t ∧
      (t.coreAt core).stores = (s.coreAt core).stores.eraseIdx n ∧
      (∀ a, Memory.read t.mem a =
        if Key.scratch k p.addr ≤ a ∧ a < Key.scratch k p.addr + st.bytes.length
        then st.bytes.getD (a - Key.scratch k p.addr) 0 else Memory.read s.mem a) ∧
      (∀ m, (t.coreAt m).g = (s.coreAt m).g ∧ (t.coreAt m).pc = (s.coreAt m).pc) ∧ t.kiln = s.kiln)

/-- R289: LDQ reserves an entry at the tail of its load queue for 256 bytes, read at once where it is an acquire or a peer's, else
later; STQ pops the head of its store queue into a pending store of 256 bytes. LDQ holds while its queue is full, STQ while its
queue is empty, both by what the queue held as the cycle started. R17: both hold while 4096 requests of S and X are
outstanding. That an acquire or a peer's entry is read at once and another later, the entry keeping what the read at issue
found, and that LDQ holds while a store of S to the same bytes is pending, are the model's (assumption log 8). -/
def Obligations.QueueAccess : Prop :=
  ∀ (s : State) (b : BitVec 5) (order : BitVec 1) (off : BitVec 10), Claim.free s true →
    let va := Claim.address s.core b off.toInt 256
    let align := if order = 1 then 256 else 8
    (∀ (q : BitVec 2) (ps : List Piece) (bs : List Byte) (s1 s2 : State),
      let size (c : Core) : Nat := (c.wide q.toNat).size + (vget c.fills [] q.toNat).length + (vget c.gone 0 (8 + q.toNat)).toNat
      (8 ≤ size s.core → exec (.ldq q b order off) s = .next (s.held .s (.fullWide q.toNat))) ∧
      (size s.core < 8 → Claim.does (sPieces .load va 256 align) s ps s1 →
        (∃ st ∈ s.core.stores, ∃ x ∈ st.pieces, ∃ y ∈ ps, y.ordered x = true) →
        exec (.ldq q b order off) s = .next (s.held .s (.device 12))) ∧
      (size s.core < 8 → Claim.does (sPieces .load va 256 align) s ps s1 →
        (∀ st ∈ s.core.stores, ∀ x ∈ st.pieces, ∀ y ∈ ps, y.ordered x = false) → 4096 ≤ Claim.requests s.core →
        exec (.ldq q b order off) s = .next (s.held .s (.device 12))) ∧
      (size s.core < 8 → Claim.does (sPieces .load va 256 align) s ps s1 →
        (∀ st ∈ s.core.stores, ∀ x ∈ st.pieces, ∀ y ∈ ps, y.ordered x = false) → Claim.requests s.core < 4096 →
        Claim.does (loadBytes ps) s1 bs s2 →
        let data := if order = 1 ∨ ps.any (fun p => p.peer s2 (dieOf s2.me)) = true
          then some (BitVec.ofNat 2048 (leNat bs)) else none
        exec (.ldq q b order off) s = .next (Claim.gone (s2.mapCore fun c => { c with
          fills := vset c.fills q.toNat (vget c.fills [] q.toNat ++ [
            { pieces := ps, data := data, found := BitVec.ofNat 2048 (leNat bs), born := s2.kiln }]) })))) ∧
    (∀ (q : BitVec 1) (ps : List Piece) (s1 : State),
      let n := 4 + q.toNat
      let x := s.core.wide n
      let fresh := (vget s.core.fresh 0 (8 + n)).toNat
      (x.size ≤ fresh → exec (.stq q b order off) s = .next (s.held .s (.emptyWide n))) ∧
      (fresh < x.size → Claim.does (sPieces .store va 256 align) s ps s1 → Claim.does (soWait ps) s1 () s1 →
        exec (.stq q b order off) s = .next (if 4096 ≤ Claim.requests s1.core then s.held .s (.device 12)
         else Claim.gone (s1.mapCore fun c => { c with
          stores := c.stores ++ [{ pc := c.spc, pieces := ps, bytes := leBytes 256 x.top.toNat, release := order == 1#1
                                   born := s1.kiln, job := c.job }]
          wq := vset c.wq n { c.wide n with head := (c.wide n).head + 1 }
          gone := vset c.gone (8 + n) (vget c.gone 0 (8 + n) + 1) }))))

namespace Sys2Proof.Claim

/-- A word of S that only goes on, while its end test finds room in the log (R397). -/
def passes (s t : State) : State := t.mapCore fun c => (c.logWrites s.core.loopBack).advance .s .next

/-- The fields of an atomic or a compare-and-swap: its operation, gd, gs1, gs2, bytes and order (R38). -/
def atomic (i : Instr) : Option (AmoOp × BitVec 5 × BitVec 5 × BitVec 5 × Nat × BitVec 3) :=
  let n (size : BitVec 1) : Nat := if size = 1 then 8 else 4
  match i with
  | .amoAdd gd a b size order => some (.add, gd, a, b, n size, order)
  | .amoAnd gd a b size order => some (.and, gd, a, b, n size, order)
  | .amoOr gd a b size order => some (.or, gd, a, b, n size, order)
  | .amoXor gd a b size order => some (.xor, gd, a, b, n size, order)
  | .amoMin gd a b size order => some (.min, gd, a, b, n size, order)
  | .amoMax gd a b size order => some (.max, gd, a, b, n size, order)
  | .amoMinu gd a b size order => some (.minu, gd, a, b, n size, order)
  | .amoMaxu gd a b size order => some (.maxu, gd, a, b, n size, order)
  | .amoSwap gd a b size order => some (.swap, gd, a, b, n size, order)
  | .amoFadd gd a b order => some (.fadd, gd, a, b, 4, order)
  | .cas gd a b size order => some (.cas, gd, a, b, n size, order)
  | _ => none

/-- What an atomic of `n` bytes leaves in memory over the old value, given gs2 and gd; none where it writes nothing (R294,
R295). -/
def atomicNew (op : AmoOp) (n old : Nat) (x y : Dword) : Option Nat :=
  let b := x.toNat % 2 ^ (8 * n)
  let z (v : Nat) : Int := signed n v
  match op with
  | .add => some ((old + b) % 2 ^ (8 * n))
  | .and => some (old &&& b)
  | .or => some (old ||| b)
  | .xor => some (old ^^^ b)
  | .min => some (if z b < z old then b else old)
  | .max => some (if z old < z b then b else old)
  | .minu => some (min old b)
  | .maxu => some (max old b)
  | .swap => some b
  | .fadd => some (addF32 old b)
  | .cas => if y.toNat % 2 ^ (8 * n) = old then some b else none

end Sys2Proof.Claim

/-- R293 to R295: an atomic or a CAS reads, changes and writes its location at once and gives gd the old value, extended by sign.
With a release order it holds until S's earlier accesses are performed, with any order while a pending store of S writes its
bytes or a reserved queue entry reads them, and while the budgets do not allow its access; an SC one is applied at its stamp. R16, R294, R295: an atomic at its point in a core's scratchpad: it answers the old bytes, and memory then holds the new value
there, the low byte first, and every other byte as before. A CAS that does not match writes nothing. -/
def Obligations.AtomicWords : Prop :=
  (∀ (i : Instr) (op : AmoOp) (gd a b : BitVec 5) (n : Nat) (order : BitVec 3) (s s1 s2 s3 : State) (p : Piece) (old : List Byte),
    Claim.atomic i = some (op, gd, a, b, n, order) → s.core.untaken = false →
    Claim.does (sPieces .atomic (s.core.readG a) n n) s [p] s1 →
    (∀ fn, p.place = .host fn → (op = .add ∨ op = .swap ∨ op = .cas) ∧ (s1.fn fn).atomicOn = true) →
    let work := Doing.modify op n (s.core.readG b) (s.core.readG gd)
    let done (t : State) : State :=
      Claim.gone (t.mapCore fun c => ({ c with waiting := .none }).writeG gd (Claim.loaded true n old))
    (order.toNat < 4 → s1.core.waiting = .none → Claim.does (soWait [p]) s1 () s1 →
      (order = 2 ∨ order = 3 → s.core.performed = true) →
      (∀ st ∈ s.core.stores, ∀ q ∈ st.pieces, p.overlaps q = false) → Claim.does (fillWait [p]) s1 () s1 →
      Claim.does (M.budgeted .s [p] .modify) s1 () s2 →
      p.peer s1 (dieOf s1.me) = false → Claim.doesR (performPiece s1.sAgent p work) s2 old s3 →
      exec i s = .next (done s3)) ∧
    (order.toNat < 4 → s1.core.waiting = .none → Claim.does (soWait [p]) s1 () s1 →
      let released : Prop := order = 2 ∨ order = 3 → s.core.performed = true
      let alone : Prop := ∀ st ∈ s.core.stores, ∀ q ∈ st.pieces, p.overlaps q = false
      let read : Prop := ∃ q ∈ s1.core.fills.toList, ∃ f ∈ q, f.data = none ∧ ∃ x ∈ f.pieces, x.ordered p = true
      (¬ released ∨ ¬ alone ∨ read → exec i s = .next (s.held .s (.device 12))) ∧
      (∀ t, released → alone → ¬ read → s1.allow (holdNo s1.me 0) [p] .modify = .error t →
        exec i s = .next (t.held .s (.device 15)))) ∧
    (order = 4 → Claim.does (scAccess [p] work) s1 old s2 → exec i s = .next (done s2))) ∧
  (∀ (s : State) (ag : Agent) (p : Piece) (op : AmoOp) (n k : Nat) (x y : Dword), Memory.wf s.mem = true →
    p.place = .scratch k → p.len = n → n = 4 ∨ n = 8 → s.wordsBad (Key.scratch k p.addr) n = false →
    let old := s.scratchBytes k p.addr n
    ∃ t, Claim.doesR (performPiece ag p (.modify op n x y)) s old t ∧
      (∀ m, (t.coreAt m).g = (s.coreAt m).g ∧ (t.coreAt m).pc = (s.coreAt m).pc) ∧
      match Claim.atomicNew op n (leNat old) x y with
      | none => t = s
      | some v =>
        ∀ a, Memory.read t.mem a =
          if Key.scratch k p.addr ≤ a ∧ a < Key.scratch k p.addr + n
          then BitVec.ofNat 8 (v / 256 ^ (a - Key.scratch k p.addr)) else Memory.read s.mem a)

/-- R291, R397, R434: PREF and IPREF, where no command of S is untaken, never hold S for what they fetch and raise nothing: S goes on, whatever they find; IPREF fetches the
two 64-byte lines from its address for the stream it names, and a dropped one counts once in PFDROP. R292: CLEAN writes back the line that its address names where S's L1 holds it dirty and keeps it clean; INVL writes back a
dirty line and drops it. Where the L1 does not hold the line, both only go on. -/
def Obligations.CacheLines : Prop :=
  (∀ (s : State) (b : BitVec 5) (off : BitVec 10), s.core.untaken = false →
    (∀ level : BitVec 1, exec (.pref level b off) s =
      .next (Claim.gone (prefetchData level (Claim.address s.core b off.toInt 128) s))) ∧
    (∀ target : BitVec 2,
      let st : Stream := if target = 0 then .s else if target = 1 then .x else if target = 2 then .m else .v
      let va := lineOf (Claim.address s.core b off.toInt 128)
      let x := s.prefetchLine s.me st va
      let y := x.1.prefetchLine s.me st (va + 64)
      exec (.ipref target b off) s = .next (Claim.gone (
        if x.2 = true ∧ y.2 = true then y.1 else y.1.mapCore fun c => { c with pfdrop := c.pfdrop + 1 })))) ∧
  (∀ (s s1 s2 : State) (b : BitVec 5) (off : BitVec 10) (p : Piece),
    let va := Claim.address s.core b off.toInt 128
    s.core.untaken = false → Claim.does (sPieces .load va 1 1) s [p] s1 →
    (ownLine p s1 = none → exec (.clean b off) s = .next (Claim.gone s1) ∧ exec (.invl b off) s = .next (Claim.gone s1)) ∧
    (∀ line x, ownLine p s1 = some (line, x) → x ≠ .m → x ≠ .o →
      exec (.clean b off) s = .next (Claim.gone s1) ∧
      exec (.invl b off) s = .next (Claim.gone (s1.setL1 s1.me line none))) ∧
    (∀ line x, ownLine p s1 = some (line, x) → x = .m ∨ x = .o → Claim.doesR (writeBack s1.me line) s1 () s2 →
      exec (.clean b off) s = .next (Claim.gone (s2.setL1 s2.me line (some (if x = .m then .e else .s)))) ∧
      exec (.invl b off) s = .next (Claim.gone (s2.setL1 s2.me line none))))

/-! ### Queues, rings and engine ports -/

namespace Sys2Proof.Claim

/-- A scalar queue holds an entry, or has room for one, that stood when the cycle started (R20). -/
def hasEntry (c : Core) (q : Nat) : Prop := (vget c.fresh 0 (14 + q)).toNat < (c.scalar q).size
def hasPlace (c : Core) (q : Nat) : Prop := (c.scalar q).size + (vget c.gone 0 (14 + q)).toNat < 16

/-- An entry written at the tail of a scalar queue, or its head popped, in this cycle. -/
def putScalar (c : Core) (q : Nat) (x : Dword) : Core :=
  { c with
    sq := vset c.sq q { c.scalar q with slot := vset (c.scalar q).slot ((c.scalar q).tail.toNat % 16) x, tail := (c.scalar q).tail + 1 }
    fresh := vset c.fresh (14 + q) (vget c.fresh 0 (14 + q) + 1) }
def takeScalar (c : Core) (q : Nat) : Core :=
  { c with
    sq := vset c.sq q { c.scalar q with head := (c.scalar q).head + 1 }
    gone := vset c.gone (14 + q) (vget c.gone 0 (14 + q) + 1) }

end Sys2Proof.Claim

/-- R20, R298: QPUT.V, QPUT.M and QPUT.X write gs1 at the tail of S→V, S→M and S→X and hold while the queue holds 16 entries; QGET
pops the head of V→S into gd and holds while it is empty; an entry is readable from the cycle after it was written. R247: XQGET
does the same for X, from S→X into cd. -/
def Obligations.ScalarQueues : Prop :=
  (∀ (s : State) (a : BitVec 5), Claim.free s true →
    let put (i : Instr) (q : Nat) : Prop :=
      (Claim.hasPlace s.core q → exec i s = .next (Claim.gone (s.mapCore fun c => Claim.putScalar c q (c.readG a)))) ∧
      (¬ Claim.hasPlace s.core q → exec i s = .next (s.held .s (.fullScalar q)))
    put (.qputV a) 0 ∧ put (.qputM a) 2 ∧ put (.qputX a) 3 ∧
    (Claim.hasEntry s.core 1 → exec (.qget a) s = .next (Claim.gone (s.mapCore fun c =>
      (Claim.takeScalar c 1).writeG a (vget (c.scalar 1).slot 0 ((c.scalar 1).head.toNat % 16))))) ∧
    (¬ Claim.hasEntry s.core 1 → exec (.qget a) s = .next (s.held .s (.emptyScalar 1)))) ∧
  (∀ (s : State) (sync cd : BitVec 4), Claim.mayStart s .x sync →
    (Claim.hasEntry s.core 3 → exec (.xqget sync cd) s = .next (Claim.issued s .x sync (fun c => { Claim.takeScalar c 3 with
      cx := vset c.cx cd.toNat (vget (c.scalar 3).slot 0 ((c.scalar 3).head.toNat % 16)) }) .next)) ∧
    (¬ Claim.hasEntry s.core 3 → exec (.xqget sync cd) s = .next (s.held .x (.emptyScalar 3))))

namespace Sys2Proof.Claim

/-- The complete bytes of a ring (R299). -/
def avail (d : Desc) : Nat :=
  let size := bits d.w0 52 32
  let head := bits d.w2 20 0
  let tail := bits d.w2 52 32
  if bit d.w2 63 then size else if head ≤ tail then tail - head else size + tail - head

/-- A legal place in a ring of SIZE bytes: words 0 and 2 as R299 and R300 allow them. -/
def ringWord0 (x : Dword) : Prop :=
  bits x 63 53 = 0 ∧ bits x 31 21 = 0 ∧ bits x 52 32 % 256 = 0 ∧ bits x 20 0 % 256 = 0 ∧ bits x 20 0 + bits x 52 32 ≤ 0x100000
def ringWord2 (size : Nat) (y : Dword) : Prop :=
  bits y 62 53 = 0 ∧ bits y 31 21 = 0 ∧ bits y 52 32 % 256 = 0 ∧ bits y 20 0 % 256 = 0 ∧
    (if size = 0 then y = 0 else bits y 52 32 < size ∧ bits y 20 0 < size) ∧ (bit y 63 = true → bits y 52 32 = bits y 20 0)

end Sys2Proof.Claim

/-- R299 to R301: RNGSET writes words 0 and 2 of a stream descriptor together and SDSET word 0, 1 or 2, a write of word 0 also
clearing FULL; a Frit ring loses its decoded symbols. They hold while the ring is in use, and a value that R299 and R300 do
not allow, or SDSET of word 3, raises the illegal-operand fault with detail 0x30 and changes nothing: as it first executes and
as the write applies, but not while it holds. R299, R300: SDGET gives a descriptor's word and RNGSTAT its FULL flag, complete bytes and room. -/
def Obligations.RingWords : Prop :=
  (∀ (s : State) (a b : BitVec 5) (ring : BitVec 4), Claim.free s true →
    let r := ring.toNat
    let x := s.core.readG a
    let y := s.core.readG b
    let d := s.core.desc r
    let bad (i : Instr) : Prop := exec i s = .next (Claim.trapped s i (Trap.operand 0x30))
    let done (i : Instr) (d' : Desc) : Prop := exec i s = .next (
      if bits d.w3 20 0 = 0 ∧ s.core.ringUsed r = false then Claim.gone (s.mapCore fun c => { c with
          st := vset c.st r d'
          decoded := if bit d.w1 7 ∨ bit d'.w1 7 then c.decoded.filter fun e => e.ring != r else c.decoded })
      else s.held .s (.device 18))
    (Claim.ringWord0 x ∧ Claim.ringWord2 (bits x 52 32) y → done (.rngset a b ring) { d with w0 := x, w2 := y }) ∧
    (¬ (Claim.ringWord0 x ∧ Claim.ringWord2 (bits x 52 32) y) → bad (.rngset a b ring)) ∧
    (∀ w : BitVec 2,
      (d.accepts w.toNat x = false → vget s.core.hold .none 0 ≠ .device 18 ∨ bits d.w3 20 0 = 0 ∧ s.core.ringUsed r = false →
        bad (.sdset a w ring)) ∧
      (d.accepts w.toNat x = false → vget s.core.hold .none 0 = .device 18 → ¬ (bits d.w3 20 0 = 0 ∧ s.core.ringUsed r = false) →
        exec (.sdset a w ring) s = .next (s.held .s (.device 18))) ∧
      (d.accepts w.toNat x = true → done (.sdset a w ring)
        (if w = 0 then { d with w0 := x, w2 := d.w2 &&& 0x7FFFFFFFFFFFFFFF } else if w = 1 then { d with w1 := x }
         else { d with w2 := x }))) ∧
    d.accepts 3 x = false ∧
    (d.accepts 0 x = true ↔ Claim.ringWord0 x ∧
      (bits d.w2 20 0 < bits x 52 32 ∧ bits d.w2 52 32 < bits x 52 32 ∨
        bits x 52 32 = 0 ∧ bits d.w2 20 0 = 0 ∧ bits d.w2 52 32 = 0)) ∧
    (d.accepts 1 x = true ↔ bits x 63 32 = 0 ∧ bits x 15 10 = 0 ∧ bits x 5 5 = 0 ∧ bits x 31 16 % 2 = 0 ∧ bits x 9 8 ≠ 3 ∧
      Limits.format (BitVec.ofNat 5 (bits x 4 0)) = true) ∧
    (d.accepts 2 x = true ↔ Claim.ringWord2 (bits d.w0 52 32) x)) ∧
  (∀ (s : State) (a : BitVec 5) (ring : BitVec 4), s.core.state ≠ .trapped →
    s.core.logRoom (gWrite a + s.core.loopBack) = true →
    let d := s.core.desc ring.toNat
    let gives (i : Instr) (x : Dword) : Prop :=
      exec i s = .next (s.mapCore fun c => ((c.writeG a x).logWrites (gWrite a + s.core.loopBack)).advance .s .next)
    gives (.sdget a 0 ring) d.w0 ∧ gives (.sdget a 1 ring) d.w1 ∧ gives (.sdget a 2 ring) d.w2 ∧ gives (.sdget a 3 ring) d.w3 ∧
    (Claim.ringWord0 d.w0 → Claim.ringWord2 (bits d.w0 52 32) d.w2 → Claim.avail d + bits d.w3 20 0 ≤ bits d.w0 52 32 →
      ∃ x, gives (.rngstat a ring) x ∧ bits x 63 63 = (if bit d.w2 63 then 1 else 0) ∧ bits x 52 32 = Claim.avail d ∧
        bits x 20 0 = bits d.w0 52 32 - Claim.avail d - bits d.w3 20 0 ∧ bits x 62 53 = 0 ∧ bits x 31 21 = 0))

namespace Sys2Proof.Claim

/-- Who may use a port: ep4 from PL1 on; ep0 to ep2 outside handlers, for the words that push or pop (R22, R398). -/
def mayUse (s : State) (port : BitVec 3) (pops : Bool) : Prop :=
  if port = 4 then 1 ≤ s.core.pl.toNat else pops = true → s.core.state ≠ .trapped

/-- The words that a command FIFO holds, those of an incomplete command among them. -/
def fifoWords (p : Port) : Nat := ((p.fifo ++ p.part.toList).map fun k => k.words.length).sum

/-- Commands with RES = 1 whose result is not present (R304). -/
def rout (p : Port) : Nat :=
  (p.fifo.filter fun k => bit (k.words.headD 0) 31).length + (p.active.filter fun a => bit a.header 31).length

/-- A command of one word, with the tag and the registers by which a trap rewinds S (R396, R397). -/
def fresh (c : Core) (x : Dword) : Command :=
  { words := [x], logAt := c.logged, tagPc := c.spc, tagSeq := vget c.seq 0 0, g := c.g, loops := c.loop .s, whole := false, job := c.job
    ctx := c.ctx, order := c.pushes, rsv := none, images := none }

/-- The incomplete command of a port discarded; the log empties with the last untaken command (R397). -/
def discarded (c : Core) (n : Nat) : Core :=
  let c := { c with ports := vset c.ports n { vget c.ports {} n with part := none } }
  if c.untaken = true then c else { c with logged := 0 }

/-- A word pushed to a port. -/
def pushed (s : State) (n : Nat) (x : Dword) (last : Bool) : State :=
  passes s (s.mapCore fun c =>
    let p := vget c.ports {} n
    let k : Command := match p.part with
      | none => fresh c x
      | some k => { k with words := k.words ++ [x] }
    let k := { k with images := if n = 1 ∧ last = true then some (s.images (k.words.headD 0) x) else none }
    let p' : Port := if last then { p with fifo := p.fifo ++ [k], part := none } else { p with part := some k }
    { c with ports := vset c.ports n p', pushes := if p.part.isNone then c.pushes + 1 else c.pushes })

end Sys2Proof.Claim

/-- R22, R302, R303, R396: EPUSH and EPUSH.END append gs1 to the command of their port; the END word, which must be the
(NW + 1)-th, makes the command available to the engine, and a command is tagged with the word that began it and S's registers
as they stood there. An END word out of its place, or another word in it, discards the command and raises the illegal-operand
fault with detail 0x41, and a push to ep3 raises it with detail 0x40. They hold while the FIFO holds 32 words, and the first word of a command with RES = 1 while the port
has no room for one more result. R22, R304: EPOP pops the oldest result or arrival of a port into ga; with none, it waits while one is due and for ever at ep3,
and raises the illegal-operand fault with detail 0x42 where none is due. EPOLL gives the oldest element without popping it,
STATUS 0xFF where there is none and none due; ESTAT gives the free words of the FIFO, the elements present, ROUT and
whether a command is incomplete. -/
def Obligations.EnginePorts : Prop :=
  (∀ (s : State) (a : BitVec 5) (port : BitVec 3) (last : Bool), port ≠ 3 → port.toNat ≤ 4 → Claim.mayUse s port true →
    s.core.logRoom s.core.loopBack = true →
    let n := port.toNat
    let i : Instr := if last then .epushEnd a port else .epush a port
    let p := vget s.core.ports {} n
    let x := s.core.readG a
    let sofar := match p.part with | none => [] | some k => k.words
    let nw := bits (sofar.headD x) 55 48
    let noResult : Prop := sofar = [] ∧ bit x 31 = true ∧ Claim.rout p + p.results.length = 32
    (noResult → exec i s = .next (s.held .s (.device 17))) ∧
    (¬ noResult → (last = true ↔ sofar.length = nw) →
      exec i s = .next (if Claim.fifoWords p < 32 then Claim.pushed s n x last else s.held .s (.device 11))) ∧
    (¬ noResult → ¬ (last = true ↔ sofar.length = nw) →
      exec i s = .next ((s.mapCore fun c => Claim.discarded c n).raise s.me (some .s) (Trap.operand 0x41) s.core.spc (wordOf i)))) ∧
  (∀ (s : State) (a : BitVec 5), s.core.state ≠ .trapped → s.core.logRoom s.core.loopBack = true →
    exec (.epush a 3) s = .next (Claim.trapped s (.epush a 3) (Trap.operand 0x40)) ∧
    exec (.epushEnd a 3) s = .next (Claim.trapped s (.epushEnd a 3) (Trap.operand 0x40))) ∧
  (∀ (s : State) (a : BitVec 5) (port : BitVec 3), port.toNat ≤ 4 →
    let n := port.toNat
    let p := vget s.core.ports {} n
    let w := gWrite a + s.core.loopBack
    let gives (i : Instr) (x : Dword) : Prop :=
      exec i s = .next (s.mapCore fun c => ((c.writeG a x).logWrites w).advance .s .next)
    (Claim.mayUse s port true → s.core.untaken = false →
      (∀ x rest, p.results = x :: rest →
        exec (.epop a port) s = .next (Claim.gone (s.mapCore fun c =>
          ({ c with ports := vset c.ports n { p with results := rest } }).writeG a x))) ∧
      (p.results = [] → port = 3 → exec (.epop a port) s = .next (s.held .s .ep3)) ∧
      (p.results = [] → port ≠ 3 → exec (.epop a port) s = .next (
        if Claim.rout p = 0 then Claim.trapped s (.epop a port) (Trap.operand 0x42) else s.held .s (.device 11)))) ∧
    (Claim.mayUse s port false → s.core.logRoom w = true →
      (p.results ≠ [] ∨ Claim.rout p = 0 ∨ port = 3 → gives (.epoll a port) (p.results.headD 0xFF00000000000000)) ∧
      (p.results = [] → Claim.rout p ≠ 0 → port ≠ 3 → exec (.epoll a port) s = .next (s.held .s (.device 11))) ∧
      (Claim.fifoWords p ≤ 32 → p.results.length ≤ 32 → Claim.rout p ≤ 32 →
        ∃ x, gives (.estat a port) x ∧
          bits x 63 32 = (if port = 3 then 0 else 32 - Claim.fifoWords p) ∧ bits x 31 24 = p.results.length ∧
          bits x 23 16 = (if port = 3 then 0 else Claim.rout p) ∧ bits x 15 0 = if p.part.isSome then 1 else 0)))

/-! ### Tensors, resharding and stack-side products -/

namespace Sys2Proof.Claim

/-- The roles of a map image's low word are assigned ones (R314). -/
def rolesOk (lo : Dword) : Prop := ∀ a, a < 4 → bits lo (4 * a + 3) (4 * a) < 8

end Sys2Proof.Claim

/-- R313, R315: TSMAP writes a map register with ga in its low and gb in its high word, and TMESH writes MESH; an image that R314
or R311 does not allow raises the illegal-operand fault with detail 0x55 or 0x56 and writes nothing. R316: the blocks that a dimension of extent E is cut into follow one another from 0 and end at E; those of a balanced
dimension have ⌊E ÷ n⌋ elements or one more, and those of ceil blocks ⌈E ÷ n⌉ until the extent runs out. -/
def Obligations.MapReads : Prop :=
  (∀ (s : State) (a b : BitVec 5) (mp : BitVec 4), s.core.untaken = false →
    let lo := s.core.readG a
    let hi := s.core.readG b
    (bits hi 63 18 = 0 → Claim.rolesOk lo →
      exec (.tsmap a b mp) s = .next (Claim.gone (s.mapCore fun c => { c with mp := vset c.mp mp.toNat (hi ++ lo) }))) ∧
    (¬ (bits hi 63 18 = 0 ∧ Claim.rolesOk lo) →
      exec (.tsmap a b mp) s = .next (Claim.trapped s (.tsmap a b mp) (Trap.operand 0x55))) ∧
    exec (.tmesh a) s = .next (
      if s.meshOk s.core.part.toNat lo then Claim.gone (s.mapCore fun c => { c with mesh := lo })
      else Claim.trapped s (.tmesh a) (Trap.operand 0x56))) ∧
  (∀ (balanced : Bool) (e n k : Nat), k < n →
    let b := blockOf balanced e n k
    let next := blockOf balanced e n (k + 1)
    (blockOf balanced e n 0).1 = 0 ∧ (k + 1 < n → next.1 = b.1 + b.2) ∧ (k + 1 = n → b.1 + b.2 = e) ∧
    (balanced = true → b.2 = e / n ∨ b.2 = e / n + 1) ∧
    (balanced = false → b.2 = min ((e + n - 1) / n) (e - b.1)))

namespace Sys2Proof.Claim

/-- The global index that TLOC takes from the registers after gb (R320). -/
def tlocIndex (c : Core) (b : BitVec 5) (rank : Nat) : List Nat :=
  (List.range rank).map fun d => (vget c.g 0 (b.toNat + 1 + d)).toNat

/-- The mesh coordinates of the node that TLOC answers for (R320): for TLOC.R this die's own where it holds the element,
shard or halo; else the owner's. -/
def tlocNode (s : State) (copy : Bool) (mp : BitVec 4) (t : Tensor) (i : List Nat) : List Nat :=
  let c := s.core
  let m := ShardMap.of (vget c.mp 0 mp.toNat)
  let me := s.coordsOf c.part.toNat c.mesh (s.nodeOf (dieOf s.me))
  if copy = true ∧ m.holds (sizesOf c.mesh) t.ext me i = true then me else m.owner (sizesOf c.mesh) t.ext i me

/-- TLOC.R and TLOC.D on a legal operand. -/
def tloc (i : Instr) (s : State) (copy : Bool) (a b : BitVec 5) (mp : BitVec 4) : Prop :=
  ∀ t : Tensor,
    let c := s.core
    let m := ShardMap.of (vget c.mp 0 mp.toNat)
    let ix := tlocIndex c b t.rank
    let u := tlocNode s copy mp t ix
    let local_ := m.local (sizesOf c.mesh) t.ext u ix
    let w := gWrite a + gWrite (a + 1) + c.loopBack
    s.tensor c.part.toNat (c.readG b).toNat = some t → (c.readG b).toNat < 2 ^ 16 → b.toNat + t.rank ≤ 31 →
    (∀ d, d < t.rank → ix.getD d 0 < t.ext.getD d 0) → m.validFor t.rank (naxOf c.mesh) = true →
    (copy = true → m.role.contains rolePartial = false) → c.logRoom w = true →
    exec i s = .next (s.mapCore fun c =>
      (((c.writeG a (BitVec.ofNat 64 (t.base.toNat + t.offset local_ / 8))).writeG (a + 1)
        (BitVec.ofNat 64 (s.nodeAt c.part.toNat c.mesh u))).logWrites w).advance .s .next)

/-- The operand faults of TLOC.R and TLOC.D, each where the checks before it pass (R320). -/
def tlocFaults (i : Instr) (s : State) (copy : Bool) (a b : BitVec 5) (mp : BitVec 4) : Prop :=
  let c := s.core
  let m := ShardMap.of (vget c.mp 0 mp.toNat)
  let bad (n : Nat) : Prop := exec i s = .next (trapped s i (Trap.operand n))
  c.logRoom (gWrite a + gWrite (a + 1) + c.loopBack) = true →
  (2 ^ 16 ≤ (c.readG b).toNat ∨ s.tensor c.part.toNat (bits (c.readG b) 15 0) = none → bad 0x50) ∧
  ∀ t : Tensor, s.tensor c.part.toNat (c.readG b).toNat = some t → (c.readG b).toNat < 2 ^ 16 →
    (31 < b.toNat + t.rank → bad 0x51) ∧
    (b.toNat + t.rank ≤ 31 →
      let inside : Prop := ∀ d, d < t.rank → (tlocIndex c b t.rank).getD d 0 < t.ext.getD d 0
      t.ext.length = t.rank →
      (¬ inside → bad 0x52) ∧ (inside → m.validFor t.rank (naxOf c.mesh) = false → bad 0x53) ∧
      (inside → m.validFor t.rank (naxOf c.mesh) = true → copy = true → m.role.contains rolePartial = true → bad 0x54))

end Sys2Proof.Claim

/-- R320: TLOC.R and TLOC.D give the even register ga the address of a tensor's element in its holder's shard and the register
after it the holder's node. An operand fault stops them, in this order: no such tensor (detail 0x50), an index that runs past
g31 (0x51) or outside the tensor (0x52), a map that is no map of the tensor (0x53), and, of TLOC.R, a map with a partial role
(0x54). -/
def Obligations.TensorLocation : Prop :=
  ∀ (s : State) (a b : BitVec 5) (mp : BitVec 4),
    Claim.tloc (.tlocR a b mp) s true a b mp ∧ Claim.tloc (.tlocD a b mp) s false a b mp ∧
    Claim.tlocFaults (.tlocR a b mp) s true a b mp ∧ Claim.tlocFaults (.tlocD a b mp) s false a b mp

/-- R303, R321, R323: RESHARD checks its tensors and maps and that no reshard of its destination is in flight on the die, then
pushes one command of two words to ep1 with the images that it ran under; it holds while eight reshards of the die are in
flight or its port lacks room, and behind an incomplete command of its port it raises detail 0x41. R329: RSTAT gives the progress of the die's latest reshard of the partition to the tensor that gb names, and 0 where there is
none. -/
def Obligations.ReshardWords : Prop :=
  (∀ (s : State) (a b : BitVec 5) (mps mpd : BitVec 4), s.core.state ≠ .trapped → s.core.logRoom s.core.loopBack = true →
    let c := s.core
    let x := c.readG a
    let y := c.readG b
    let p := vget c.ports {} 1
    let dst := bits x 15 0
    let header := place 0x20 56 ||| place 1 48 ||| place dst 32 ||| place (bits x 17 17) 31 ||| place (bits x 16 16) 8 |||
      place mps.toNat 4 ||| place mpd.toNat 0
    let flying := s.reshardsInFlight (dieOf s.me)
    let i := Instr.reshard a b mps mpd
    x.toNat < 2 ^ 18 → y.toNat < 2 ^ 16 →
    (∀ n, reshardFault (s.images header y) y.toNat dst = some n → exec i s = .next (Claim.trapped s i (Trap.operand n))) ∧
    (reshardFault (s.images header y) y.toNat dst = none →
      ((c.part.toNat, dst) ∈ flying → exec i s = .next (Claim.trapped s i (Trap.operand 0x5E))) ∧
      ((c.part.toNat, dst) ∉ flying → p.part = none →
        exec i s = .next (
          if flying.length < 8 ∧ Claim.fifoWords p + 2 ≤ 32 ∧ (bit x 17 = true → Claim.rout p + p.results.length ≠ 32)
          then Claim.passes s (s.mapCore fun c => { c with
            ports := vset c.ports 1 { p with fifo := p.fifo ++ [{ Claim.fresh c header with
              words := [header, y], whole := true, images := some (s.images header y) }] }
            pushes := c.pushes + 1 })
          else s.held .s (.device 19))) ∧
      ((c.part.toNat, dst) ∉ flying → p.part ≠ none →
        exec i s = .next ((s.mapCore fun c => Claim.discarded c 1).raise s.me (some .s) (Trap.operand 0x41) c.spc (wordOf i))))) ∧
  (∀ (s : State) (a b : BitVec 5), s.core.untaken = false →
    let mine (r : Reshard) : Prop := r.part = s.core.part.toNat ∧ r.dst = bits (s.core.readG b) 15 0
    let all := (s.die (dieOf s.me)).reshards
    ((∀ r ∈ all, ¬ mine r) → exec (.rstat a b) s = .next (Claim.gone (s.mapCore fun c => c.writeG a 0))) ∧
    (∀ before r later, all = before ++ r :: later → mine r → (∀ q ∈ later, ¬ mine q) →
      r.nstep < 16 → r.step < 8 → r.landed < 2 ^ 40 →
      ∃ x, exec (.rstat a b) s = .next (Claim.gone (s.mapCore fun c => c.writeG a x)) ∧
        bits x 63 63 = (if r.arrived then 1 else 0) ∧ bits x 62 62 = (if r.closed then 0 else 1) ∧
        bits x 61 58 = r.nstep ∧ bits x 57 55 = r.step ∧ bits x 47 40 = r.status.toNat ∧ bits x 39 0 = r.landed))

namespace Sys2Proof.Claim

/-- The last entry of a Frit stream's index table, which gives its length (R217), as S reads it for SMV; 0 of a fixed stream. -/
def streamWord (s : State) (frit : Bool) (waddr : Dword) (tiles : Nat) : M Nat :=
  if frit then streamLength (s.core.req s.me .s .smvRead) (waddr + BitVec.ofNat 64 (4 * tiles)) else pure 0

end Sys2Proof.Claim

/-- R307 to R309: SMV checks its operands, translates every page of the weights, reads its vector from the scratchpad, and, once
the ring has room for every entry and ep2 for six words, reserves the entries and pushes the product to ep2; until then it
holds. Two points are the model's: that an offset of scales in a format without scales is a wrong operand (detail 0x20,
assumption log 34), and that S reads the length of a Frit stream from its index table as the word issues (assumption
log 76). -/
def Obligations.StackProductPush : Prop :=
  ∀ (s s1 s2 s3 : State) (a b : BitVec 5) (ring : BitVec 4) (stream : Nat) (ps : List Piece) (bs : List Byte),
    s.core.state ≠ .trapped → s.core.logRoom s.core.loopBack = true →
    let c := s.core
    let dims := c.readG (a + 1)
    let format := c.readG (a + 2)
    let soff := c.readG (a + 3)
    let x := c.readG b
    let nnb := bits dims 41 32 + 1
    let nkb := bits dims 9 0 + 1
    let w := formatDesc format
    let i := Instr.smv a b ring
    let legal : Prop := bits dims 63 42 = 0 ∧ bits dims 31 10 = 0 ∧ formatOk format = true ∧
      (soff = 0 ∨ w.isFrit = true ∧ w.sstride ≠ 0) ∧ (c.desc ring.toNat).isFrit = false ∧
      Fmt.ofCode (c.desc ring.toNat).fmt = some .fp32 ∧ (c.desc ring.toNat).sstride = 0 ∧ 256 ≤ (c.desc ring.toNat).size ∧
      x.toNat % 2 = 0 ∧ x.toNat + 64 * nkb ≤ 0x100000
    let chans := ps.map fun p => p.addr % 2 ^ 37 / 2 ^ 31
    let oneChannel : Prop := (∀ p ∈ ps, p.channelHome s2 (dieOf s.me) = true) ∧ ∀ n ∈ chans, n = chans.headD 0
    let vec : Piece := { Claim.scratchPiece s 0 (64 * nkb) s.me x.toNat with va := 0 }
    ((vget c.ports {} 2).part ≠ none →
      exec i s = .next ((s.mapCore fun c => Claim.discarded c 2).raise s.me (some .s) (Trap.operand 0x41) c.spc (wordOf i))) ∧
    ((vget c.ports {} 2).part = none → ¬ legal → exec i s = .next (Claim.trapped s i (Trap.operand 0x20))) ∧
    ((vget c.ports {} 2).part = none → legal →
      Claim.does (Claim.streamWord s w.isFrit (c.readG a) (nkb * nnb)) s stream s1 →
      Claim.does (rangePieces (c.req s.me .s .smvRead) (weightRanges w (c.readG a) soff (nkb * nnb) stream)) s1 ps s2 →
      (¬ oneChannel → exec i s = .next (s2.raise s.me (some .s) (Trap.operand 0x21) c.spc (wordOf i))) ∧
      (oneChannel → Claim.does (loadBytes [vec]) s2 bs s3 →
        let d := s3.core.desc ring.toNat
        let p := vget s3.core.ports {} 2
        exec i s = .next (
          if 256 * nnb ≤ d.room ∧ Claim.fifoWords p + 6 ≤ 32 then
            Claim.passes s (s3.mapCore fun c' => { c' with
              st := vset c'.st ring.toNat (d.reserve (256 * nnb))
              pushes := c'.pushes + 1
              ports := vset c'.ports 2 { p with fifo := p.fifo ++ [{ Claim.fresh c' 0 with
                words := [place 0x55 56 ||| place 5 48, c.readG a, dims, format, soff, x], whole := true
                rsv := some (ring.toNat, 256 * nnb)
                product := some {
                  pc := c'.spc, pieces := ps, waddr := c.readG a, nnb := nnb, nkb := nkb, format := format, soff := soff
                  x := (List.range (32 * nkb)).map fun k => BitVec.ofNat 16 (leNat ((bs.drop (2 * k)).take 2))
                  ring := ring.toNat, off := (d.tail + d.rsvd) % d.size, chan := chans.headD 0, next := 0
                  job := c'.job, born := s3.kiln } }] } })
          else s.held .s (.device 19))))

/-! ### System registers, traps and their return -/

namespace Sys2Proof.Claim

/-- The ranges of R401's table with the levels that read and write them; a column it leaves empty takes the other's level
(assumption log 17). -/
def sysTable : List (Nat × Nat × Nat × Nat) :=
  [(0x000, 0x005, 1, 1), (0x008, 0x00E, 2, 2), (0x00F, 0x011, 1, 1), (0x018, 0x01A, 2, 2), (0x020, 0x029, 1, 1),
   (0x030, 0x039, 1, 1), (0x040, 0x041, 1, 1), (0x048, 0x04C, 1, 1), (0x050, 0x051, 1, 1), (0x058, 0x05C, 1, 1),
   (0x060, 0x060, 1, 1), (0x800, 0x82F, 1, 2), (0x900, 0x9BF, 2, 2), (0xA00, 0xB00, 2, 2), (0xB01, 0xB03, 1, 2),
   (0xB10, 0xB1F, 1, 2), (0xC00, 0xCFF, 1, 2)]

/-- The level that an access of a register needs; none where the number is reserved. -/
def sysLevel (n : Nat) (write : Bool) : Option Nat :=
  (sysTable.find? fun e => e.1 ≤ n ∧ n ≤ e.2.1).map fun e => if write then e.2.2.2 else e.2.2.1

/-- A register of the cut, the window or EPCNT, usable only in a handler of a trap from PL0. -/
def sysOfCut (n : Nat) : Prop :=
  (0x020 ≤ n ∧ n ≤ 0x028) ∨ (0x030 ≤ n ∧ n ≤ 0x039) ∨ n = 0x040 ∨ n = 0x041 ∨ (0x058 ≤ n ∧ n ≤ 0x05C)

/-- A register of another partition than the core's. -/
def sysForeign (c : Core) (n : Nat) : Prop :=
  ((0x800 ≤ n ∧ n ≤ 0x82F) ∧ n % 16 ≠ c.part.toNat) ∨ ((0xB10 ≤ n ∧ n ≤ 0xB1F) ∧ n - 0xB10 ≠ c.part.toNat)

/-- The fault of an access (R401). -/
def sysFault (c : Core) (n : Nat) (write : Bool) (t : Trap) : Prop :=
  match sysLevel n write with
  | none => t = Trap.operand 0x70
  | some l =>
    (c.pl.toNat < l ∧ t = Trap.privilege) ∨ (l ≤ c.pl.toNat ∧ c.pl = 1 ∧ sysForeign c n ∧ t = Trap.privilege) ∨
      (l ≤ c.pl.toNat ∧ ¬ (c.pl = 1 ∧ sysForeign c n) ∧ sysOfCut n ∧ c.fromPl0 = false ∧ t = Trap.operand 0x71)

/-- An access that R401 allows. -/
def sysAllowed (c : Core) (n : Nat) (write : Bool) : Prop :=
  ∃ l, sysLevel n write = some l ∧ l ≤ c.pl.toNat ∧ (c.pl = 1 → ¬ sysForeign c n) ∧ (sysOfCut n → c.fromPl0 = true)

/-- The names of R401 with what they read; the reserved fields of the cut read as zero (R6). -/
def sysReads (s : State) : List (Nat × Dword) :=
  let c := s.core
  let d := s.die (dieOf s.me)
  ((List.range 6).map fun k => (k, vget c.tr1 0 k)) ++ ((List.range 6).map fun k => (0x008 + k, vget c.tr2 0 k)) ++
    ((List.range 4).map fun k => (0x020 + 2 * k, vget c.cut.pc 0 k)) ++
    ((List.range 4).map fun k => (0x021 + 2 * k, BitVec.ofNat 64 (bits (vget c.cut.seq 0 k) 32 0))) ++
    ((List.range 10).map fun k => (0x030 + k, BitVec.ofNat 64 (bits (vget c.cut.qseq 0 k) 31 0))) ++
    ((List.range 16).map fun k => (0x800 + k, (s.part k).pbench)) ++ ((List.range 16).map fun k => (0x810 + k, (s.part k).pnset)) ++
    ((List.range 16).map fun k => (0x820 + k, vget d.ps2root 0 k)) ++ ((List.range 16).map fun k => (0xB10 + k, vget d.budget 0 k)) ++
    [(0x00E, c.tepc2), (0x010, c.fsyn1), (0x011, c.fva1), (0x018, c.fsyn2), (0x019, c.fva2), (0x01A, c.fipa2),
     (0x028, BitVec.ofNat 64 (bits c.cut.tkcnt 47 0)), (0x029, if c.abandon then 1 else 0), (0x040, c.wsel), (0x050, c.tref), (0x060, c.pfdrop),
     (0xB02, d.live), (0xB03, BitVec.ofNat 64 d.ntok.toNat)]

/-- Word `i` of a 64-bit-wide view of a value. -/
def part64 {w : Nat} (x : BitVec w) (i : Nat) : Dword := x.extractLsb' (64 * i) 64

/-- The words of a loop stack as the window gives them (R402). -/
def loopWords (l : LoopStack) : List Dword :=
  l.depth :: (List.range 6).flatMap fun k => let e := vget l.ent {} k; [e.first, e.past, e.rem]

/-- The regions of the state window with their words, in the order of R402; reserved fields read as zero (R6). -/
def windowWords (c : Core) (region i : Nat) : Dword :=
  match region with
  | 0x01 => c.readG (BitVec.ofNat 5 i)
  | 0x02 => if i < 16 then vget c.cx 0 i else if i < 32 then vget c.cm 0 (i - 16) else vget c.cv 0 (i - 32)
  | 0x03 => if i < 896 then part64 (vget c.v 0 (i / 32)) (i % 32) else BitVec.ofNat 64 (bits c.vshape 16 0)
  | 0x04 => part64 (vget c.acc 0 (i / 2048)) (i % 2048)
  | 0x05 => part64 (vget c.td 0 (i / 4)) (i % 4)
  | 0x06 =>
    let d := c.desc (i / 4)
    if i % 4 = 0 then place (bits d.w0 52 32) 32 ||| place (bits d.w0 20 0) 0
    else if i % 4 = 1 then place (bits d.w1 31 16) 16 ||| place (bits d.w1 9 6) 6 ||| place (bits d.w1 4 0) 0
    else if i % 4 = 2 then place (bits d.w2 63 63) 63 ||| place (bits d.w2 52 32) 32 ||| place (bits d.w2 20 0) 0
    else place (bits d.w3 20 0) 0
  | 0x07 => if i < 32 then part64 (vget c.mp 0 (i / 2)) (i % 2) else if i = 32 then c.mesh else vget c.rl 0 (i - 33)
  | 0x08 =>
    let b := vget c.bar {} i
    BitVec.ofNat 64 (b.exp.toNat + b.arr.toNat * 2 ^ 16 + b.cmp.toNat * 2 ^ 32 + b.seen.toNat * 2 ^ 48)
  | 0x09 =>
    let t := vget c.frit {} (i / 65)
    if i % 65 = 64 then (if t.valid then 1 else 0) else part64 t.freq (i % 65) &&& 0x0FFF0FFF0FFF0FFF#64
  | 0x0A => vget c.marker 0 i
  | 0x0B => part64 (vget (c.wide (i / 256)).slot 0 (i / 32 % 8)) (i % 32)
  | 0x0C => vget (c.scalar (i / 16)).slot 0 (i % 16)
  | 0x0D => (loopWords (vget c.loops {} ([0, 3, 4, 5].getD (i / 19) 0))).getD (i % 19) 0
  | 0x0E =>
    let p := vget c.ports {} ([0, 1, 2, 4, 3].getD (i / 32) 0)
    if i % 32 < p.results.length then p.results.getD (i % 32) 0 else vget p.spare 0 (i % 32)
  | _ => match c.monitor with
    | .disarmed => 0
    | .armed l _ => BitVec.ofNat 64 (l.toNat / 128 * 128 + 1)
    | .triggered l _ => BitVec.ofNat 64 (l.toNat / 128 * 128 + 2)

/-- The bytes of the regions 0x01 to 0x0F (R402). -/
def windowBytes : List Nat :=
  [256, 384, 7176, 65536, 256, 512, 392, 384, 4160, 128, 12288, 512, 608, 1280, 8]

/-- Region and offset of WSEL, and WSEL once an access of WDATA has moved on by eight bytes. -/
def wsel (c : Core) : Nat × Nat := (bits c.wsel 63 56, bits c.wsel 23 0)
def wstep (c : Core) : Core := { c with wsel := place (wsel c).1 56 ||| place (((wsel c).2 + 8) % 2 ^ 24) 0 }

/-- The bits of a word of a region that a write through the window sets; g0 discards it, and the monitor's word is stated
apart. -/
def windowSets (region i : Nat) : Dword :=
  match region with
  | 0x01 => if i = 0 then 0 else BitVec.allOnes 64
  | 0x03 => if i = 896 then 0x1FFFF#64 else BitVec.allOnes 64
  | 0x06 => [0x001FFFFF001FFFFF#64, 0x00000000FFFF03DF#64, 0x801FFFFF001FFFFF#64, 0x00000000001FFFFF#64].getD (i % 4) 0
  | 0x07 => if i < 32 ∧ i % 2 = 1 then 0x3FFFF#64 else BitVec.allOnes 64
  | 0x09 => if i % 65 = 64 then 1 else 0x0FFF0FFF0FFF0FFF#64
  | 0x0A => 0xFFFFFFFF00000001#64
  | _ => BitVec.allOnes 64

/-- What SYSR gives of the registers that are no plain field: the window, the asynchronous records, MTIM, EPCNT, VFBIND,
KEYCTL, DOMCFG and SCOWN. -/
def sysFields (s : State) : Prop :=
  let c := s.core
  let d := s.die (dieOf s.me)
  (∀ r i, (wsel c).1 = r → (wsel c).2 = 8 * i →
    s.sysRead 0x041 = if r = 0 ∨ 15 < r ∨ windowBytes.getD (r - 1) 0 ≤ 8 * i then 0 else windowWords c r i) ∧
  (∀ r rest, c.records = r :: rest → s.sysRead 0x048 = r.syn ∧ s.sysRead 0x049 = r.addr ∧ s.sysRead 0x04A = r.det) ∧
  (c.records.length < 256 → bits (s.sysRead 0x04C) 7 0 = c.records.length ∧ bits (s.sysRead 0x04C) 39 8 = c.recOvf.toNat ∧
    bits (s.sysRead 0x04C) 63 40 = 0) ∧
  (bits (s.sysRead 0x051) 3 1 = c.wreq.toNat ∧ (bit (s.sysRead 0x051) 0 = true ↔ c.tvalid = true) ∧ bits (s.sysRead 0x051) 63 4 = 0) ∧
  (∀ k, k < 5 → (vget c.ports {} k).results.length ≤ 32 →
    s.sysRead (0x058 + k) = BitVec.ofNat 64 (vget c.ports {} k).results.length) ∧
  (∀ n, n < 192 → s.sysRead (0x900 + n) = (s.fn n).vfbind ||| (if 96 ≤ n then 0x4000 else 0)) ∧
  (∀ n, n < 256 →
    let k := Tab.get {} d.keys n
    let x := s.sysRead (0xA00 + n)
    let full (old : Bool) : Bool := vget k.full false (genIx (k.cur ^^ old))
    bits x 63 32 = k.epoch.toNat ∧ bits x 31 24 = k.err.toNat ∧ bits x 23 8 = 0 ∧ (bit x 7 = true ↔ k.sweep = true) ∧
    (bit x 6 = true ↔ full true = true ∨ k.pending ≠ none) ∧ (bit x 5 = true ↔ full false = true) ∧ (bit x 4 = true ↔ genIx k.cur = 1) ∧
    bits x 3 0 = 0) ∧
  (let x := s.sysRead 0xB01
   bits x 51 32 = d.ilrows.toNat ∧ bits x 26 20 = (List.range 64).countP (fun n => bit d.live n) ∧ bits x 19 0 = 777216 ∧
    bits x 63 52 = 0 ∧ bits x 31 27 = 0) ∧
  (∀ p, p < 256 → s.sysRead (0xC00 + p) = BitVec.ofNat 64 (vget d.scown 0 p).toNat)

/-- What SYSW makes of the registers from 0x800 on: what the events that write them make of them on the core's own die; KEYCTL
and DOMLIVE are not written. -/
def sysDieWrites (s : State) (x : Dword) : Prop :=
  let die := dieOf s.me
  s.me < 1024 →
  (∀ p, p < 16 → exec (.pbench die p x) s = .next (s.sysWrite (0x800 + p) x) ∧
    exec (.pnset die p x) s = .next (s.sysWrite (0x810 + p) x) ∧
    exec (.budgetRegisterWrite die p x) s = .next (s.sysWrite (0xB10 + p) x) ∧
    s.sysWrite (0x820 + p) x = s.mapDie die fun d => { d with ps2root := vset d.ps2root p (x &&& 0x0000FFFFFFFF0001) }) ∧
  (∀ n, n < 192 → exec (.vfbind n x) s = .next (s.sysWrite (0x900 + n) x)) ∧
  (∀ n, n < 256 → s.sysWrite (0xA00 + n) x = s ∧ exec (.scownWrite die n x) s = .next (s.sysWrite (0xC00 + n) x)) ∧
  (let mine (f : KeySlot → KeySlot) (t : State) : State := t.mapKey die (bits x 55 52) (bits x 59 56) f
   ((s.die die).keycmd ≠ none → s.sysWrite 0xB00 x = mine (fun k => { k with err := 1 }) s) ∧
   ((s.die die).keycmd = none → bits x 63 60 = 0 ∨ 7 < bits x 63 60 → s.sysWrite 0xB00 x = mine (fun k => { k with err := 6 }) s) ∧
   ((s.die die).keycmd = none → 1 ≤ bits x 63 60 → bits x 63 60 ≤ 7 →
     s.sysWrite 0xB00 x = (mine (fun k => { k with err := 1, sweep := bits x 63 60 == 5 }) s).mapDie die fun d =>
       { d with keycmd := some x, keyDone := 0 })) ∧
  exec (.domcfgWrite die x) s = .next (s.sysWrite 0xB01 x) ∧ s.sysWrite 0xB02 x = s ∧
  exec (.ntokWrite die x) s = .next (s.sysWrite 0xB03 x)

/-- EPCNT of a port written with RAVAIL: its FIFO holds that many of its positions, and every position keeps what it held
(R402). -/
def portCount (s : State) (k : Nat) (x : Dword) : Prop :=
  let t := s.sysWrite (0x058 + k) x
  let p := vget s.core.ports {} k
  let q := vget t.core.ports {} k
  let slot (p : Port) (i : Nat) : Dword := if i < p.results.length then p.results.getD i 0 else vget p.spare 0 i
  bits x 5 0 ≤ 32 → q.results.length = bits x 5 0 ∧ (∀ i, i < 32 → slot q i = slot p i) ∧
    { q with results := p.results, spare := p.spare } = p ∧ t = s.mapCore fun c => { c with ports := vset c.ports k q }

end Sys2Proof.Claim

/-- R401, R404: SYSR gives ga the value of the register that it names where R401 allows the access, a read of WDATA moves the
window on, and an access that R401 does not allow traps: a reserved number with detail 0x70, a level or a partition that may
not with the privilege fault, a register of the cut outside a handler of a trap from PL0 with detail 0x71. R401, R404: SYSW writes the register that it names where R401 allows the access, field by field; it traps as SYSR does. R402: WDATA reads and writes the eight bytes at an offset of a region, in the order of
R402, and moves the offset on by eight; a word written reads so again, but for what its region keeps, and no other word
changes; the monitor's word sets no armed monitor, since R107 lets the device trigger it at any time (the model's choice,
assumption log 16). The registers from 0x800 on are written as by the events that write them. Two readings are the model's:
the level of a column that R401 leaves empty is the other's, and a write there is ignored (assumption log 17); and the fault
bank of PL1 is written by firmware alone (assumption log 16). -/
def Obligations.SystemRegisters : Prop :=
  (∀ (s : State) (a : BitVec 5) (n : BitVec 12), s.core.untaken = false → 1 ≤ s.core.pl.toNat →
    (∀ t, Claim.sysFault s.core n.toNat false t → exec (.sysr a n) s = .next (Claim.trapped s (.sysr a n) t)) ∧
    (Claim.sysAllowed s.core n.toNat false →
      exec (.sysr a n) s = .next (Claim.gone (s.mapCore fun c =>
        let c' : Core := if n = 0x041 then { c with wsel := place (bits c.wsel 63 56) 56 ||| place ((bits c.wsel 23 0 + 8) % 2 ^ 24) 0 } else c
        c'.writeG a (s.sysRead n.toNat)))) ∧
    (∀ p ∈ Claim.sysReads s, s.sysRead p.1 = p.2) ∧ Claim.sysFields s ∧
    (let x := s.sysRead 0x00F
     bits x 35 16 = s.core.pasid.toNat ∧ bits x 15 8 = s.core.vf.toNat ∧ bits x 7 4 = s.core.part.toNat ∧
      bits x 1 0 = s.core.pl.toNat ∧ bits x 63 36 = 0)) ∧
  (∀ (s : State) (a : BitVec 5) (n : BitVec 12), s.core.untaken = false → 1 ≤ s.core.pl.toNat →
    let x := s.core.readG a
    (∀ t, Claim.sysFault s.core n.toNat true t → exec (.sysw a n) s = .next (Claim.trapped s (.sysw a n) t)) ∧
    (Claim.sysAllowed s.core n.toNat true → exec (.sysw a n) s = .next (Claim.gone (s.sysWrite n.toNat x))) ∧
    (let put (m : Nat) (f : Core → Core) : Prop := s.sysWrite m x = s.mapCore f
     put 0x000 (fun c => { c with tr1 := vset c.tr1 0 ((x &&& 0x00FFFCC0FFFFFFFF) ||| (vget c.tr1 0 0 &&& 0xFF00033F00000000)) }) ∧
     (∀ m, m = 1 ∨ m = 2 ∨ m = 3 ∨ m = 5 → put m fun c => { c with tr1 := vset c.tr1 m x }) ∧
     put 0x004 (fun c => c) ∧
     put 0x008 (fun c => { c with tr2 := vset c.tr2 0 ((x &&& 0x00FFFCC0FFFFFFFF) ||| (vget c.tr2 0 0 &&& 0xFF00033F00000000)) }) ∧
     (∀ m, m = 1 ∨ m = 2 ∨ m = 3 ∨ m = 5 → put (8 + m) fun c => { c with tr2 := vset c.tr2 m x }) ∧
     put 0x00C (fun c => { c with tr2 := vset c.tr2 4 (x &&& 0xFFFFFFFFFFFFFFC0) }) ∧
     put 0x00E (fun c => { c with tepc2 := x }) ∧
     (∀ k, k < 4 → put (0x020 + 2 * k) fun c => { c with cut := { c.cut with pc := vset c.cut.pc k x } }) ∧
     (∀ k, k < 4 → put (0x021 + 2 * k) fun c => { c with cut := { c.cut with seq := vset c.cut.seq k x } }) ∧
     (∀ k, k < 10 → put (0x030 + k) fun c => { c with cut := { c.cut with qseq := vset c.cut.qseq k x } }) ∧
     put 0x028 (fun c => { c with cut := { c.cut with tkcnt := x } }) ∧
     put 0x029 (fun c => { c with abandon := x.getLsbD 0 }) ∧
     put 0x040 (fun c => { c with wsel := x &&& 0xFF00000000FFFFFF }) ∧
     put 0x04B (fun c => { c with records := c.records.tail }) ∧
     put 0x050 (fun c => { c with tref := x }) ∧
     put 0x051 (fun c => { c with
       tvalid := x.getLsbD 0, wreq := if 1 ≤ bits x 3 1 ∧ bits x 3 1 ≤ 4 then BitVec.ofNat 3 (bits x 3 1) else c.wreq }) ∧
     put 0x010 (fun c => if c.pl = 2 then { c with fsyn1 := BitVec.ofNat 64 (bits x 31 9 * 2 ^ 9) } else c) ∧
     put 0x011 (fun c => if c.pl = 2 then { c with fva1 := x } else c) ∧
     (∀ m, m = 0x00F ∨ m = 0x018 ∨ m = 0x019 ∨ m = 0x01A ∨ m = 0x060 → put m fun c => c) ∧
     (∀ m, m = 0x048 ∨ m = 0x049 ∨ m = 0x04A ∨ m = 0x04C → put m fun c => c) ∧
     put 0x041 (fun c => Claim.wstep (c.windowWrite (Claim.wsel c).1 (Claim.wsel c).2 x))) ∧
    (∀ k, k < 5 → Claim.portCount s k x) ∧ Claim.sysDieWrites s x) ∧
  (∀ (c : Core) (r i : Nat) (x : Dword), 1 ≤ r → r ≤ 15 → 8 * i < Claim.windowBytes.getD (r - 1) 0 →
    let t := c.windowWrite r (8 * i) x
    (∀ r' j, 1 ≤ r' → r' ≤ 15 → 8 * j < Claim.windowBytes.getD (r' - 1) 0 → (r', j) ≠ (r, i) →
      Claim.windowWords t r' j = Claim.windowWords c r' j) ∧
    (r ≠ 15 → Claim.windowWords t r i = x &&& Claim.windowSets r i) ∧
    (r = 15 → bits x 1 0 ≠ 3 → t.monitor = if bits x 1 0 = 0 then .disarmed else .triggered (x &&& 0xFFFFFFFFFFFFFF80) 0)) ∧
  (∀ (c : Core) (r off : Nat) (x : Dword), r = 0 ∨ 15 < r ∨ Claim.windowBytes.getD (r - 1) 0 ≤ off → c.windowWrite r off x = c)

/-- R22, R27, R398, R401, R404: a word below its level raises the privilege fault (class 0x02, SUB 5) and has none of its effect. R398: the queue, token, barrier, monitor and ring words of a handler, and its pushes and pops on ep0 to ep3, raise the
illegal-operand fault with detail 0x73 while the core is TRAPPED, and have none of their effect. -/
def Obligations.Privilege : Prop :=
  (∀ (s : State) (i : Instr) (level : Nat), s.core.pl.toNat < level →
    (level = 1 ∧ (i = .tret ∨ i = .tlbsync ∨ (∃ a b, i = .tlbinvVa a b ∨ i = .tlbinvPasid a b ∨ i = .tlbinvIpa a b ∨ i = .tlbinvPart a b) ∨
        (∃ a n, i = .sysr a n ∨ i = .sysw a n) ∨
        (∃ a, i = .epush a 4 ∨ i = .epushEnd a 4 ∨ i = .epop a 4 ∨ i = .epoll a 4 ∨ i = .estat a 4)) ∨
      level = 2 ∧ (i = .halt ∨ i = .fenceHb ∨ s.core.untaken = false ∧ ∃ a b, i = .tlbinvIpa a b ∨ i = .tlbinvPart a b)) →
    exec i s = .next (Claim.trapped s i { cls := 0x02, sub := 5 })) ∧
  (∀ (s : State) (i : Instr), s.core.state = .trapped →
    (∃ (a b g : BitVec 5) (l r : BitVec 1) (off : BitVec 10) (q2 w : BitVec 2) (q1 o1 : BitVec 1) (ring mp : BitVec 4)
        (port : BitVec 3), port ≠ 4 ∧
      (i = .tkwait l r ∨ i = .tkpost l r ∨ i = .barInit a b ∨ i = .barArr a ∨ i = .barArrDrop a ∨ i = .barArrJoin a ∨
       i = .barWait a ∨ i = .monarm a off ∨ i = .mwait g a b ∨ i = .mwaitW g a b ∨ i = .ldq q2 a o1 off ∨ i = .stq q1 a o1 off ∨
       i = .qputV a ∨ i = .qputM a ∨ i = .qputX a ∨ i = .qget a ∨ i = .rngset a b ring ∨ i = .rngstat a ring ∨
       i = .sdset a w ring ∨ i = .sdget a w ring ∨ i = .smv a b ring ∨ i = .reshard a b ring mp ∨
       i = .epush a port ∨ i = .epushEnd a port ∨ i = .epop a port)) →
    exec i s = .next (Claim.trapped s i { cls := 0x08, sub := 0x73 }))

namespace Sys2Proof.Claim

/-- S goes on with no command untaken that a trap would discard (R396). -/
def noRewind (c : Core) : Prop := ∀ p ∈ c.ports.toList, p.fifo = [] ∧ p.part = none

/-- The commands that no engine has taken, and the oldest of them (R396). -/
def untakenCommands (c : Core) : List Command := c.ports.toList.flatMap fun p => p.fifo ++ p.part.toList
def oldestCommand (c : Core) (k : Command) : Prop :=
  k ∈ untakenCommands c ∧ ∀ x ∈ untakenCommands c, x = k ∨ k.order < x.order

/-- The bytes of a ring that the untaken SMVs have reserved. -/
def reserved (c : Core) (r : Nat) : Nat :=
  ((untakenCommands c).map fun k => match k.rsv with | some (x, n) => if x = r then n else 0 | none => 0).sum

/-- A trap that discards commands rewinds S (R396, R397, R398): every untaken command is gone and its reservation released;
the g registers and the loop stack of the level left stand as at the oldest one's tag, and the cut, or TEPC2, names that
word. -/
def rewound (c : Core) (p : Pending) : Prop :=
  ∀ x, oldestCommand c x →
    let k : BitVec 2 := if p.trap.toPl2 = true ∨ c.pl = 1 then 2 else 1
    let t := c.enter p
    t.pl = k ∧ bit (vget (if k = 1 then t.tr1 else t.tr2) 0 0) 38 = true ∧ noRewind t ∧ t.logged = 0 ∧ t.g = x.g ∧
    { t with pl := c.pl }.loop .s = x.loops ∧ (t.loop .s).depth = 0 ∧
    (c.pl = 0 → t.cut.pc = vset c.pc 0 x.tagPc ∧ bits (vget t.cut.seq 0 0) 31 0 = x.tagSeq.toNat ∧ t.tepc2 = c.tepc2) ∧
    (c.pl = 1 → t.tepc2 = x.tagPc ∧ t.cut = c.cut) ∧
    (∀ r, r < 16 → (t.desc r).w0 = (c.desc r).w0 ∧ (t.desc r).w1 = (c.desc r).w1 ∧ (t.desc r).w2 = (c.desc r).w2 ∧
      (t.desc r).rsvd = (c.desc r).rsvd - reserved c r) ∧
    (∀ n, n < 5 → (vget t.ports {} n).active = (vget c.ports {} n).active ∧
      (vget t.ports {} n).results = (vget c.ports {} n).results) ∧
    t.cx = c.cx ∧ t.cm = c.cm ∧ t.cv = c.cv ∧ t.v = c.v ∧ t.acc = c.acc

end Sys2Proof.Claim

/-- R365, R396 to R398: entering a handler. The cause register of the handling level takes the class, stream, levels, DRAIN, REWIND and
SUB of the trap, and its companions the detail, address and word; the core is TRAPPED at that level with S at the level's
vector, its loop stack there empty and an armed monitor triggered. From PL0 the cut record takes the streams' positions, from
PL1 TEPC2 the address of the word that resumes. Where no untaken command is discarded, no g register changes; the vector
registers, the other level's registers and memory are left alone. Where commands are discarded, S is rewound to the tag of the
oldest, its g registers and loop stack with it. Three points are the model's: that a seal fault writes FSYN2, FVA2 and FIPA2 beside
the bank of its level (assumption log 50), that a schedule miss records the cycle in which it was raised (assumption log 31), and
which word a trap with no word of its own records (assumption log 16). -/
def Obligations.TrapEntry : Prop :=
  (∀ (c : Core) (p : Pending), c.pl = 0 ∨ c.pl = 1 → c.owed = Vector.replicate 4 0 → Claim.rewound c p) ∧
  ∀ (c : Core) (p : Pending), c.pl = 0 ∨ c.pl = 1 → Claim.noRewind c → c.owed = Vector.replicate 4 0 →
    let k : BitVec 2 := if p.trap.toPl2 = true ∨ c.pl = 1 then 2 else 1
    let t := c.enter p
    let bank := if k = 1 then t.tr1 else t.tr2
    let old := if k = 1 then c.tr1 else c.tr2
    let cause := vget bank 0 0
    t.pl = k ∧ t.state = .trapped ∧ t.pending = none ∧ t.pcOf .s = vget old 0 4 ∧ (t.loop .s).depth = 0 ∧
    vget t.arrived false 0 = false ∧ t.stall = 0 ∧ t.pasid = (if k = 1 then 0 else c.pasid) ∧
    bits cause 55 48 = p.trap.cls.toNat ∧ bits cause 47 44 = (match p.stream with | some st => st.code | none => 15) ∧
    bits cause 43 42 = c.pl.toNat ∧ bits cause 41 40 = k.toNat ∧
    (bit cause 39 = true ↔ p.trap.cls = 0x03 ∨ p.trap.cls = 0x06 ∨ p.trap.cls = 0x07) ∧ bit cause 38 = false ∧
    bits cause 31 0 = p.trap.sub.toNat ∧ bits cause 63 56 = 0 ∧ bits cause 37 32 = 0 ∧
    vget bank 0 1 = p.trap.detail ∧ vget bank 0 2 = p.addr ∧
    vget bank 0 3 = (if p.trap.noWord then 0 else BitVec.ofNat 64 p.word.toNat) ∧
    vget bank 0 4 = vget old 0 4 ∧ vget bank 0 5 = vget old 0 5 ∧
    (k = 1 → t.tr2 = c.tr2) ∧ (k = 2 → t.tr1 = c.tr1) ∧
    (c.pl = 0 → t.before = c.state ∧ t.tepc2 = c.tepc2 ∧ t.cut.pc = c.pc ∧
      (∀ i, i < 4 → bits (vget t.cut.seq 0 i) 31 0 = (vget c.seq 0 i).toNat ∧
        (bit (vget t.cut.seq 0 i) 32 = true ↔ vget c.arrived false i = true)) ∧
      (∀ f, f < 8 → bits t.cut.tkcnt (5 * f + 4) (5 * f) = c.count f) ∧
      (∀ q, q < 6 → bits (vget t.cut.qseq 0 q) 15 0 = (c.wide q).head.toNat ∧
        bits (vget t.cut.qseq 0 q) 31 16 = (c.wide q).tail.toNat) ∧
      (∀ q, q < 4 → bits (vget t.cut.qseq 0 (6 + q)) 15 0 = (c.scalar q).head.toNat ∧
        bits (vget t.cut.qseq 0 (6 + q)) 31 16 = (c.scalar q).tail.toNat)) ∧
    (c.pl = 1 → t.tepc2 = c.pcOf .s ∧ t.cut = c.cut ∧ t.before = c.before) ∧
    (∀ l n, c.monitor = .armed l n → t.monitor = .triggered l n) ∧
    (∀ y, p.trap.syn = some y →
      (y.bank2 = true ∨ c.pl ≠ 0 → t.fsyn2 = y.fsyn ∧ t.fva2 = y.fva ∧ (y.tile = none → t.fipa2 = y.fipa)) ∧
      (¬ (y.bank2 = true ∨ c.pl ≠ 0) → t.fsyn1 = y.fsyn ∧ t.fva1 = y.fva) ∧
      (∀ x, y.tile = some x → t.fsyn2 = y.fsyn ∧ t.fva2 = y.fva ∧ t.fipa2 = x)) ∧
    (p.trap.cls = 0x10 → t.missKiln = p.since) ∧
    t.g = c.g ∧ t.cx = c.cx ∧ t.cm = c.cm ∧ t.cv = c.cv ∧ t.v = c.v ∧ t.acc = c.acc ∧ t.wq = c.wq ∧ t.sq = c.sq ∧
    t.tok = c.tok ∧ t.st = c.st ∧ t.part = c.part ∧ t.job = c.job

/-- R391, R399, R404: ECALL goes on to the next word and then traps with class 0x13 and its number, and at PL2 only goes on; TRAP
traps with class 0x14 before it issues, and at PL2 takes its core OFFLINE. Both trap at once where nothing issued is
outstanding, and otherwise as soon as it is carried to retirement, with no stream issuing meanwhile. An ECALL reached in the
drain of another stream's fault stops S and does not issue: that it raises no trap of its own is the model's reading of R393
(assumption log 16). -/
def Obligations.EcallAndTrap : Prop :=
  ∀ (s : State) (n : BitVec 15), s.core.untaken = false →
    let c := s.core
    let next := s.mapCore fun c => c.advance .s .next
    let entry (cls : BitVec 8) (i : Instr) : Pending :=
      { trap := { cls := cls, sub := BitVec.ofNat 32 n.toNat }, stream := some .s, addr := c.spc, word := wordOf i, since := s.kiln }
    let raised (u : State) (p : Pending) : State :=
      let c := { u.core with waiting := .none }
      if c.carried then (u.dropRanges u.me).putCore u.me ((if c.pl = 0 then { c.dropEarly with marker := u.markers u.me } else c).enter p)
      else u.putCore u.me { c with pending := some p, stall := 0, stopped := Vector.replicate 4 true }
    (c.pl = 0 ∨ c.pl = 1 → c.pending = none →
      exec (.ecall n) s = .next (raised next (entry 0x13 (.ecall n))) ∧
      exec (.trap n) s = .next (raised s (entry 0x14 (.trap n)))) ∧
    (c.pl = 0 ∨ c.pl = 1 → c.pending ≠ none →
      exec (.ecall n) s = .next (s.mapCore fun c => { c with stopped := vset c.stopped 0 true })) ∧
    (c.pl = 2 → exec (.ecall n) s = .next (Claim.gone s) ∧
      ∃ t, exec (.trap n) s = .next t ∧ (t.coreAt s.me).state = .offline ∧ (t.coreAt s.me).g = c.g)

/-- R82, R399, R403: TRET. From a PL2 handler that interrupted PL1 it goes back to TEPC2, whose bits [1:0] it drops (the model's
choice for what R25 leaves open: assumption log 45), under PASID 0 (R350); with
CUTCTL.ABANDON it abandons the job and the core is FREE, its retired stores still to be performed; otherwise every stream resumes at its cut PC, SEQ, tokens and queue positions as they stand, at the level
of TCAUSE.PPL and with the invoking queue's PASID, or, where the cut is not sound, the illegal-operand fault with detail 0x72 is
raised. No g register and no byte of memory changes. -/
def Obligations.TrapReturn : Prop :=
  ∀ (s : State), s.core.untaken = false → s.core.pl = 1 ∨ s.core.pl = 2 →
    let c := s.core
    let ppl := bits (vget (if c.pl = 2 then c.tr2 else c.tr1) 0 0) 43 42
    let inner := c.pl = 2 ∧ ppl = 1
    (inner → ∃ t, exec .tret s = .next t ∧ t.core.pl = 1 ∧ t.core.pc = vset c.pc 0 (BitVec.ofNat 64 (c.tepc2.toNat / 4 * 4)) ∧
      t.core.pasid = 0 ∧ t.core.state = c.state ∧ t.core.g = c.g ∧ t.mem = s.mem) ∧
    (¬ inner → c.abandon = true → ∃ t, exec .tret s = .next t ∧ t.core.state = .free ∧ t.core.abandon = false ∧
      t.core.pl = 0 ∧ t.core.stores = c.stores ∧ t.core.xfers = [] ∧ t.core.steps = [] ∧ t.core.g = c.g) ∧
    (¬ inner → c.abandon = false → c.cutOk = false → exec .tret s = .next (Claim.trapped s .tret { cls := 0x08, sub := 0x72 })) ∧
    (¬ inner → c.abandon = false → c.cutOk = true → ppl ≠ 3 → ∃ t, exec .tret s = .next t ∧
      t.core.pl.toNat = ppl ∧ t.core.pasid = c.jobPasid ∧ t.core.pc = c.cut.pc ∧
      (∀ i, i < 4 → vget t.core.seq 0 i = (vget c.cut.seq 0 i).setWidth 32 ∧
        vget t.core.arrived false i = (vget c.cut.seq 0 i).getLsbD 32) ∧
      (∀ f, f < 8 → t.core.count f = bits c.cut.tkcnt (5 * f + 4) (5 * f) ∧ t.core.pend.getLsbD f = bit c.cut.tkcnt (40 + f)) ∧
      (∀ q, q < 6 → (t.core.wide q).head.toNat = bits (vget c.cut.qseq 0 q) 15 0 ∧
        (t.core.wide q).tail.toNat = bits (vget c.cut.qseq 0 q) 31 16 ∧ (t.core.wide q).slot = (c.wide q).slot) ∧
      (∀ q, q < 4 → (t.core.scalar q).head.toNat = bits (vget c.cut.qseq 0 (6 + q)) 15 0 ∧
        (t.core.scalar q).tail.toNat = bits (vget c.cut.qseq 0 (6 + q)) 31 16 ∧ (t.core.scalar q).slot = (c.scalar q).slot) ∧
      (c.state = .trapped → c.before = .running ∨ c.before = .rendezvous →
        t.core.state = if c.cut.seq.toList.any (·.getLsbD 32) then .rendezvous else .running) ∧
      t.core.g = c.g ∧ t.core.loops = c.loops ∧ t.core.v = c.v ∧ t.core.acc = c.acc ∧ t.core.st = c.st ∧
      t.mem = s.mem ∧ ∀ k, k ≠ s.me → t.coreAt k = s.coreAt k)

namespace Sys2Proof.Claim

/-- What a removal of translations does: the other dies of the node set are told, and the entries on this die are marked. -/
def invalidates (i : Instr) (s : State) (kind : Nat) (x y : Dword) : Prop :=
  ∀ ids s1, s.tellAll [BitVec.ofNat 64 (ctrlTlbinv + kind * 2 ^ 8 + s.core.vf.toNat * 2 ^ 16), x, y] = some (ids, s1) →
    exec i s = .next (gone ((s1.markTlb (dieOf s.me) kind s.core.part s.core.vf.toNat x y).mapCore fun c =>
      { c with invals := c.invals ++ ids, synced := false }))

end Sys2Proof.Claim

/-- R360, R361: the four TLBINV words remove by VA and PASID, by PASID, by IPA and partition, and by partition, on their own die and
by a message at every other die of the node set; TLBSYNC goes on once this stream's accesses are performed, every such message
is acknowledged and no access still uses a removed translation. R361: the operand faults of the TLBINV words: an address outside the device half with detail 0x60, a PASID of more than 20 bits
or a partition of more than four with detail 0x61. -/
def Obligations.TranslationWords : Prop :=
  (∀ (s : State) (a b : BitVec 5), s.core.untaken = false → 1 ≤ s.core.pl.toNat →
    let x := s.core.readG a
    let y := s.core.readG b
    (bits x 63 56 = 0xFE → y.toNat < 2 ^ 20 → Claim.invalidates (.tlbinvVa a b) s 0 x y) ∧
    (y.toNat < 2 ^ 20 → Claim.invalidates (.tlbinvPasid a b) s 1 0 y) ∧
    (s.core.pl = 2 → y.toNat < 16 → Claim.invalidates (.tlbinvIpa a b) s 2 x y) ∧
    (s.core.pl = 2 → x.toNat < 16 → Claim.invalidates (.tlbinvPart a b) s 3 x 0) ∧
    (s.core.performed = true → s.core.invals = [] → s.core.synced = true →
      exec .tlbsync s = .next (if s.settledDie (dieOf s.me)
        then Claim.gone ((s.dropMarked (dieOf s.me)).mapCore fun c => { c with synced := false })
        else s.held .s (.device 22)))) ∧
  (∀ (s : State) (a b : BitVec 5), s.core.untaken = false →
    let x := s.core.readG a
    let y := s.core.readG b
    let bad (i : Instr) (n : Nat) : Prop := exec i s = .next (Claim.trapped s i (Trap.operand n))
    (1 ≤ s.core.pl.toNat → (bits x 63 56 ≠ 0xFE → bad (.tlbinvVa a b) 0x60) ∧
      (bits x 63 56 = 0xFE → 2 ^ 20 ≤ y.toNat → bad (.tlbinvVa a b) 0x61) ∧ (2 ^ 20 ≤ y.toNat → bad (.tlbinvPasid a b) 0x61)) ∧
    (s.core.pl = 2 → (16 ≤ y.toNat → bad (.tlbinvIpa a b) 0x61) ∧ (16 ≤ x.toNat → bad (.tlbinvPart a b) 0x61)))

/-- R404, R405: ICINV drops the 64-byte line of ga, and ICINV.ALL every line, from the instruction caches of the streams that the
mask names (bit 3 S, bit 2 X, bit 1 M, bit 0 V), and lets go of such a line that a stream has yet to get from a peer, once
S's earlier accesses are performed; HALT takes a core with nothing
outstanding OFFLINE, its registers kept. Until then they hold. -/
def Obligations.CachesAndHalt : Prop :=
  ∀ (s : State) (a : BitVec 5) (mask : BitVec 4), s.core.untaken = false →
    let goes (keep : Dword → Bool) (w : Waiting) : Prop :=
      (∃ pc ids got, w = .peer pc ids got ∧ keep pc = false) ∨ ∃ pc bad got, w = .answered pc bad got ∧ keep pc = false
    let kept (keep : Dword → Bool) (c c' : Core) : Prop :=
      (∀ i < 4, mask.getLsbD (3 - i) = true →
        vget c'.icache [] i = (vget c.icache [] i).filter (fun l => keep l.va) ∧
        (goes keep (vget c.fwait .none i) → vget c'.fwait .none i = .none) ∧
        (¬ goes keep (vget c.fwait .none i) → vget c'.fwait .none i = vget c.fwait .none i)) ∧
      (∀ i < 4, mask.getLsbD (3 - i) = false →
        vget c'.icache [] i = vget c.icache [] i ∧ vget c'.fwait .none i = vget c.fwait .none i) ∧
      { c' with icache := c.icache, fwait := c.fwait } = c
    let va := BitVec.ofNat 64 ((s.core.readG a).toNat / 64 * 64)
    let when (b : Bool) (t : State) : State := if b then Claim.gone t else s.held .s (.device 22)
    (∃ c', kept (· != va) s.core c' ∧ exec (.icinv a mask) s = .next (when s.core.performed (s.mapCore fun _ => c'))) ∧
    (∃ c', kept (fun _ => false) s.core c' ∧ exec (.icinvAll a mask) s = .next (when s.core.performed (s.mapCore fun _ => c'))) ∧
    (s.core.pl = 2 → exec .halt s = .next (when s.core.idle (s.mapCore fun c => { c with state := .offline })))

/-! ### The vector engine -/

namespace Sys2Proof.Claim

/-- Lane `j` of a vector operand of `w`-bit lanes (R181). -/
def vLane (c : Core) (code : BitVec 5) (w j : Nat) : Nat := (c.vec code).toNat / 2 ^ (j * w) % 2 ^ w

/-- Lane `j` of a vs2 operand (R184): a register or queue, a c register, the head of S→V, or an immediate converted to the lane
format. -/
def vOperand (c : Core) (h : Shape) (code : BitVec 5) (sopd : BitVec 3) (j : Nat) : Nat :=
  if sopd = 0 then vLane c code h.fmt.width j
  else if sopd = 1 then (c.readC .v (code.extractLsb' 0 4)).toNat % 2 ^ h.fmt.width
  else if sopd = 2 then (c.scalar 0).top.toNat % 2 ^ h.fmt.width
  else h.fmt.round .rne false true (.ofInt code.toInt)

/-- Lane `j` of an index operand (R198): an unsigned `w`-bit integer, an immediate not converted. -/
def vIndex (c : Core) (h : Shape) (code : BitVec 5) (sopd : BitVec 3) (j : Nat) : Nat :=
  if sopd = 3 then (code.toInt % 2 ^ h.fmt.width).toNat else vOperand c h code sopd j

/-- What a V word reads and computes: its operands among the vector registers and load queues, whether it reads the head of S→V,
and its result as a width, a number of lanes and each lane's value; none for a run-time operand error (R186). -/
structure VWord where
  sync : BitVec 4
  vd : BitVec 5
  vecs : List (BitVec 5)
  sv : Bool
  result : Core → Option (Nat × Nat × (Nat → Nat))

/-- VSHAPE, where it is legal and its lane format is one that the word takes (R183, R186). -/
def vShape (c : Core) (ok : Fmt → Bool) : Option Shape := (Shape.ofWord c.vshape).filter fun h => ok h.fmt

/-- A word whose lane `j` is a function of lane `j` of vs1, of the vs2 operand and of vd. -/
def vBinary (sync : BitVec 4) (vd a b : BitVec 5) (sopd : BitVec 3) (ok : Fmt → Bool) (f : Fmt → Nat → Nat → Nat → Nat) : VWord :=
  { sync := sync, vd := vd, vecs := a :: (if sopd = 0 then [b] else []), sv := sopd == 2
    result := fun c => (vShape c ok).map fun h => (h.fmt.width, h.len, fun j =>
      f h.fmt (vLane c a h.fmt.width j) (vOperand c h b sopd j) (if vd.toNat < 28 then vLane c vd h.fmt.width j else 0)) }

/-- A word whose lane `j` is a function of lane `j` of vs1. -/
def vUnary (sync : BitVec 4) (vd a : BitVec 5) (f : Fmt → Nat → Nat) : VWord :=
  { sync := sync, vd := vd, vecs := [a], sv := false
    result := fun c => (vShape c (!·.isInt)).map fun h => (h.fmt.width, h.len, fun j => f h.fmt (vLane c a h.fmt.width j)) }

/-- A word that permutes the lanes of vs1, out of a list of them, with an index operand; `n` lanes of result. -/
def vPermute (sync : BitVec 4) (vd a b : BitVec 5) (sopd : BitVec 3) (n : Nat → Nat) (f : Nat → (Nat → Nat) → (Nat → Nat) → Nat → Nat) :
    VWord :=
  { sync := sync, vd := vd, vecs := a :: (if sopd = 0 then [b] else []), sv := sopd == 2
    result := fun c => (vShape c fun _ => true).map fun h =>
      (h.fmt.width, n h.len, f h.len (vLane c a h.fmt.width) (vIndex c h b sopd)) }

/-- A word that makes one lane of all lanes of vs1. -/
def vReduce (sync : BitVec 4) (vd a : BitVec 5) (f : Fmt → List Nat → Nat) : VWord :=
  { sync := sync, vd := vd, vecs := [a], sv := false
    result := fun c => (vShape c fun _ => true).map fun h =>
      (h.fmt.width, 1, fun _ => f h.fmt ((List.range h.len).map (vLane c a h.fmt.width))) }

/-- A floating result: the exact value of its lanes rounded once (R189). -/
def vFloat (rnd : BitVec 2) (ovf : BitVec 1) (g : Rnd → Machine.Num → Machine.Num → Machine.Num → Machine.Num) (f : Fmt)
    (a b d : Nat) : Nat :=
  f.round (Rnd.ofCode rnd) (ovf == 1) true (g (Rnd.ofCode rnd) (f.decode true a) (f.decode true b) (f.decode true d))

/-- The smaller or larger of two float codes, −0 below +0; the produced NaN where either is NaN (R190). -/
def vBest (larger : Bool) (f : Fmt) (a b : Nat) : Nat :=
  if f.decode true a = .nan ∨ f.decode true b = .nan then f.nan
  else if (f.decode true a).le true (f.decode true b) then (if larger then b else a) else (if larger then a else b)

/-- A lane of ones where a relation of two lanes holds; NaN compares false, and −0 equals +0 (R192). -/
def vMask (rel : Bool → Bool → Bool) (f : Fmt) (a b : Nat) : Nat :=
  let x := f.decode true a
  let y := f.decode true b
  if x ≠ .nan ∧ y ≠ .nan ∧ rel (x.le false y) (y.le false x) then 2 ^ f.width - 1 else 0

/-- The V words that compute lanes, with what R189 to R198 and R200 make each lane of the result. -/
def vWord (i : Instr) : Option VWord :=
  let fl : Fmt → Bool := (!·.isInt)
  let int : Fmt → Bool := (·.isInt)
  let all : Fmt → Bool := fun _ => true
  let z (f : Fmt) (x : Nat) : Int := if x < 2 ^ (f.width - 1) then x else (x : Int) - 2 ^ f.width
  let wrap (f : Fmt) (x : Int) : Nat := (x % 2 ^ f.width).toNat
  match i with
  | .vadd sync vd a b rnd ovf sopd => some (vBinary sync vd a b sopd fl (vFloat rnd ovf fun r x y _ => x.add r y))
  | .vsub sync vd a b rnd ovf sopd => some (vBinary sync vd a b sopd fl (vFloat rnd ovf fun r x y _ => x.add r y.neg))
  | .vmul sync vd a b rnd ovf sopd => some (vBinary sync vd a b sopd fl (vFloat rnd ovf fun _ x y _ => x.mul y))
  | .vfma sync vd a b rnd ovf sopd => some (vBinary sync vd a b sopd fl (vFloat rnd ovf fun r x y d => (x.mul y).add r d))
  | .vfms sync vd a b rnd ovf sopd => some (vBinary sync vd a b sopd fl (vFloat rnd ovf fun r x y d => d.add r (x.mul y).neg))
  | .vmin sync vd a b sopd => some (vBinary sync vd a b sopd fl fun f x y _ => vBest false f x y)
  | .vmax sync vd a b sopd => some (vBinary sync vd a b sopd fl fun f x y _ => vBest true f x y)
  | .vabs sync vd a => some (vUnary sync vd a fun f x => if f.decode true x = .nan then f.nan else x % 2 ^ (f.width - 1))
  | .vneg sync vd a => some (vUnary sync vd a fun f x =>
      if f.decode true x = .nan then f.nan else if x < 2 ^ (f.width - 1) then x + 2 ^ (f.width - 1) else x - 2 ^ (f.width - 1))
  | .vfrcp sync vd a => some (vUnary sync vd a (Transc.lane .rcp))
  | .vfrsq sync vd a => some (vUnary sync vd a (Transc.lane .rsq))
  | .vfexp2 sync vd a => some (vUnary sync vd a (Transc.lane .exp2))
  | .vflog2 sync vd a => some (vUnary sync vd a (Transc.lane .log2))
  | .vftanh sync vd a => some (vUnary sync vd a (Transc.lane .tanh))
  | .vcmpeq sync vd a b sopd => some (vBinary sync vd a b sopd all fun f x y _ => vMask (fun p q => p && q) f x y)
  | .vcmplt sync vd a b sopd => some (vBinary sync vd a b sopd all fun f x y _ => vMask (fun p q => p && !q) f x y)
  | .vcmple sync vd a b sopd => some (vBinary sync vd a b sopd all fun f x y _ => vMask (fun p _ => p) f x y)
  | .vsel sync vd a b sopd => some (vBinary sync vd a b sopd all fun _ x y d => if d ≠ 0 then x else y)
  | .viadd sync vd a b sopd => some (vBinary sync vd a b sopd int fun f x y _ => wrap f (z f x + z f y))
  | .visub sync vd a b sopd => some (vBinary sync vd a b sopd int fun f x y _ => wrap f (z f x - z f y))
  | .vimul sync vd a b sopd => some (vBinary sync vd a b sopd int fun f x y _ => wrap f (z f x * z f y))
  | .vimin sync vd a b sopd => some (vBinary sync vd a b sopd int fun f x y _ => wrap f (min (z f x) (z f y)))
  | .vimax sync vd a b sopd => some (vBinary sync vd a b sopd int fun f x y _ => wrap f (max (z f x) (z f y)))
  | .vand sync vd a b sopd => some (vBinary sync vd a b sopd all fun _ x y _ => x &&& y)
  | .vor sync vd a b sopd => some (vBinary sync vd a b sopd all fun _ x y _ => x ||| y)
  | .vxor sync vd a b sopd => some (vBinary sync vd a b sopd all fun _ x y _ => x ^^^ y)
  | .vshl sync vd a b sopd => some (vBinary sync vd a b sopd int fun f x y _ => x * 2 ^ (y % f.width) % 2 ^ f.width)
  | .vshr sync vd a b sopd => some (vBinary sync vd a b sopd int fun f x y _ => x / 2 ^ (y % f.width))
  | .vsar sync vd a b sopd => some (vBinary sync vd a b sopd int fun f x y _ => wrap f ((z f x).fdiv (2 ^ (y % f.width))))
  | .vcvt sync vd a fmt rnd ovf inf => some
      { sync := sync, vd := vd, vecs := [a], sv := false
        result := fun c => (vShape c all).bind fun h => (Fmt.ofCode fmt).bind fun t =>
          if h.len * t.width ≤ 2048 then some (t.width, h.len, fun j =>
            t.round (Rnd.ofCode rnd) (ovf == 1) (inf == 1) (h.fmt.decode true (vLane c a h.fmt.width j))) else none }
  | .vqnt sync vd a b rnd ovf inf sopd => some
      { vBinary sync vd a b sopd fl (fun _ x _ _ => x) with
        result := fun c => (vShape c fl).bind fun h => h.narrow.map fun t => (t.width, h.len, fun j =>
          t.round (Rnd.ofCode rnd) (ovf == 1) (inf == 1)
            ((h.fmt.decode true (vLane c a h.fmt.width j)).mul (h.fmt.decode true (vOperand c h b sopd j)))) }
  | .vdqnt sync vd a b inf sopd => some
      { vBinary sync vd a b sopd fl (fun _ x _ _ => x) with
        result := fun c => (vShape c fl).bind fun h => h.narrow.map fun t => (h.fmt.width, h.len, fun j =>
          let scale := Fmt.bf16.decode true (roundBF16 (h.fmt.decode true (vOperand c h b sopd j)))
          let y := Fmt.bf16.decode true (roundBF16 ((t.decode (inf == 1) (vLane c a t.width j)).mul scale))
          h.fmt.round .rne true true y) }
  | .vrsum sync vd a => some (vReduce sync vd a fun f l =>
      if f.isInt then wrap f ((l.map (z f)).sum) else sumLanes f l)
  | .vrmax sync vd a => some (vReduce sync vd a fun f l =>
      if f.isInt then wrap f ((l.map (z f)).foldl max (z f (l.headD 0))) else extremeLanes true f l)
  | .vrmin sync vd a => some (vReduce sync vd a fun f l =>
      if f.isInt then wrap f ((l.map (z f)).foldl min (z f (l.headD 0))) else extremeLanes false f l)
  | .vperm sync vd a b sopd => some (vPermute sync vd a b sopd id fun n x ix j => if ix j < n then x (ix j) else 0)
  | .vbcast sync vd a b sopd => some (vPermute sync vd a b sopd id fun n x ix _ => if ix 0 < n then x (ix 0) else 0)
  | .vrot sync vd a b sopd => some (vPermute sync vd a b sopd id fun n x ix j => x ((((j : Int) - ix 0) % n).toNat))
  | .vext sync vd a b sopd => some (vPermute sync vd a b sopd (fun _ => 1) fun n x ix _ => if ix 0 < n then x (ix 0) else 0)
  | .vmov sync vd b sopd => some
      { sync := sync, vd := vd, vecs := if sopd = 0 then [b] else [], sv := sopd == 2
        result := fun c => if sopd = 0 then some (2048, 1, fun _ => (c.vec b).toNat)
          else (vShape c all).map fun h => (h.fmt.width, h.len, vOperand c h b sopd) }
  | _ => none

/-- Room for an entry in sq0 or sq1, or an entry in a wide queue, that stood when the cycle started (R20). -/
def hasWide (c : Core) (q : Nat) : Prop :=
  (c.wide q).size + (vget c.fills [] q).length + (vget c.gone 0 (8 + q)).toNat < 8
def holdsWide (c : Core) (q : Nat) : Prop := (vget c.fresh 0 (8 + q)).toNat < (c.wide q).size

/-- Room in the queue that a V word's destination names (R185). -/
def vRoom (c : Core) (vd : BitVec 5) : Prop :=
  (vd = 28 → hasWide c 4) ∧ (vd = 29 → hasWide c 5) ∧ (vd = 30 → hasPlace c 1)

/-- What a V word needs to issue: its tokens, an entry in each queue that it reads, and room at its destination (R42, R185). -/
def vReady (s : State) (w : VWord) : Prop :=
  mayStart s .v w.sync ∧ (∀ q ∈ queuesOf w.vecs, holdsWide s.core q) ∧ (w.sv = true → hasEntry s.core 0) ∧
    vRoom s.core w.vd

end Sys2Proof.Claim

/-- R181 to R198, R200: a V word that computes lanes puts each lane of its result, and zero in every bit above them, into its
destination, and pops each queue that it reads once; a run-time operand error raises class 0x08 and leaves its queues. -/
def Obligations.VectorResult : Prop :=
  ∀ (i : Instr) (w : Claim.VWord) (s : State), Claim.vWord i = some w → i.wf = true → Claim.vReady s w →
    (∀ width n f, w.result s.core = some (width, n, f) → ∃ x : BitVec 2048,
      exec i s = .next (Claim.issued s .v w.sync (fun c => (c.popQueues (queuesOf w.vecs) w.sv).writeV w.vd x) .next) ∧
      (∀ j, j < n → x.toNat / 2 ^ (j * width) % 2 ^ width = f j) ∧ x.toNat < 2 ^ (n * width)) ∧
    (w.result s.core = none →
      exec i s = .next ((s.draw 32).2.raise s.me (some .v) { cls := 0x08, sub := (s.draw 32).1 } (s.core.pcOf .v) (wordOf i)))

/-- R168, R181, R185: a V word that computes lanes changes its destination, the heads of the queues that it reads, V's program
counter, loop stack and count, and the tokens that its sync bits name (with what the cycle has put in and taken out, R19, R20); the other registers, the accumulators, memory and the
other cores stand. Its result goes to v0 to v27, to sq0 or sq1, to V→S, or, at code 31, nowhere. -/
def Obligations.VectorFrame : Prop :=
  ∀ (i : Instr) (w : Claim.VWord) (s t : State), Claim.vWord i = some w → i.wf = true → Claim.vReady s w →
    (w.result s.core).isSome = true → exec i s = .next t →
    t.mem = s.mem ∧ (∀ a, Memory.read t.mem a = Memory.read s.mem a) ∧ { t with cores := s.cores } = s ∧
    (∀ k, k ≠ s.me → t.coreAt k = s.coreAt k) ∧
    (∀ r, r < 28 → r ≠ w.vd.toNat → vget t.core.v 0 r = vget s.core.v 0 r) ∧
    (∀ q, q < 4 → (t.core.wide q).head = (s.core.wide q).head + (if q ∈ queuesOf w.vecs then 1 else 0) ∧
      (t.core.wide q).tail = (s.core.wide q).tail ∧ (t.core.wide q).slot = (s.core.wide q).slot) ∧
    (∀ q, q = 4 ∨ q = 5 → q + 24 ≠ w.vd.toNat → t.core.wide q = s.core.wide q) ∧
    t.core.scalar 0 = (if w.sv then (s.core.scalar 0).pop else s.core.scalar 0) ∧
    (w.vd ≠ 30 → t.core.scalar 1 = s.core.scalar 1) ∧ t.core.scalar 2 = s.core.scalar 2 ∧ t.core.scalar 3 = s.core.scalar 3 ∧
    (∀ st, st ≠ Stream.v → t.core.pcOf st = s.core.pcOf st) ∧
    { t.core with v := s.core.v, wq := s.core.wq, sq := s.core.sq, pc := s.core.pc, seq := s.core.seq, loops := s.core.loops
                  tok := s.core.tok, owed := s.core.owed, hold := s.core.hold, stall := s.core.stall
                  fresh := s.core.fresh, gone := s.core.gone } = s.core

/-- R183, R199: VRD copies the 256 bytes at the head of a fixed ring into its destination and pops them, and holds while the ring
has fewer, and raises class 0x0E where a word of them holds an uncorrectable error; VSHAPE takes a legal value from a c register or from the head of S→V, which it pops, and with another one raises
class 0x08 and leaves VSHAPE and the queue. -/
def Obligations.VectorMoves : Prop :=
  ∀ (s : State) (sync : BitVec 4), Claim.mayStart s .v sync →
    let error (i : Instr) : Prop := exec i s =
      .next ((s.draw 32).2.raise s.me (some .v) { cls := 0x08, sub := (s.draw 32).1 } (s.core.pcOf .v) (wordOf i))
    (∀ (vd : BitVec 5) (ring : BitVec 4), Claim.vRoom s.core vd →
      let d := s.core.desc ring.toNat
      (d.isFrit = true → error (.vrd sync vd ring)) ∧
      (d.isFrit = false → d.avail < 256 → exec (.vrd sync vd ring) s = .next (s.held .v (.ringShort ring.toNat 256))) ∧
      (d.isFrit = false → 256 ≤ d.avail → s.ringLoad s.me d d.head 256 = none →
        exec (.vrd sync vd ring) s = .next (s.raise s.me (some .v) { cls := 0x0E } (s.core.pcOf .v) (wordOf (.vrd sync vd ring)))) ∧
      (d.isFrit = false → 256 ≤ d.avail → s.ringLoad s.me d d.head 256 ≠ none → ∃ x : BitVec 2048,
        exec (.vrd sync vd ring) s =
          .next (Claim.issued s .v sync (fun c => (c.setDesc ring.toNat (d.popBytes 256)).writeV vd x) .next) ∧
        ∀ j, j < 256 → x.toNat / 2 ^ (8 * j) % 2 ^ 8 = (s.core.scratchByte s.mem s.me (d.at d.head j)).toNat)) ∧
    (∀ (b : BitVec 5) (sopd : BitVec 3), sopd = 1 ∨ sopd = 2 → (sopd = 2 → Claim.hasEntry s.core 0) →
      let x := if sopd = 1 then s.core.readC .v (b.extractLsb' 0 4) else (s.core.scalar 0).top
      (Shape.ofWord x = none → error (.vshape sync b sopd)) ∧
      (Shape.ofWord x ≠ none → exec (.vshape sync b sopd) s = .next (Claim.issued s .v sync
        (fun c => { c.popQueues [] (sopd == 2) with vshape := x }) .next)))

/-! ### The matrix engine -/

namespace Sys2Proof.Claim

/-- The operands of the two step words (R40). -/
def stepOp (i : Instr) : Option StepOp :=
  let op (t : Bool) (sync : BitVec 4) (acc : BitVec 2) (a b : BitVec 4) (ta tb ow pa pb last : BitVec 1) (stamp : BitVec 8) : StepOp :=
    { transposed := t, sync := sync, acc := acc.toNat, sta := a.toNat, stb := b.toNat, ta := ta == 1, tb := tb == 1
      ow := ow == 1, pa := pa == 1, pb := pb == 1, last := last == 1, stamp := stamp.toNat }
  match i with
  | .mma sync acc a b ta tb ow pa pb last stamp => some (op false sync acc a b ta tb ow pa pb last stamp)
  | .mmat sync acc a b ta tb ow pa pb last stamp => some (op true sync acc a b ta tb ow pa pb last stamp)
  | _ => none

/-- `n` bytes of an entry from byte `at0`, the first the least significant. -/
def part (bs : List Byte) (at0 n : Nat) : Nat := leNat ((bs.drop at0).take n)

/-- A[p][k] of an A entry (R201). -/
def entryA (bs : List Byte) (ta : Bool) (p k : Nat) : Machine.Num :=
  Fmt.bf16.decode true (part bs (2 * (if ta then 64 * k + p else 32 * p + k)) 2)

/-- B'[k][q] of a B entry: its code, dequantised by its scale (R159, R202, R203). -/
def entryB (d : Desc) (bs : List Byte) (symbols : List Nat) (tb : Bool) (k q : Nat) : Machine.Num :=
  let f := (Fmt.ofCode d.fmt).getD .bf16
  let i := if tb then 32 * q + k else 64 * k + q
  let code := if d.isFrit then symbols.getD i 0 else leNat bs / 2 ^ (f.width * i) % 2 ^ f.width
  let at0 := if d.isFrit then fritScales (part bs 4 4) else codeBytes f
  let row := if d.block = 0 then k / 16 else 0
  let scale := if d.sstride = 0 then 0x3F80 else part bs (at0 + (64 * row + q) * d.sstride) 2
  Fmt.bf16.decode true (dequant f d.inf code scale)

/-- Element `e` of an accumulator (R161). -/
def element (a : BitVec 131072) (e : Nat) : Nat := a.toNat / 2 ^ (32 * e) % 2 ^ 32

/-- No step in flight commits into one of these accumulators or reads one of these rings (R209, R210); a bare entry holds only
the posts of another word of M. -/
def quiet (c : Core) (accs rings : List Nat) : Prop :=
  ∀ m ∈ c.steps, m.bare = false → m.acc ∉ accs ∧ ∀ r ∈ rings, r ∉ m.rings

/-- A ring that MDRAIN and MFILL take (R210): FP32 or BF16 without scales. -/
def plainRing (d : Desc) : Prop :=
  d.isFrit = false ∧ (Fmt.ofCode d.fmt = some .fp32 ∨ Fmt.ofCode d.fmt = some .bf16) ∧ d.sstride = 0

/-- The bytes of an accumulator in the format of a ring. -/
def plainBytes (d : Desc) : Nat := if Fmt.ofCode d.fmt = some .fp32 then 16384 else 8192

end Sys2Proof.Claim

/-- R161, R201 to R208, R214: MMA and MMAT start a step once their tokens, both entries, the array and a window of the bench stand:
element (p, q) of the step is the sum of R161 over the 32 pairs A[p][k] and B'[k][q], for MMAT over A[q][k] and B'[k][p]. A
timed step starts at TREF + 64 x STAMP and leaves TREF there; before it it holds, and one that comes to issue after it
raises the schedule miss (class 0x10, LATE), unless its tile failed before (R227: class 0x0F); one met again after a
resumption decodes its tile once more first, and takes the fault that this finds. That the target is taken modulo 2^64
(assumption log 54) and that a late step records LATE alone (assumption log 31) are the model's choices. The oldest step commits when it retires: each element of its accumulator is
the step's, added to the old one unless OW is set; the entries it pops leave their rings. -/
def Obligations.MatrixSteps : Prop :=
  (∀ (i : Instr) (o : StepOp) (s s1 : State) (symbols : List Nat) (len : Nat) (xs ys : List Byte),
    Claim.stepOp i = some o → s.core.stepFault o = none → s.core.tokens .m o.sync = true →
    let c := s.core
    let target := if o.stamp = 0 then s.kiln else c.tref + 64 * BitVec.ofNat 64 o.stamp
    (o.stamp ≠ 0 → target.toNat ≤ s.kiln.toNat ∧ (target.toNat < s.kiln.toNat → vget c.hold .none 2 = .timed target)) →
    s.entryB o.stb = some len →
    (if (c.desc o.stb).isFrit then Claim.does (tileSymbols o.stb (c.stepHead o.stb) len) s (some symbols) s1 else s1 = s) →
    4096 ≤ c.stepAvail o.sta → (∀ l, c.lastStep = some l → l.toNat + 64 ≤ target.toNat) → s.inWindow target.toNat = true →
    s1.ringLoad s1.me (s1.core.desc o.sta) (c.stepHead o.sta) 4096 = some xs →
    s1.ringLoad s1.me (s1.core.desc o.stb) (c.stepHead o.stb) len = some ys →
    ∃ m : MStep,
      exec i s = .next (s1.mapCore fun c => (({ c with
        steps := c.steps ++ [m], lastStep := some target, tref := if o.stamp = 0 then c.tref else target }).take .m o.sync).advance .m .next) ∧
      m.acc = o.acc ∧ m.ow = o.ow ∧ m.last = o.last ∧ m.start = target ∧ m.posts = postBits o.sync ∧ m.rings = [o.sta, o.stb] ∧
      m.pops = (if o.pa then [(o.sta, 4096)] else []) ++ (if o.pb ∧ ¬ (o.pa ∧ o.sta = o.stb) then [(o.stb, len)] else []) ∧
      ∀ p q, p < 64 → q < 64 → Claim.element m.sums (64 * p + q) = stepSum ((List.range 32).map fun k =>
        if o.transposed then (Claim.entryA xs o.ta q k, Claim.entryB (c.desc o.stb) ys symbols o.tb k p)
        else (Claim.entryA xs o.ta p k, Claim.entryB (c.desc o.stb) ys symbols o.tb k q))) ∧
  (∀ (i : Instr) (o : StepOp) (s : State), Claim.stepOp i = some o → s.core.stepFault o = none → o.stamp ≠ 0 →
    let target := s.core.tref + 64 * BitVec.ofNat 64 o.stamp
    (s.kiln.toNat < target.toNat → (s.core.desc o.stb).isFrit = false → exec i s = .next (s.held .m (.timed target))) ∧
    let tile := s.core.failedBefore o.stb (s.core.stepHead o.stb) target.toNat
    let miss (s : State) : State := s.raise s.me (some .m) { cls := 0x10, detail := BitVec.ofNat 64 (256 * target.toNat + 1) }
      (s.core.pcOf .m) (wordOf i)
    let again : Prop := s.core.again = some (vget s.core.seq 0 2) ∧ (s.core.desc o.stb).isFrit = true ∧ s.entryB o.stb ≠ none
    (target.toNat < s.kiln.toNat → vget s.core.hold .none 2 ≠ .timed target → again → ∀ len, s.entryB o.stb = some len →
      let work := (tileSymbols o.stb (s.core.stepHead o.stb) len).run.run s
      (∀ t s1, work = (.error (.trap t), s1) →
        exec i s = .next (s1.raise s.me (some .m) t (s.core.pcOf .m) (wordOf i))) ∧
      (∀ s1, work = (.ok none, s1) → exec i s = .next (s1.held .m (.device 20))) ∧
      (∀ x s1, work = (.ok (some x), s1) → tile = none → exec i s = .next (s1.raise s.me (some .m)
        { cls := 0x10, detail := BitVec.ofNat 64 (256 * target.toNat + 1) } (s.core.pcOf .m) (wordOf i)))) ∧
    (∀ x, ¬ again → target.toNat < s.kiln.toNat → vget s.core.hold .none 2 ≠ .timed target → tile = some x →
      exec i s = .next (s.raise s.me (some .m) { cls := 0x0F, detail := x } (s.core.pcOf .m) (wordOf i))) ∧
    (¬ again → target.toNat < s.kiln.toNat → vget s.core.hold .none 2 ≠ .timed target → tile = none →
      exec i s = .next (miss s))) ∧
  (∀ (s : State) (core : Nat) (m : MStep) (rest : List MStep), core < 1024 → (s.coreAt core).steps = m :: rest → m.acc < 4 →
    m.bare = false → vget (s.coreAt core).owed 0 2 = 0 ∨ m.posts = 0 →
    ∃ t, exec (.stepRetirement core) s = .next t ∧
      let c := s.coreAt core
      let u := t.coreAt core
      u.steps = rest ∧ u.tvalid = (c.tvalid && !m.last) ∧
      (∀ e, e < 4096 → Claim.element (u.accum m.acc) e =
        if m.ow then Claim.element m.sums e else addF32 (Claim.element (c.accum m.acc) e) (Claim.element m.sums e)) ∧
      (∀ a, a < 4 → a ≠ m.acc → u.accum a = c.accum a) ∧
      u.st = (m.pops.foldl (fun c p => c.setDesc p.1 ((c.desc p.1).popBytes p.2)) c).st ∧
      u.g = c.g ∧ u.cx = c.cx ∧ u.cm = c.cm ∧ u.cv = c.cv ∧ u.v = c.v ∧ u.pc = c.pc ∧ t.mem = s.mem ∧
      ∀ k, k ≠ core → t.coreAt k = s.coreAt k)

/-- R209 to R213, R215: MZERO clears an accumulator and MACC adds another to it element by element; MDRAIN writes one into a ring of
FP32 or, rounded, of BF16, and with LAST clears it, and MFILL reads one from such a ring; they hold while a step in flight is
to commit into one they name. MSTAMP takes TREF from the head of S→M, and the LAST of
a step before it no longer clears TVALID; MWIN sets WREQ. -/
def Obligations.MatrixWords : Prop :=
  ∀ (s : State) (sync : BitVec 4), Claim.mayStart s .m sync →
    let c := s.core
    let set (a : BitVec 2) (x : BitVec 131072) (c : Core) : Core := { c with acc := vset c.acc a.toNat x }
    let trap (i : Instr) (n : Nat) : Prop := exec i s = .next (s.raise s.me (some .m) (Trap.operand n) (c.pcOf .m) (wordOf i))
    (∀ acc : BitVec 2,
      (Claim.quiet c [acc.toNat] [] → exec (.mzero sync acc) s = .next (Claim.issued s .m sync (set acc 0) .next)) ∧
      (¬ Claim.quiet c [acc.toNat] [] → exec (.mzero sync acc) s = .next (s.held .m (.device 20)))) ∧
    (∀ acc src : BitVec 2, Claim.quiet c [acc.toNat, src.toNat] [] → ∃ x,
      exec (.macc sync acc src) s = .next (Claim.issued s .m sync (set acc x) .next) ∧
      ∀ e, e < 4096 → Claim.element x e = addF32 (Claim.element (c.accum acc.toNat) e) (Claim.element (c.accum src.toNat) e)) ∧
    (∀ (acc : BitVec 2) (ring : BitVec 4) (last pa : BitVec 1),
      let d := c.desc ring.toNat
      let n := Claim.plainBytes d
      (¬ Claim.plainRing d → trap (.mdrain sync acc ring last) 6 ∧ trap (.mfill sync acc ring pa) 6) ∧
      (Claim.plainRing d → d.size < n → trap (.mdrain sync acc ring last) 7 ∧ trap (.mfill sync acc ring pa) 7) ∧
      (Claim.plainRing d → n ≤ d.size → n ≤ d.room → Claim.quiet c [acc.toNat] [] → ∃ bytes : List Byte, bytes.length = n ∧
        exec (.mdrain sync acc ring last) s = .next (Claim.issued (s.ringStore s.me d d.tail bytes) .m sync
          (fun c => let c := c.setDesc ring.toNat (d.completeBytes n); if last = 1 then set acc 0 c else c) .next) ∧
        (∀ e, e < 4096 → let x := Claim.element (c.accum acc.toNat) e
          if n = 16384 then Claim.part bytes (4 * e) 4 = x
          else Claim.part bytes (2 * e) 2 = roundBF16 (Fmt.fp32.decode true x)) ∧
        (d.tail < d.size → Memory.wf s.mem = true → ∀ a,
          Memory.read (s.ringStore s.me d d.tail bytes).mem a =
            match (List.range n).find? fun j => Key.scratch s.me (d.at d.tail j) == a with
            | some j => bytes.getD j 0
            | none => Memory.read s.mem a)) ∧
      (∀ bs, Claim.plainRing d → n ≤ d.size → n ≤ d.avail → Claim.quiet c [acc.toNat] [ring.toNat] →
        s.ringLoad s.me d d.head n = some bs → ∃ x,
          exec (.mfill sync acc ring pa) s = .next (Claim.issued s .m sync
            (fun c => if pa = 1 then (set acc x c).popEntry ring.toNat n else set acc x c) .next) ∧
          ∀ e, e < 4096 → Claim.element x e =
            if n = 16384 then Claim.part bs (4 * e) 4 else roundF32 (Fmt.bf16.decode true (Claim.part bs (2 * e) 2)))) ∧
    (Claim.hasEntry c 2 → exec (.mstamp sync) s = .next (Claim.issued s .m sync
      (fun c => { Claim.takeScalar c 2 with
        tref := (c.scalar 2).top, tvalid := true, steps := c.steps.map fun m => { m with last := false } }) .next)) ∧
    (¬ Claim.hasEntry c 2 → exec (.mstamp sync) s = .next (s.held .m (.emptyScalar 2))) ∧
    (∀ n : BitVec 8,
      (n.toNat ≤ 4 → exec (.mwin sync n) s = .next (Claim.issued s .m sync
        (fun c => { c with wreq := if n = 0 then 1 else n.setWidth 3 }) .next)) ∧
      (4 < n.toNat → trap (.mwin sync n) 8))

/-! ### Transfers -/

namespace Sys2Proof.Claim

/-- A fixed ring of a format without scales, with room for an entry in all (R234). -/
def plainOf (d : Desc) (f : Fmt) (n : Nat) : Prop :=
  d.isFrit = false ∧ Fmt.ofCode d.fmt = some f ∧ d.sstride = 0 ∧ d.size ≠ 0 ∧ n ≤ d.size

/-- A ring that takes another entry: its place (R236, R299). -/
def entryRoom (d : Desc) (n : Nat) : Prop := n ≤ d.room ∧ d.size ≠ 0
def nextEntry (d : Desc) (r n : Nat) : XRing := .fills r ((d.tail + d.rsvd) % d.size) n

/-- A ring whose next unclaimed entry is complete: its place (R235). -/
def entryThere (c : Core) (r n : Nat) : Prop := c.claimed r + n ≤ (c.desc r).avail ∧ (c.desc r).size ≠ 0
def headEntry (c : Core) (r n : Nat) : XRing := .drains r (((c.desc r).head + c.claimed r) % (c.desc r).size) n

/-- A transfer of a word of X as it is launched (R235). -/
def newTransfer (s : State) (i : Instr) (td : Nat) (ring : XRing) : Transfer :=
  { op := i, pc := s.core.pcOf .x, td := td, tdv := s.core.tdesc td, ring := ring, job := s.core.job, born := s.kiln }

/-- The word retires with its transfer launched and its ring bytes reserved; `after` is what else it changes. -/
def launched (i : Instr) (s s1 : State) (sync : BitVec 4) (t : Transfer) (after : Core → Core) : Prop :=
  exec i s = .next (issued s1 .x sync (fun c => after
    { (match t.ring with | .fills r _ n => c.setDesc r ((c.desc r).reserve n) | _ => c) with
      xfers := c.xfers ++ [t], xwait := .none }) .next)

/-- Rows `r0`, `r0` + 1, … of a window. -/
def rowList (r0 : Int) (n : Nat) : List Int := (List.range n).map fun k => r0 + (k : Int)

/-- A producer of an entry of `n` bytes over rows of memory (R239). -/
def produces (i : Instr) (s : State) (sync : BitVec 4) (td r n : Nat) (rows : List Int) (after : Core → Core) : Prop :=
  ∀ reads s1, let t := TD.of (s.core.tdesc td)
    t.inside rows = true → entryRoom (s.core.desc r) n → s.core.xfers.length < 32 →
    does (windowRows t false rows) s reads s1 →
    launched i s s1 sync { newTransfer s1 i td (nextEntry (s.core.desc r) r n) with rows := rows, reads := reads } after

/-- A consumer of an entry of `n` bytes over rows of memory (R239). -/
def consumes (i : Instr) (s : State) (sync : BitVec 4) (td r n : Nat) (rows : List Int) (after : Core → Core) : Prop :=
  ∀ writes s1, let t := TD.of (s.core.tdesc td)
    t.inside rows = true → entryThere s.core r n → s.core.xfers.length < 32 →
    does (windowRows t true rows) s writes s1 →
    launched i s s1 sync { newTransfer s1 i td (headEntry s.core r n) with rows := rows, writes := writes } after

/-- The index values of XGATH and XSCAT: signed words of an entry of an INT32 ring, no other transfer draining it (R241). -/
def indexes (s : State) (r n : Nat) (ix : List Int) : Prop :=
  let d := s.core.desc r
  let len := roundUp (4 * n) 256
  plainOf d .i32 len ∧ len ≤ d.avail ∧ s.core.claimed r = 0 ∧ ∃ bs, s.ringLoad s.me d d.head len = some bs ∧
    ix = (List.range n).map fun k => signed 4 (part bs (4 * k) 4)

/-- The index entry popped. -/
def popsIndex (r n : Nat) (c : Core) : Core := c.setDesc r ((c.desc r).popBytes (roundUp (4 * n) 256))

/-- The descriptor's ROW0 moved on (R242). -/
def moves (td : Nat) (row0 : Int) (c : Core) : Core :=
  { c with td := vset c.td td (tdWrite (c.tdesc td) 13 (BitVec.ofInt 16 row0)) }

end Sys2Proof.Claim

/-- R231 to R242, R246: XTD fills a transfer descriptor from four consecutive c registers and XTDI sets one of its halfwords; XWAIT and
XWAIT.ALL go on once no transfer of the descriptor, or none at all, is in flight. XCOPY, XCVT, XGATH, XWOPEN and XWADV launch
a transfer that fills an entry reserved at the tail of their ring from rows of memory; XPUT and XSCAT launch one that
writes rows of memory from the next complete entry. The rows begin at ROW0 plus the c register, or are those that an index
ring gives; XWOPEN and XWADV move ROW0 on. A descriptor that R234 does not accept raises class 0x08 with detail 0x10. -/
def Obligations.TransferWords : Prop :=
  ∀ (s : State) (sync : BitVec 4) (td : BitVec 3) (r ci ri : BitVec 4), Claim.mayStart s .x sync →
    let c := s.core
    let t := TD.of (c.tdesc td.toNat)
    let d := c.desc r.toNat
    let off := t.row0 + (c.readC .x ci).toInt
    let rows := Claim.rowList off t.wrows
    let n := entryBytes (t.wrows * t.wcols) t.w
    let e := entryBytes t.wcols t.w
    let still (f : Core → Core) (i : Instr) : Prop := exec i s = .next (Claim.issued s .x sync f .next)
    still (fun c =>
      let cx (k : Nat) : Dword := vget c.cx 0 (r.toNat + k)
      { c with td := vset c.td td.toNat (cx 3 ++ cx 2 ++ cx 1 ++ cx 0) }) (.xtd sync td r) ∧
    (∀ imm : BitVec 16, ∃ x : BitVec 256, still (fun c => { c with td := vset c.td td.toNat x }) (.xtdi sync td r imm) ∧
      ∀ h, h < 16 → (x.toNat / 2 ^ (16 * h)) % 2 ^ 16 =
        if h = r.toNat then imm.toNat else ((c.tdesc td.toNat).toNat / 2 ^ (16 * h)) % 2 ^ 16) ∧
    ((∀ x ∈ c.xfers, x.td ≠ td.toNat) → still id (.xwait sync td)) ∧
    (¬ (∀ x ∈ c.xfers, x.td ≠ td.toNat) → exec (.xwait sync td) s = .next (s.held .x (.device 12))) ∧
    (c.xfers = [] → still id (.xwaitAll sync)) ∧
    (c.xfers ≠ [] → exec (.xwaitAll sync) s = .next (s.held .x (.device 12))) ∧
    (t.ok = false → ∀ i, i = .xcopy sync td r ci ∨ i = .xput sync td r ci ∨ i = .xgath sync td r ci ri ∨ i = .xscat sync td r ci ri ∨
        i = .xwopen sync td r ∨ i = .xwadv sync td r ci ∨ i = .xpeer sync td r ci →
      exec i s = .next (s.raise s.me (some .x) (Trap.operand 0x10) (c.pcOf .x) (wordOf i))) ∧
    (t.ok = true → Claim.plainOf d t.format n → (t.sealed = true → t.sealOk rows = true) →
      Claim.produces (.xcopy sync td r ci) s sync td.toNat r.toNat n rows id ∧
      Claim.consumes (.xput sync td r ci) s sync td.toNat r.toNat n rows id) ∧
    (∀ (fmt : BitVec 5) (f : Fmt) (rnd : BitVec 2) (ovf inf tr ts : BitVec 1),
      let n := if d.sstride = 0 then entryBytes (t.wrows * t.wcols) f.width else d.fixedLen f
      t.ok = true → t.sealed = false → Fmt.ofCode fmt = some f → d.isFrit = false → d.fmt = fmt →
      (d.sstride ≠ 0 → t.wrows * t.wcols = 2048) → n ≤ d.size →
      Claim.produces (.xcvt sync td r ci fmt rnd ovf inf tr ts) s sync td.toNat r.toNat n rows id) ∧
    (∀ ix, t.ok = true → t.sealed = false → Claim.plainOf d t.format n → Claim.indexes s ri.toNat t.wrows ix →
      Claim.produces (.xgath sync td r ci ri) s sync td.toNat r.toNat n (ix.map (· + off)) (Claim.popsIndex ri.toNat t.wrows) ∧
      Claim.consumes (.xscat sync td r ci ri) s sync td.toNat r.toNat n (ix.map (· + off)) (Claim.popsIndex ri.toNat t.wrows)) ∧
    (t.ok = true → t.sealed = false → Claim.plainOf d t.format e →
      let k := (c.readC .x ci).toNat
      Claim.produces (.xwopen sync td r) s sync td.toNat r.toNat (t.wrows * e) (Claim.rowList t.row0 t.wrows)
        (Claim.moves td.toNat (t.row0 + t.wrows)) ∧
      (k ≠ 0 → k ≤ t.wrows → Claim.produces (.xwadv sync td r ci) s sync td.toNat r.toNat (k * e) (Claim.rowList t.row0 k)
        (Claim.moves td.toNat (t.row0 + k))) ∧
      (k = 0 → t.inside [] = true → still id (.xwadv sync td r ci)) ∧
      (t.wrows < k → exec (.xwadv sync td r ci) s =
        .next (s.raise s.me (some .x) (Trap.operand 0x17) (c.pcOf .x) (wordOf (.xwadv sync td r ci)))))

/-- R239, R243 to R245: XKVQ takes an FP32 row from a ring into the BF16 window of its descriptor and, once the window is full,
quantises the row that leaves it into the next descriptor's area; XFILL reads a tile's range from the offsets of its Frit
image and reserves its entry; XFTL reads a table, which its completion installs, and traps on a bad one (class 0x0F); XPEER
asks a node for every range of its window, and launches its transfer once all are answered. Two points are the model's: that
XPEER asks for 256 ranges at a time, and that those of one batch are read while the next is asked for (assumption log 32);
and that ranges asked for by a word that faulted are dropped (assumption log 51). -/
def Obligations.TransferUnits : Prop :=
  ∀ (s : State) (sync : BitVec 4) (td tbl : BitVec 3) (r ci : BitVec 4), Claim.mayStart s .x sync → s.core.xfers.length < 32 →
    let c := s.core
    let t := TD.of (c.tdesc td.toNat)
    let d := c.desc r.toNat
    let off := t.row0 + (c.readC .x ci).toInt
    let reg := (c.readC .x ci).toNat
    (∀ (fmt : BitVec 5) (f : Fmt) (rnd : BitVec 2) (ovf : BitVec 1) (rd wq wr : List Piece) (s1 s2 s3 : State) (bs : List Byte),
      let q := TD.of (c.tdesc (td.toNat + 1))
      let i : Instr := .xkvq sync td r ci fmt rnd ovf
      let recent := t.addr + BitVec.ofNat 64 (reg % t.wrows * t.pitch)
      let old := t.wrows ≤ reg
      t.ok = true → t.inside [] = true → q.reserved = false → t.sealed = false → q.sealed = false → Fmt.ofCode fmt = some f → f.isKv = true →
      t.format = .bf16 → t.wcols = 64 → q.fmt = fmt → d.isFrit = false → Fmt.ofCode d.fmt = some .fp32 → d.sstride = 0 →
      Claim.entryThere c r.toNat 256 → (∀ x ∈ c.xfers, ∀ a b e g h k l, x.op ≠ .xkvq a b e g h k l) →
      s.ringLoad s.me d ((d.head + c.claimed r.toNat) % d.size) 256 = some bs →
      (old → Claim.does (xPieces .xread (recent, 128)) s rd s1 ∧
        Claim.does (xPieces .xwrite (q.addr + BitVec.ofNat 64 ((reg - t.wrows) * q.pitch), 8 * f.width + 2)) s1 wq s2) →
      (¬ old → rd = [] ∧ wq = [] ∧ s2 = s) → Claim.does (xPieces .xwrite (recent, 128)) s2 wr s3 →
      Claim.launched i s s3 sync { Claim.newTransfer s3 i td.toNat (Claim.headEntry c r.toNat 256) with
        tdq := c.tdesc (td.toNat + 1)
        reads := if old then [{ row := 0, pieces := rd }] else []
        writes := (if old then [{ row := 0, pieces := wq }] else []) ++ [{ row := 1, pieces := wr }] } id) ∧
    (∀ (bs : List Byte) (codes scales : List Piece) (s1 s2 s3 : State),
      let i : Instr := .xfill sync td r ci
      let o0 := Claim.part bs 0 4
      let o1 := Claim.part bs 4 4
      let n := d.fritLen (o1 - o0)
      t.reserved = false → t.sealed = false → d.isFrit = true → reg < t.nt →
      Claim.does (xRead (t.addr + BitVec.ofNat 64 (4 * reg)) 8) s bs s1 →
      o0 % 4 = 0 → o1 % 4 = 0 → 4 * (t.nt + 1) ≤ o0 → o0 < o1 → o1 - o0 ≤ 4096 → n ≤ d.size →
      Claim.entryRoom (s1.core.desc r.toNat) n → s1.core.xfers.length < 32 →
      Claim.does (xPieces .xread (t.addr + BitVec.ofNat 64 o0, o1 - o0)) s1 codes s2 →
      (d.sstride = 0 → scales = [] ∧ s3 = s2) →
      (d.sstride ≠ 0 → Claim.does (xPieces .xread (t.addr + BitVec.ofNat 64 (t.pitch + reg * d.scaleRegion), d.scaleRegion)) s2 scales s3) →
      Claim.launched i s s3 sync { Claim.newTransfer s3 i td.toNat (Claim.nextEntry (s1.core.desc r.toNat) r.toNat n) with
        tile := (reg, o1 - o0)
        reads := { row := 0, pieces := codes } :: (if d.sstride = 0 then [] else [{ row := 1, pieces := scales }]) } id) ∧
    (∀ (bs : List Byte) (s1 : State),
      let i : Instr := .xftl sync td tbl
      t.reserved = false → t.addr.toNat % 2 = 0 → t.sealed = false → Claim.does (xRead t.addr 512) s bs s1 →
      (∀ f, FritTable.ofImage bs = some f → s1.core.xfers.length < 32 →
        Claim.launched i s s1 sync { Claim.newTransfer s1 i td.toNat .none with table := some f } id) ∧
      (FritTable.ofImage bs = none → ∃ x : Dword, bits x 18 16 = tbl.toNat ∧ bits x 15 12 = 0 ∧ bits x 11 4 = 1 ∧ bits x 3 0 = 6 ∧
        bits x 63 19 = 0 ∧ exec i s = .next (s1.raise s.me (some .x) { cls := 0x0F, detail := x } (c.pcOf .x) (wordOf i)))) ∧
    (let n := entryBytes (t.wrows * t.wcols) t.w
     let rows := Claim.rowList off t.wrows
     let i : Instr := .xpeer sync td r ci
     t.ok = true → Claim.plainOf d t.format n → t.inside rows = true → t.sealed = false →
     s.inNodeSet c.part.toNat t.node = true → bits t.addr 63 56 = 0xFE →
     let gs := peerRanges c t rows
     let asks (s0 : State) (n : Nat) : Prop := ∀ ids s1,
       s0.askRanges (dieOf s.me) (.xword s.me) ((gs.drop n).take 256) = some (ids, s1) →
       exec i s = .next ((s1.mapCore fun c =>
         { c with xwait := .peer (c.pcOf .x) ids [], xasked := n + ids.length }).held .x (.device 12))
     let ids := s.rangesOf s.me
     let s1 := ids.foldl (fun s id => s.startRange (dieOf s.me) id (.xfer s.me)) s
     let got := ids.map fun id => (id, (none : Option (List Byte)))
     let x := { Claim.newTransfer s i td.toNat (Claim.nextEntry d r.toNat n) with rows := rows, asked := true }
     let first : Prop := (∀ y ∈ c.xfers, y.early = false) ∧ Claim.entryRoom d n
     (first → c.xwait = .none →
       (gs = [] → Claim.launched i s (s.dropRanges s.me) sync x id) ∧ (gs ≠ [] → asks (s.dropRanges s.me) 0)) ∧
     (∀ bs, first → c.xwait = .answered (c.pcOf .x) none bs →
       (gs.length ≤ 256 → Claim.launched i s s1 sync { x with asks := got, waits := ids } id) ∧
       (256 < gs.length → asks (s1.mapCore fun c => { c.setDesc r.toNat ((c.desc r.toNat).reserve n) with
         xfers := c.xfers ++ [{ x with asks := got, waits := ids, early := true }], xwait := .none }) 256)) ∧
     (∀ y, c.xfers.find? (·.early) = some y →
       (c.xwait = .none → asks s c.xasked) ∧
       (∀ bs, c.xwait = .answered (c.pcOf .x) none bs →
         let more := decide (c.xasked < gs.length)
         let grown (c : Core) : Core := { c with
           xwait := .none
           xfers := c.xfers.map fun y => if y.early then
             { y with asks := y.asks ++ got, waits := y.waits ++ ids, early := more } else y }
         (more = true → asks (s1.mapCore grown) c.xasked) ∧
         (more = false → exec i s = .next (Claim.issued s1 .x sync grown .next)))))

namespace Sys2Proof.Claim

/-- What a core's records become with one more: the ninth and every later one is counted and lost (R400). -/
def recorded (old new : Core) (r : Record) : Prop :=
  (old.records.length < 8 → new.records = old.records ++ [r]) ∧
  (8 ≤ old.records.length → new.records = old.records ∧
    new.recOvf.toNat = min (old.recOvf.toNat + 1) (2 ^ 32 - 1))

/-- The record of a transfer's error: KIND and CODE, X's stream, the word's address and the VA that met it (R235, R400). -/
def errorRecord (x : Transfer) (e : Nat × Nat × Dword) : Record :=
  { syn := BitVec.ofNat 64 (e.1 % 2 ^ 8 * 2 ^ 56 + e.2.1 % 2 ^ 8 * 2 ^ 48 + 2 ^ 44), addr := x.pc, det := e.2.2, job := x.job }

/-- The key of byte `j` of a piece, where it has one. -/
def pieceKey (s : State) (p : Piece) (j : Nat) : Option Nat :=
  match p.place with
  | .scratch c => some (Key.scratch c (p.addr + j))
  | .host _ => some (Key.host (p.addr + j))
  | .hbm _ => ((s.die (p.die s)).placeOf (p.addr + j)).map fun x => Key.hbm (p.die s) x.1 x.2

/-- The bytes that rows write, in order, each with its key. -/
def rowBytes (s : State) (rows : List RowOut) : List (Nat × Byte) :=
  rows.flatMap fun o => (offsets o.pieces).flatMap fun q => (List.range q.2.len).filterMap fun j =>
    (pieceKey s q.2 j).map fun k => (k, o.bytes.getD (q.1 + j) 0)

/-- Whole bytes of good elements, in the open, on pages that no cache holds: the host's, and the channels' own. -/
def plainRow (o : RowOut) : Prop :=
  o.low = false ∧ (∀ b ∈ o.bad, b = false) ∧ o.seals = [] ∧ (o.pieces.map (·.len)).sum = o.bytes.length ∧
    ∀ p ∈ o.pieces, ((∃ fn, p.place = .host fn) ∨ ∃ n, p.place = .hbm n ∧ p.direct = true)

/-- What XPUT and XSCAT write of a window row, and XKVQ of its two rows, from an entry as one number (R233, R241, R243). -/
def rowsWritten (x : Transfer) (entry : Nat) (bad : Nat → Bool) (data : List (Nat × Nat)) : Prop :=
  let t := TD.of x.tdv
  (∀ sync td r ci ri, x.op = .xput sync td r ci ∨ x.op = .xscat sync td r ci ri → ∀ lo hi, t.span true = some (lo, hi) →
    (x.out entry bad data).map (fun o => (o.pieces, o.seals)) = x.writes.map (fun w => (w.pieces, w.seals)) ∧
    ∀ (k : Nat) (w : XRow) (o : RowOut), x.writes[k]? = some w → (x.out entry bad data)[k]? = some o →
      o.bytes.length = ((hi + 1 - lo) * t.w + 7) / 8 ∧ ∀ e, e < hi + 1 - lo →
        leNat o.bytes / 2 ^ (t.w * e) % 2 ^ t.w = entry / 2 ^ (t.w * (w.row * t.wcols + ((lo : Int) - t.col0).toNat + e)) % 2 ^ t.w) ∧
  (∀ sync td r ci fmt rnd ovf f, x.op = .xkvq sync td r ci fmt rnd ovf → Fmt.ofCode fmt = some f →
    (x.out entry bad data).map (·.pieces) = x.writes.map (·.pieces) ∧
    ∀ (k : Nat) (w : XRow) (o : RowOut), x.writes[k]? = some w → (x.out entry bad data)[k]? = some o →
      (w.row ≠ 0 → o.bytes.length = 128 ∧ ∀ j, j < 64 →
        part o.bytes (2 * j) 2 = roundBF16 (Fmt.fp32.decode true (entry / 2 ^ (32 * j) % 2 ^ 32))) ∧
      (∀ row old rest, w.row = 0 → data = (row, old) :: rest →
        let code (j : Nat) : Nat := old / 2 ^ (16 * j) % 2 ^ 16
        let top := ((List.range 64).map fun j => code j % 2 ^ 15).foldl max 0
        let scale := if 0x7F80 ≤ top then 0x7FC0 else if top = 0 then 0x3F80
          else Fmt.bf16.round .rup true true ((Fmt.bf16.decode true top).div f.maxFinite)
        o.bytes.length = 8 * f.width + 2 ∧ part o.bytes (8 * f.width) 2 = scale % 2 ^ 16 ∧ ∀ j, j < 64 →
          leNat o.bytes / 2 ^ (f.width * j) % 2 ^ f.width = (if 0x7F80 ≤ top then f.nan else if top = 0 then 0
            else f.round (Rnd.ofCode rnd) (ovf == 1) false ((Fmt.bf16.decode true (code j)).div (Fmt.bf16.decode true scale))) %
            2 ^ f.width))

end Sys2Proof.Claim

/-- R233, R235 to R237, R239, R241, R243: a transfer whose pages are all on its own die completes at once, when the budgets allow it: it
reads its rows; a producer's bytes stand in the entry that it reserved, which becomes complete; an XFTL's table is installed;
a consumer (XPUT, XSCAT, XKVQ) writes its rows and pops its entry: every byte that its rows write on pages that no cache holds stands
there, and every other byte is as before; and the transfer leaves its core. An error in its reads or writes makes an
asynchronous record at its core; one in a producer's reads leaves its entry incomplete. Three points are the model's: that
the record names no descriptor (assumption log 73), that the rows beside an erring one are written all the same
(assumption log 32), and a format's code for NaN where it has none (assumption log 58). -/
def Obligations.TransferCompletion : Prop :=
  (∀ (s s0 s1 : State) (core : Nat) (x : Transfer) (data : List (Nat × Nat)), core < 1024 →
    (s.coreAt core).xfers = [x] → x.done = false → x.early = false → x.waits = [] → x.sent = false → x.bad = none → x.unsent = [] →
    s.meetsWrites core 0 x = false → (∀ q ∈ x.reads ++ x.writes, ∀ p ∈ q.pieces, p.peer s (dieOf core) = false) →
    s.admitUnits (holdNo core 5) (s.xferUnits core x) = .ok s0 →
    (∀ a b c d, x.op ≠ .xpeer a b c d) → (∀ r off n, x.ring = .fills r off n → r < 16) →
    (s1.coreAt core).xfers = [x] → (s1.coreAt core).blocked = (s.coreAt core).blocked →
    (∀ q ∈ x.writes, ∀ p ∈ q.pieces, p.peer s1 (dieOf core) = false) →
    let agent : Agent := { core := core, st := .x, pc := x.pc, job := x.job }
    let run := (readRows agent (TD.of x.tdv) x.reads (x.asks.map fun a => a.2.getD [])).run.run s0
    (run = (.ok data, s1) →
      (∀ r off n, x.ring = .fills r off n → (s.coreAt core).blocked.getLsbD r = false →
        ∃ t, exec (.transferCompletion core 0) s = .next t ∧
          let d := (s1.coreAt core).desc r
          (t.coreAt core).xfers = [] ∧ (t.coreAt core).st = ((s1.coreAt core).setDesc r ((d.release n).completeBytes n)).st ∧
          t.mem = (s1.ringStore core d off (x.entry d n data)).mem) ∧
      (∀ a b k f, x.ring = .none → x.op = .xftl a b k → x.table = some f →
        ∃ t, exec (.transferCompletion core 0) s = .next t ∧ (t.coreAt core).xfers = [] ∧ t.mem = s1.mem ∧
          (t.coreAt core).frit = vset (s1.coreAt core).frit k.toNat f) ∧
      (∀ r off n, x.ring = .drains r off n →
        let d := (s1.coreAt core).desc r
        let bad (b : Nat) : Bool := wordBad (Tab.get [] s1.ecc (wordKey (Key.scratch core (d.at off b))))
        let rows := x.out (leNat (s1.ringBytes core d off n)) bad data
        let w := s1.writeRows agent (TD.of x.tdv) rows
        (w.2.coreAt core).xfers = [x] →
        ∃ t, exec (.transferCompletion core 0) s = .next t ∧ (t.coreAt core).xfers = [] ∧ t.mem = w.2.mem ∧
          (t.coreAt core).st = ((w.2.coreAt core).setDesc r (((w.2.coreAt core).desc r).popBytes n)).st ∧
          (w.1 = none → (t.coreAt core).records = (w.2.coreAt core).records) ∧
          (∀ e, w.1 = some e → Claim.recorded (w.2.coreAt core) (t.coreAt core) (Claim.errorRecord x e)) ∧
          (w.1 = none → Memory.wf s1.mem = true → (∀ o ∈ rows, Claim.plainRow o) → ∀ a,
            Memory.read t.mem a = match (Claim.rowBytes s1 rows).reverse.find? fun b => b.1 == a with
              | some b => b.2
              | none => Memory.read s1.mem a))) ∧
    (∀ e, run = (.error e, s1) → ∃ t, exec (.transferCompletion core 0) s = .next t ∧ (t.coreAt core).xfers = [] ∧
      Claim.recorded (s1.coreAt core) (t.coreAt core) (Claim.errorRecord x e) ∧ t.mem = s1.mem ∧
      (∀ r off n, x.ring = .fills r off n → (t.coreAt core).blocked.getLsbD r = true ∧
        (t.coreAt core).st = (s1.coreAt core).st))) ∧
  (∀ x entry bad data, Claim.rowsWritten x entry bad data)

/-! ### Queues, commands and nodes -/

namespace Sys2Proof.Claim

/-- What a fetched INVOKE leaves in its slot's registers IS.0 to IS.7 (R117). -/
def invocation (s : State) (pqn : Nat) (e : BitVec 2048) : Vector Dword 8 := Vector.ofFn fun i =>
  if i.val = 0 then BitVec.ofNat 64 pqn
  else if i.val = 1 then BitVec.ofNat 64 (cf e 2 2 * 2 ^ 32 + cf e 4 4)
  else if i.val = 2 then BitVec.ofNat 64 (cf e 8 8)
  else if i.val = 3 then BitVec.ofNat 64 (cf e 0x10 8)
  else if i.val = 4 then BitVec.ofNat 64 (cf e 1 1 * 2 ^ 16 + cf e 0x18 2)
  else if i.val = 6 then s.kiln
  else 0

end Sys2Proof.Claim

/-- R112 to R118: a notify write beyond W and within the queue's entries moves a mapped queue's W, one not beyond W does nothing, and
one past its entries is queue error 0x0B. Firmware maps a pending, enabled queue with a descriptor in order into a free slot
of its home die, and unmaps an idle one. A mapped queue with an entry to fetch fetches it under its PASID: a read that
fails is error 0x09, a bad entry the error that R115 names, and an INVOKE that passes every check takes its slot's registers
and a pass of at least V, and is runnable. Passes are compared as signed numbers (R121 subtracts from them; assumption log 46). R23, R76, R81 to R85, R120 to R122: an idle partition's dispatcher takes its runnable queue of least pass, sets V to that pass,
charges the queue stride times the node's cost, and starts the node that IS.5 names, with the relocation values of the
command (read again from the ring where the invocation was parked, R117). The walker hands its next iteration to
the lowest FREE core, which runs from the LNR's four addresses at PL0 with its index registers. An iteration whose core is at
the rendezvous with everything complete and nothing left over retires: its core is FREE; one that left a token or an entry
raises class 0x12. A node that is done on all of its dies ends. Choices of the model's: the corner codes of a bad command
(assumption log 44), TICKETS read again at each dispatch (assumption log 37), the index registers taken from the core's own
MESH (assumption log 48), and STREAM 15 in the cause of a residue trap (assumption log 16). -/
def Obligations.LaunchEvents : Prop :=
  (∀ (s : State) (die slot : Nat) (q : QueueSlot),
    (∀ (fn queue : Nat) (value : Dword), fn < physFn → queue < 64 → s.offered fn = true → s.service.minimal = false →
      let pqn := fn * 64 + queue
      s.slotOf pqn = some (die, slot) → s.slot die slot = some q →
        (value.toNat ≤ q.w.toNat → exec (.notify fn queue value) s = .next s) ∧
        (q.w.toNat < value.toNat → value.toNat ≤ q.ridx.toNat + 2 ^ q.field 8 1 →
          exec (.notify fn queue value) s = .next (s.mapSlot die slot fun q => { q with w := value })) ∧
        (q.w.toNat < value.toNat → q.ridx.toNat + 2 ^ q.field 8 1 < value.toNat →
          exec (.notify fn queue value) s = .next (s.queueError pqn 0x0B))) ∧
    (∀ (pqn n : Nat), die < 4 → slot < 256 → pqn < 12288 → s.bound (pqn / 64) = true →
      s.homeDie (s.partOfQueue pqn) = some die → Tab.has (s.fn (pqn / 64)).shadow (pqn % 64) = true → s.slotOf pqn = none →
      s.slot die slot = none →
      s.slotsUsed die (s.partOfQueue pqn) < bits (s.part (s.partOfQueue pqn)).pnset 56 48 →
      let s0 := s
      let s := s.keepRange (pqn / 64) none (s.descAt pqn) 64 false
      s.descRead pqn 0 64 = some n →
      let d := BitVec.ofNat 512 n
      let field (off n : Nat) : Nat := (d.extractLsb' (8 * off) (8 * n)).toNat
      (descOk d = true → field 9 1 % 2 = 1 →
        exec (.queueMap die slot pqn) s0 = .next ((s.mapDie die fun x => { x with slots := Tab.set x.slots slot {
            pqn := pqn, part := s.partOfQueue pqn, desc := d, ridx := BitVec.ofNat 64 (field 0x18 8), pass := BitVec.ofNat 64 (field 0x20 8)
            w := BitVec.ofNat 64 (max (field 0x10 8) (Tab.get 0 (s.fn (pqn / 64)).shadow (pqn % 64)).toNat)
            cmd := none, runnable := false, halted := field 0x28 4 / 256 % 2 == 1, is := Vector.replicate 8 0 } }).mapFn (pqn / 64) fun x =>
              { x with shadow := Tab.erase x.shadow (pqn % 64) })) ∧
      (descOk d = false → exec (.queueMap die slot pqn) s0 = .next (s.queueError pqn 0x02))) ∧
    (die < 4 → slot < 256 → s.slot die slot = some q → q.cmd = none → q.w.toNat ≤ q.ridx.toNat →
      ∃ t, exec (.queueUnmap die slot) s = .next t ∧ t.slot die slot = none) ∧
    (die < 4 → slot < 256 → s.slot die slot = some q → q.cmd = none → s.bound (q.pqn / 64) = true →
      q.ridx.toNat < q.w.toNat →
      let s0 := if q.halted then s.keepRange (q.pqn / 64) none (s.descAt q.pqn + 0x28) 4 false else s
      (q.halted = true → s0.descRead q.pqn 0x28 4 = some 0) →
      let at0 := q.field 0 8 + q.ridx.toNat % 2 ^ q.field 8 1 * 256
      let s1 := (s0.mapSlot die slot fun q => { q with halted := false }).keepRange (q.pqn / 64) (some q.pasid) at0 256 false
      let fetched := s1.hostRead (q.pqn / 64) (some q.pasid) at0 256
      (fetched = none → exec (.commandFetch die slot) s = .next (s1.queueError q.pqn 0x09)) ∧
      (∀ bs, fetched = some bs →
        let e := BitVec.ofNat 2048 (leNat bs)
        let s2 := s1.mapSlot die slot fun q => { q with cmd := some e }
        let part := s1.partOfQueue q.pqn
        (∀ code, cmdFault e = some code → exec (.commandFetch die slot) s = .next (s2.queueError q.pqn code)) ∧
        (cmdFault e = none → cf e 0 1 = 2 → exec (.commandFetch die slot) s = .next (s2.commandDone die slot 0)) ∧
        (cmdFault e = none → cf e 0 1 = 1 → s2.invokeFault part e = none →
          (∃ p ∈ s.programs, p.1 = part * 64 + cf e 2 2) →
          (∀ p ∈ s.programs, p.1 = part * 64 + cf e 2 2 → p.2.lnrs ≠ []) →
          exec (.commandFetch die slot) s = .next (s2.mapSlot die slot fun q => { q with
            is := Claim.invocation s q.pqn e, nodes := 0, err := 0, runnable := true
            pass := if q.pass.toInt < (s.part part).v.toInt then (s.part part).v else q.pass }))))) ∧
  (∀ (s : State) (part die slot : Nat), part < 16 →
    (∀ (q : QueueSlot) (e0 e : BitVec 2048) (p : Program) (l : BitVec 4096), (s.part part).running = none → die < 4 →
      leastPass (s.runnables part) = some (die, slot, q) → s.slot die slot = some q → q.cmd = some e0 →
      s.programs.find? (fun x => x.1 == part * 64 + cf e0 2 2) = some (part * 64 + cf e0 2 2, p) →
      p.lnrs[(vget q.is 0 5).toNat]? = some l →
      let s1 := if q.again then s.keepRange (q.pqn / 64) (some q.pasid) q.entryAt 256 false else s
      s1.reread q e0 = some e →
      (∀ n ∈ (lnrExtents l (cmdRl e) (s.meshOf part p)).toList, n ≤ 65535) →
      let s2 := s1.mapSlot die slot fun q => { q with cmd := some e }
      let s3 := s2.keepRange (q.pqn / 64) none (s2.descAt q.pqn + 0x0A) 2 false
      let stride := 2 ^ 24 / max ((s3.descRead q.pqn 0x0A 2).getD (q.field 0x0A 2)) 1
      q.pass.toNat + stride * lf l 4 4 < 2 ^ 63 →
      ∃ t r, exec (.nodeDispatch part) s = .next t ∧ (t.part part).running = some r ∧ r.slot = slot ∧ r.die = die ∧ r.lnr = l ∧
        r.cost = lf l 4 4 ∧ r.stride = stride ∧ (t.part part).v = q.pass ∧ (t.part part).last = some q.pqn ∧
        (t.part part).rl = cmdRl e ∧
        (t.slot die slot).map (·.pass) = some (q.pass + BitVec.ofNat 64 (stride * lf l 4 4))) ∧
    (∀ (r : Running) (w : Walk) (q : QueueSlot) (k : Nat), die < 4 → (s.part part).running = some r →
      vget r.walks none die = some w → s.slot r.die r.slot = some q → (s.freeCores part die).head? = some k →
      w.next < w.total → r.stopped = false → (lf r.lnr 1 1 % 2 = 1 → (s.die die).throttle < 2) →
      ∃ t, exec (.startJob part die) s = .next t ∧
        (t.coreAt k).state = .running ∧ (t.coreAt k).pl = 0 ∧ (t.coreAt k).job = s.nextJob ∧ t.nextJob = s.nextJob + 1 ∧
        (t.coreAt k).part = BitVec.ofNat 4 part ∧ (t.coreAt k).pasid = q.pasid ∧
        (∀ i : Nat, i < 4 → vget (t.coreAt k).pc 0 i = BitVec.ofNat 64 (lf r.lnr (0x40 + 8 * i) 8)) ∧
        (∀ i : Nat, i < 6 → (t.coreAt k).readG (BitVec.ofNat 5 (26 + i)) =
          vget (s.indexRegs part die r.lnr w.ext (s.coreAt k).mesh w.next) 0 i) ∧
        ((t.part part).running.bind fun r => vget r.walks none die) = some { w with next := w.next + 1 } ∧
        (∀ m, m ≠ k → t.coreAt m = s.coreAt m) ∧ t.mem = s.mem) ∧
    (∀ core, core < 1024 → (s.coreAt core).state = .rendezvous → (s.coreAt core).pending = none →
      (s.coreAt core).complete = true →
      ((s.coreAt core).clean = true → exec (.iterationRetirement core) s =
        .next ((s.iterationEnded core).putCore core { s.coreAt core with state := .free, job := 0 })) ∧
      ((s.coreAt core).clean = false → exec (.iterationRetirement core) s =
        .next (s.raise core none { cls := 0x12 } ((s.coreAt core).pcOf .s) (wordOf .rend)))) ∧
    (∀ r : Running, (s.part part).running = some r → r.die = die → s.diesOf part = [die] → s.nodesOf part = [s.nodeOf die] →
      s.dieDone part r die = true → exec (.nodeBoundary part) s = .next (s.boundary part r) ∧
      ((s.boundary part r).part part).running = none))

/-! ### Engines -/

namespace Sys2Proof.Claim

/-- The command at the head of a port of a core, which its engine may take: the accesses that its push released are performed
(R274, R303), and no word of it holds an error beyond correction (R411). -/
def atHead (s : State) (core port : Nat) (cmd : Command) : Prop :=
  core < 1024 ∧ (s.coreAt core).head port = some cmd ∧ (s.coreAt core).released = true ∧ flipsBad cmd.flips = false

/-- The state once the engine has taken that command from its FIFO; the log of R397 empties with the last untaken one. -/
def taken (s : State) (core port : Nat) : State := s.putCore core ((s.coreAt core).takeHead port)

/-- The result of a command that ends without a message: where RES asks for it, an element of STATUS, OP and TAG at the tail of
the port's result FIFO, and else nothing for STATUS 0 (R302, R304). -/
def ended (s : State) (core port : Nat) (cmd : Command) (status : BitVec 8) : State :=
  let h := cmd.words.headD 0
  let c := s.coreAt core
  let p := c.port port
  if h.getLsbD 31 then
    s.putCore core (c.setPort port { p with results := p.results ++
      [BitVec.ofNat 64 (status.toNat * 2 ^ 56 + bits h 63 56 * 2 ^ 48 + bits h 47 32 * 2 ^ 32)] })
  else if status = 0 then s
  else s.async core { syn := arsyn 3 status.toNat 0 port, addr := cmd.tagPc, det := BitVec.ofNat 64 (bits h 47 32), job := cmd.job }

/-- A command of the system engine that passes the checks of every OP: its reserved bits are clear, it was pushed at PL2, and
NW is right (R406). -/
def sysOk (s : State) (core : Nat) (cmd : Command) (op nw : Nat) : Prop :=
  atHead s core 4 cmd ∧ cmd.op = op ∧ cmd.nw = nw ∧ cmd.plain = true ∧ bits cmd.ctx 1 0 = 2

/-- An address of an image: a 64-byte aligned IPA of the device half (R410). -/
def imageVa (va : Dword) : Prop := bits va 63 56 = 0xFE ∧ bits va 55 48 = 0 ∧ va.toNat % 64 = 0

/-- The events of the system engine. -/
def sysEvent (op core : Nat) : Option Instr :=
  if op = 0x30 then some (.stopcore core) else if op = 0x31 then some (.savecore core)
  else if op = 0x32 then some (.restorecore core) else if op = 0x33 then some (.corestart core)
  else if op = 0x34 then some (.park core) else if op = 0x35 then some (.unpark core) else none

/-- The highest bit of word 1 that each OP uses is the one below this, and NW is this (R406). -/
def sysReserved (op : Nat) : Nat := if op < 0x34 then 10 else 14
def sysWords (op : Nat) : Nat := if op = 0x30 ∨ op = 0x34 then 1 else 2

end Sys2Proof.Claim

/-- R302, R406 to R410: what the system engine does with each of its commands. STOPCORE raises a recovery stop (class 0x16) on a
running core of the issuing partition; SAVECORE writes a stopped core's image, frees it and notes its job as saved; RESTORECORE
resumes an image on a FREE core; CORESTART starts S of an OFFLINE core at PL2; PARK parks a queue's invocation; UNPARK restores
its record, its entries at once, and makes it runnable. In this order a command is refused: an OP that R406 does not list or a
reserved bit (STATUS 0x07), a command pushed below PL2 (0x03), a wrong NW (0x05), a core that is none of the partition's
workers (0x08), and a core, an address or a queue in no state for the command (0x05). Two points are the model's: that
CORESTART drops bits [1:0] of its address, which R25 leaves open (assumption log 45), and that UNPARK takes what a record
cannot name of an entry from the one that its slot still holds (assumption log 24). -/
def Obligations.SystemEngine : Prop :=
  ∀ (s : State) (core : Nat) (cmd : Command),
    let u := Claim.taken s core 4
    let k := bits (cmd.word 1) 9 0
    let c := u.coreAt k
    let own := u.owns (BitVec.ofNat 4 cmd.part) k = true ∧ bits (cmd.word 1) 63 10 = 0
    let done (t : State) : State := (Claim.ended t core 4 cmd 0).dropErrands core 36
    let refused (i : Instr) (status : BitVec 8) : Prop := exec i s = .next ((Claim.ended u core 4 cmd status).dropErrands core 36)
    let imageAt (va : Dword) (c : Core) : Prop := Claim.imageVa va ∧ c.fromPl0 = true
    (∀ op i, Claim.sysEvent op core = some i → Claim.atHead s core 4 cmd → cmd.op = op →
      let clear : Prop := cmd.plain = true ∧ bits (cmd.word 1) 63 (Claim.sysReserved op) = 0
      (¬ clear → exec i s = .next (Claim.ended u core 4 cmd 0x07)) ∧
      (clear → bits cmd.ctx 1 0 ≠ 2 → exec i s = .next (Claim.ended u core 4 cmd 0x03)) ∧
      (clear → bits cmd.ctx 1 0 = 2 → cmd.nw ≠ Claim.sysWords op → exec i s = .next (Claim.ended u core 4 cmd 0x05))) ∧
    (Claim.sysOk s core cmd 0x30 1 → bits (cmd.word 1) 63 10 = 0 →
      (u.owns (BitVec.ofNat 4 cmd.part) k = false → exec (.stopcore core) s = .next (Claim.ended u core 4 cmd 0x08)) ∧
      (own → c.state ≠ .running → c.state ≠ .rendezvous → exec (.stopcore core) s = .next (Claim.ended u core 4 cmd 0x05))) ∧
    (∀ op i, Claim.sysEvent op core = some i → 0x31 ≤ op → op ≤ 0x33 → Claim.sysOk s core cmd op 2 → bits (cmd.word 1) 63 10 = 0 →
      (u.owns (BitVec.ofNat 4 cmd.part) k = false → refused i 0x08) ∧
      (own → op = 0x31 → ¬ imageAt (cmd.word 2) c → refused i 0x05) ∧
      (own → op = 0x32 → ¬ Claim.imageVa (cmd.word 2) ∨ c.state ≠ .free ∨ c.retired = true → refused i 0x05) ∧
      (own → op = 0x33 → c.state ≠ .offline ∨ c.retired = true → refused i 0x05)) ∧
    (∀ op i, Claim.sysEvent op core = some i → op = 0x34 ∨ op = 0x35 → Claim.sysOk s core cmd op (Claim.sysWords op) →
      bits (cmd.word 1) 63 14 = 0 →
      let queue := (s.slotOf (bits (cmd.word 1) 13 0)).bind fun p => s.slot p.1 p.2
      (queue = none → refused i 0x05) ∧
      (∀ q, queue = some q → q.cmd = none ∨ op = 0x35 ∧ (q.parked = false ∨ (cmd.word 2).toNat % 64 ≠ 0 ∨
        deviceRange (cmd.word 2) 0x50 = false) → refused i 0x05)) ∧
    (Claim.atHead s core 4 cmd → cmd.op < 0x30 ∨ 0x35 < cmd.op → exec (.stopcore core) s = .next (Claim.ended u core 4 cmd 0x07)) ∧
    (Claim.sysOk s core cmd 0x30 1 → own → c.state = .running ∨ c.state = .rendezvous → c.pending = none →
      exec (.stopcore core) s = .next (Claim.ended (u.raise k none { cls := 0x16, toPl2 := true, noWord := true } 0 0) core 4 cmd 0)) ∧
    (∀ ps s1 s2 s3, Claim.sysOk s core cmd 0x31 2 → own → Claim.imageVa (cmd.word 2) → c.fromPl0 = true → c.portsQuiet = true →
      u.imageRange (cmd.req core .store) (cmd.word 2) (u.image k).length = (.ok ps, s1) →
      s1.allow (holdNo core 12) (s1.nearPieces core ps) .write = .ok s2 →
      s2.storeAll 36 (cmd.agent core) ps (u.image k) = (some 0, s3) →
      let x := s3.coreAt k
      let t : State := { s3 with saves := s3.saves ++ [{ core := k, part := x.part, index := x.index, job := x.job, image := none }] }
      exec (.savecore core) s = .next (done (t.putCore k { x with state := .free, job := 0 }))) ∧
    (∀ ps qs bs more s1 a1 s2 s3 a3 s4, Claim.sysOk s core cmd 0x32 2 → own → Claim.imageVa (cmd.word 2) → c.state = .free →
      c.retired = false → u.imageRange (cmd.req core .load) (cmd.word 2) imageScratch = (.ok ps, s1) →
      s1.allow (holdNo core 12) (s1.nearPieces core ps) .read = .ok a1 → a1.fetchAll 36 (cmd.agent core) ps = (.ok bs, s2) → imageOk bs (dieOf k) = true →
      s2.imageRange (cmd.req core .load) (cmd.word 2 + BitVec.ofNat 64 imageScratch) (at8 bs 12 4) = (.ok qs, s3) →
      s3.allow (holdNo core 12) (s3.nearPieces core qs) .read = .ok a3 → a3.fetchAll 36 (cmd.agent core) qs = (.ok more, s4) → ((s4.coreAt k).load bs).cutOk = true →
      ((s4.coreAt k).load bs).part.toNat = cmd.part →
      exec (.restorecore core) s = .next (done (s4.resumeJob k ((s4.coreAt k).load bs) more))) ∧
    (Claim.sysOk s core cmd 0x33 2 → own → c.state = .offline → c.retired = false →
      ∃ t, exec (.corestart core) s = .next (done t) ∧ (t.coreAt k).state = .running ∧ (t.coreAt k).pl = 2 ∧
        (t.coreAt k).part = BitVec.ofNat 4 cmd.part ∧ (t.coreAt k).pcOf .s = BitVec.ofNat 64 ((cmd.word 2).toNat / 4 * 4) ∧ (t.coreAt k).g = c.g ∧
        (∀ m, m ≠ k → t.coreAt m = u.coreAt m) ∧ t.mem = s.mem) ∧
    (∀ d n q, Claim.sysOk s core cmd 0x34 1 → bits (cmd.word 1) 63 14 = 0 → s.slotOf (bits (cmd.word 1) 13 0) = some (d, n) →
      s.slot d n = some q → q.cmd ≠ none → exec (.park core) s = .next (done (u.parkQueue d n q)) ∧
      ((s.part (s.partOfQueue q.pqn)).running.any (fun r => r.die == d && r.slot == n) = true →
        u.parkQueue d n q = u.mapSlot d n fun q => { q with park := true })) ∧
    (∀ d n q ps qs bs more s1 s2 s3 s4, Claim.sysOk s core cmd 0x35 2 → bits (cmd.word 1) 63 14 = 0 →
      let pqn := bits (cmd.word 1) 13 0
      let va := cmd.word 2
      let count := at8 bs 0x40 4
      s.slotOf pqn = some (d, n) → s.slot d n = some q → q.cmd ≠ none → q.parked = true → va.toNat % 64 = 0 →
      deviceRange va 0x50 = true → u.enginePieces (cmd.req core .load) va 0x50 = (.ok ps, s1) →
      s1.fetchAll 36 (cmd.agent core) ps = (.ok bs, s2) → at8 bs 0 8 = pqn → count ≤ 65536 →
      deviceRange (va + 0x50) (32 * max count 1) = true →
      s2.enginePieces (cmd.req core .load) (va + 0x50) (32 * count) = (.ok qs, s3) →
      s3.fetchAll 36 (cmd.agent core) qs = (.ok more, s4) →
      let v := (s4.part (s4.partOfQueue pqn)).v
      exec (.unpark core) s = .next (done ((s4.mapSlot d n fun x => { x with
        is := Vector.ofFn fun i => BitVec.ofNat 64 (at8 bs (8 * i.val) 8), park := false, again := true, runnable := x.cmd.isSome
        saved := (List.range count).map fun i =>
          entryOf ((more.drop (32 * i)).take 32) ((s4.homeDie (s4.partOfQueue pqn)).getD 0) q.saved
        pass := if x.pass.toInt < v.toInt then v else x.pass }).unparkSlot (s4.partOfQueue pqn) d n)))

/-- R302 to R307, R439, R440: what the fabric engine and the stack engine do with their commands. RSTORE sends its data words to
the addresses that its VA maps to and MSEND the bytes of its source as one message to a core of a node of the mesh; both then
wait for their acknowledgements. SWRITE writes its words to a channel page of the die; STAB loads a table into a channel's
unit; the stack-side unit takes a product. An RSTORE or SWRITE of another OP ends with STATUS 0x07, and, the model's choice
(assumption log 26), a command whose words hold an error beyond correction with 0x06. -/
def Obligations.EngineEvents : Prop :=
  ∀ (s : State) (core : Nat) (cmd : Command),
    let u0 := Claim.taken s core 0
    let u2 := Claim.taken s core 2
    let va := cmd.word 1
    let bs := cmd.data
    let ag : Agent := cmd.agent core
    let paid (t : State) : State := t.stackCharge core cmd.part
    let data := bits (cmd.words.headD 0) 30 0 = 0 ∧ 2 ≤ cmd.nw ∧ cmd.nw ≤ 31 ∧ deviceRange va bs.length = true ∧ va.toNat % 8 = 0
    (core < 1024 → (s.coreAt core).head 0 = some cmd → (s.coreAt core).released = true → flipsBad cmd.flips = true →
      cmd.product = none → exec (if cmd.op = 0x02 then .msend core else .rstore core) s = .next (Claim.ended u0 core 0 cmd 0x06)) ∧
    (Claim.atHead s core 0 cmd → cmd.op ≠ 0x01 → cmd.op ≠ 0x02 → exec (.rstore core) s = .next (Claim.ended u0 core 0 cmd 0x07)) ∧
    (∀ ps s1 sent, Claim.atHead s core 0 cmd → cmd.op = 0x01 → data → u0.enginePieces (cmd.req core .store) va bs.length = (.ok ps, s1) →
      (∀ p ∈ ps, p.kind ≠ .so) →
      (offsets ps).foldlM (fun (acc : List Nat × State) o =>
        (acc.2.writePeer (dieOf core) (.engine core 0) o.2 ((bs.drop o.1).take o.2.len) {} (some ag)).map fun r =>
          (acc.1 ++ r.1, r.2)) ([], s1) = some sent →
      exec (.rstore core) s = .next (sent.2.await core 0 cmd
        (ps.foldl (fun n p => n + ((wordsOf p.addr p.len).2 + 7) / 8) 0) sent.1)) ∧
    (let node := bits va 43 32
     let len := bits va 27 16 + 1
     let src := cmd.word 2
     let dst := cmd.word 3
     let plain := cmd.plain = true ∧ bits va 63 44 = 0 ∧ bits va 31 28 = 0 ∧ bits va 15 8 = 0
     (Claim.atHead s core 0 cmd → cmd.op = 0x02 → plain → u0.inNodeSet cmd.part node = false →
       exec (.msend core) s = .next (Claim.ended u0 core 0 cmd 0x04)) ∧
     (∀ ps got s1 a1 s2 id s3, Claim.atHead s core 0 cmd → cmd.op = 0x02 → plain → u0.inNodeSet cmd.part node = true → cmd.nw = 3 →
       deviceRange src len = true ∨ windowRange src len = true → deviceRange dst len = true → len % 8 = 0 →
       src.toNat % 8 = 0 → dst.toNat % 8 = 0 → u0.workerAt cmd.part node (bits va 7 0) = true →
       u0.enginePieces (cmd.req core .load) src len = (.ok ps, s1) →
       (∀ p ∈ ps, (∃ k, p.place = .scratch k ∧ k / 128 = core / 128) ∨ p.place = .hbm (s1.nodeOf (dieOf core))) →
       s1.allow (holdNo core 8) ps .read = .ok a1 → (readAll ag ps).run.run a1 = (.ok got, s2) →
       let g : Range := {
         dest := BitVec.ofNat 12 node, part := BitVec.ofNat 4 cmd.part, vf := bits cmd.ctx 15 8
         pasid := BitVec.ofNat 20 (bits cmd.ctx 35 16), va := dst, len := len, write := true, dcore := bits va 7 0
         tag := bits (cmd.words.headD 0) 47 32, action := 1, score := core % 256 }
       s2.askRange (dieOf core) (.engine core 0) g (fun id => s2.rangeWrites (dieOf core) g ag got id) = some (id, s3) →
       exec (.msend core) s = .next (s3.await core 0 cmd ((len + 63) / 64) [id]))) ∧
    (Claim.atHead s core 2 cmd → cmd.product = none → u2.stackAdmits core cmd.part = true →
      (cmd.op ≠ 0x10 → cmd.op ≠ 0x11 → exec (.swrite core) s = .next (paid (Claim.ended u2 core 2 cmd 0x07))) ∧
      (∀ ps s1 a1 s2, cmd.op = 0x10 → data → u2.enginePieces (cmd.req core .store) va bs.length = (.ok ps, s1) →
        (∀ p ∈ ps, p.channelHome s1 (dieOf core) = true) → s1.allow (holdNo core 10) ps .write = .ok a1 →
        ((offsets ps).forM fun o => writePiece ag o.2 ((bs.drop o.1).take o.2.len) : R Unit).run.run a1 = (.ok (), s2) →
        exec (.swrite core) s = .next (paid (Claim.ended s2 core 2 cmd 0))) ∧
      (∀ ps s1 a1, cmd.op = 0x11 → cmd.plain = true → bits (cmd.word 2) 63 9 = 0 → cmd.nw = 2 → deviceRange va 512 = true →
        va.toNat % 2 = 0 → (u2.die (dieOf core)).live.getLsbD (bits (cmd.word 2) 5 0) = true →
        u2.enginePieces (cmd.req core .load) va 512 = (.ok ps, s1) →
        s1.allow (holdNo core 10) (ps.filter fun p => !p.peer s1 (dieOf core)) .read = .ok a1 →
        let n := (bits (cmd.word 2) 5 0 * 16 + cmd.part) * 8 + bits (cmd.word 2) 8 6
        (∀ ids s2, (ps.filter fun p => p.peer a1 (dieOf core)).foldlM (fun (acc : List Nat × State) p =>
            (acc.2.readPeer (dieOf core) (.engine core 2) p).map fun r => (acc.1 ++ r.1, r.2)) ([], a1) = some (ids, s2) →
          ids ≠ [] → exec (.stab core) s = .next (paid (s2.await core 2 cmd 0 ids (some (n, ps))))) ∧
        (∀ got s2, (∀ p ∈ ps, p.peer a1 (dieOf core) = false) → (imageBytes ag ps []).run.run a1 = (.ok got, s2) →
          (∀ f, FritTable.ofImage got = some f → exec (.stab core) s = .next (paid (Claim.ended
            (s2.mapDie (dieOf core) fun d => { d with stackTables := Tab.set d.stackTables n f }) core 2 cmd 0))) ∧
          (FritTable.ofImage got = none → exec (.stab core) s = .next (paid (Claim.ended s2 core 2 cmd 0x09)))))) ∧
    (∀ d, Claim.atHead s core 2 cmd → (s.coreAt core).products = [] → cmd.product = some d →
      u2.stackAdmits core cmd.part = true →
      exec (.stackSideProduct core) s = .next (paid (u2.putCore core { u2.coreAt core with products := [d] }))) ∧
    (∀ (d : Product) y s0 s1, core < 1024 → (s.coreAt core).products = [d] →
      s.admitUnits (holdNo core 6) (d.needs s) = .ok s0 → d.next + 1 = d.nnb →
      let owner : BitVec 4 := (d.pieces.map Piece.part).headD 0
      let tables (n : Nat) : FritTable := Tab.get {} (s.die (dieOf core)).stackTables (stackTable d.chan owner.toNat n)
      (unitSums core d tables d.next d.nkb).run.run s0 = (.ok y, s1) →
      let ring := (s1.coreAt core).desc d.ring
      let s2 := s1.ringStore core ring ((d.off + 256 * d.next) % max ring.size 1) (y.flatMap (leBytes 4))
      (s2.coreAt core).blocked.getLsbD d.ring = false →
      exec (.stackSideProduct core) s = .next (s2.putCore core
        { (s2.coreAt core).setDesc d.ring ((ring.completeBytes 256).release 256) with products := (s2.coreAt core).products.drop 1 }))

namespace Sys2Proof.Claim

/-- The reshards of the package for a partition and a destination tensor. -/
def sameReshards (s : State) (r : Reshard) : List Reshard :=
  [0, 1, 2, 3].flatMap fun d => (s.die d).reshards.filter fun x => x.part == r.part && x.dst == r.dst

/-- The cycle in which the first of them was taken, `r`'s own among them. -/
def firstTaken (s : State) (r : Reshard) : Nat := ((sameReshards s r).map (·.taken.toNat)).foldl min r.taken.toNat

/-- A part of a piece sent or made: PIECE counts it, it is no longer to be sent, and its message, where it has one, is out. -/
def started (s : State) (die : Nat) (r : Reshard) (p : ReshardPart) (out : List Nat) : State :=
  (s.mapUsed die r.part fun u => { u with piece := u.piece + 1 }).mapReshard die r.part r.dst fun x =>
    { x with parts := x.parts.erase p, out := x.out ++ out.map fun id => (id, p.reads) }

/-- The message of a part, sent with the codes that its node has formed and a STATUS (R132, R133, R324). -/
def partSent (s s1 : State) (die n : Nat) (r : Reshard) (p : ReshardPart) (status : BitVec 8) : Prop :=
  let g := r.range (s1.jobOf r.part r.images) p
  let agent : Agent := { core := r.core, st := .x, pc := r.pc, job := r.job }
  ∃ bs : List Byte, bs.length = g.len ∧
    let flits (id : Nat) : List Flit := (s1.rangeWrites die g agent bs id).map fun f => { f with cause := status }
    (∀ id s2, s1.askRange die (.piece r.part r.dst p.piece) g flits = some (id, s2) →
      exec (.reshardPiece die n) s = .next (started s2 die r p [id])) ∧
    (s1.askRange die (.piece r.part r.dst p.piece) g flits = none → exec (.reshardPiece die n) s = .next s1)

end Sys2Proof.Claim

/-- R22, R321, R323 to R325, R328, R333, R439: the reshard engine takes a command that passes its checks, joins it to its reshard
and sends its digest; one of another OP or with a reserved bit set is refused with STATUS 0x07, then one of a wrong NW with
0x05, then one that R323's checks fail with 0x07. Once every node's digest has come, the operands agreeing, its plan is made;
operands that differ, and a die whose command does not come for more than 2^24 cycles, end the reshard with STATUS 0x07 at
every die. In the step that runs, a part of a piece is sent, once PIECE admits it, in a message that covers its range at the
node where the piece lands, and a SLICE part is written by its node; a piece all of whose parts have come lands, or ends with
its STATUS. A held arrival is pushed into ep3 once there is room and it is the first held for its core. The STATUS of a wrong
NW is the model's reading (assumption log 33), and so are the comparison of the operands for their digests, the staging of a
piece's parts, and when each is charged and landed (assumption log 35). -/
def Obligations.ReshardEvents : Prop :=
  ∀ (s : State),
    (∀ (core : Nat) (cmd : Command), Claim.atHead s core 1 cmd →
      let u := Claim.taken s core 1
      let h := cmd.words.headD 0
      let w1 := cmd.word 1
      let die := dieOf core
      let g := cmd.images.getD { mapS := 0, mapD := 0, mesh := 0, src := none, dst := none }
      let r : Reshard := {
        part := cmd.part, dst := bits h 47 32, core := core, job := cmd.job, ctx := cmd.ctx, pc := cmd.tagPc, header := h
        source := w1, images := g, taken := s.kiln }
      let clear : Prop := bits h 30 9 = 0 ∧ bits w1 63 16 = 0
      let legal : Prop := reshardFault g (bits w1 15 0) (bits h 47 32) = none ∧
        ∀ x ∈ (u.die die).reshards, x.part = cmd.part → x.dst = bits h 47 32 → x.closed = true
      (cmd.op ≠ 0x20 → exec (.reshardPlan core) s = .next (Claim.ended u core 1 cmd 0x07)) ∧
      (cmd.op = 0x20 → ¬ clear → exec (.reshardPlan core) s = .next (u.rejectReshard die cmd r)) ∧
      (cmd.op = 0x20 → clear → cmd.nw ≠ 1 → exec (.reshardPlan core) s = .next (Claim.ended u core 1 cmd 0x05)) ∧
      (cmd.op = 0x20 → clear → cmd.nw = 1 → ¬ legal → exec (.reshardPlan core) s = .next (u.rejectReshard die cmd r)) ∧
      (cmd.op = 0x20 → clear → cmd.nw = 1 → legal →
        exec (.reshardPlan core) s = .next ((u.await core 1 cmd 0 []).joinReshard die r))) ∧
    (∀ (core : Nat) (r : Reshard), core < 1024 → (s.coreAt core).head 1 = none →
      let die := dieOf core
      (∀ x ∈ (s.die die).reshards, x.core = core → x.untold = []) →
      (s.die die).reshards.find? (s.reshardReady die core) = some r →
      let agree : Prop := ∀ x ∈ Claim.sameReshards s r, x.operands = r.operands ∧ x.status ≠ 0x07 ∧
        x.taken.toNat ≤ Claim.firstTaken s r + 2 ^ 24
      let j := s.jobOf r.part r.images
      let pieces := j.nodes.map fun n => (n.1, j.pieces j.best n.1 n.2)
      let parts := j.partsOf (s.nodeOf die) ((j.best.lastOf .slice).map j.best.runsAs) pieces
      (agree → exec (.reshardPlan core) s = .next ((s.mapReshard die r.part r.dst fun r => { r with
        planned := true, nstep := j.best.nstep, supplied := parts.length, parts := parts
        pieces := ((pieces.find? fun n => n.1 == s.nodeOf die).map (·.2)).getD [] }).settleReshards)) ∧
      (¬ agree → exec (.reshardPlan core) s = .next (s.refuseReshard r.part r.dst))) ∧
    (∀ (die n : Nat) (r : Reshard), die < 4 → (s.die die).reshards[n]? = some r →
      (∀ d : Nat, r.planned = false → r.taken.toNat + 2 ^ 24 < s.kiln.toNat → s.nodeOf d ∈ s.nodesOf r.part →
        s.dieOfNode (s.nodeOf d) = some d → (∀ x ∈ (s.die d).reshards, x.part = r.part → x.dst = r.dst → x.closed = true) →
        exec (.reshardDigestTimeout die n) s = .next (s.refuseReshard r.part r.dst)) ∧
      (r.planned = true ∨ s.kiln.toNat ≤ Claim.firstTaken { s with dies := s.dies.map fun d => { d with
          reshards := d.reshards.filter fun x => !x.closed } } r + 2 ^ 24 →
        exec (.reshardDigestTimeout die n) s = .next s)) ∧
    (∀ (die : Nat) (r : Reshard),
      (∀ p, (r, ReshardWork.land p) ∈ s.piecesOf die ↔ r ∈ (s.die die).reshards ∧ r.planned = true ∧ r.closed = false ∧
        p ∈ r.pieces ∧ (p.status ≠ 0 ∨ ∀ n ∈ p.suppliers, ∃ g ∈ p.got, g.1 = n)) ∧
      (∀ p, (r, ReshardWork.part p) ∈ s.piecesOf die ↔ r ∈ (s.die die).reshards ∧ r.planned = true ∧ r.closed = false ∧
        p ∈ r.parts ∧ p.step = r.step ∧ s.pieceAdmits die r.part = true ∧ s.parkedAt r.part r.core = false)) ∧
    (∀ (die n : Nat) (r : Reshard), die < 4 →
      let j := s.jobOf r.part r.images
      (s.piecesOf die = [] → exec (.reshardPiece die n) s = .next s.settleReshards) ∧
      (∀ p, (s.piecesOf die)[n]? = some (r, .land p) →
        (p.status ≠ 0 → exec (.reshardPiece die n) s = .next (s.pieceDone die r p p.status)) ∧
        (p.status = 0 → ∀ s1,
          let work := (landCodes r j (s.nodeOf die) (p.codes j)).run.run s
          (work = (.ok (), s1) → exec (.reshardPiece die n) s = .next (s1.pieceDone die r p 0)) ∧
          (∀ e, work = (.error (some e), s1) → exec (.reshardPiece die n) s = .next (s1.pieceDone die r p e)) ∧
          (work = (.error none, s1) → exec (.reshardPiece die n) s = .next s1))) ∧
      (∀ p s1, (s.piecesOf die)[n]? = some (r, .part p) → p.slice = true →
        (∀ codes s0 status, (formCodes r j p.node p.node p.elements).run.run s = (.ok codes, s0) →
          ((landCodes r j p.node codes).run.run s0 = (.ok (), s1) ∧ status = 0) ∨
            (landCodes r j p.node codes).run.run s0 = (.error (some status), s1) →
          ∀ x, r.pieces.find? (fun x => x.number == p.piece) = some x →
            exec (.reshardPiece die n) s = .next ((Claim.started s1 die r p []).pieceDone die r x status)) ∧
        (∀ e x, (formCodes r j p.node p.node p.elements).run.run s = (.error (some e), s1) →
          r.pieces.find? (fun x => x.number == p.piece) = some x →
          exec (.reshardPiece die n) s = .next ((Claim.started s1 die r p []).pieceDone die r x e))) ∧
      (∀ p s1, (s.piecesOf die)[n]? = some (r, .part p) → p.slice = false →
        let work := (formCodes r j (s.nodeOf die) p.node p.elements).run.run s
        (∀ codes, work = (.ok codes, s1) → Claim.partSent s s1 die n r p 0) ∧
        (∀ e, work = (.error (some e), s1) → Claim.partSent s s1 die n r p e) ∧
        (work = (.error none, s1) → exec (.reshardPiece die n) s = .next s1))) ∧
    (∀ (die n : Nat) (c : Cullet), die < 4 → (s.die die).cullet[n]? = some c → c.holds c.dcore = true →
      (∀ x ∈ (s.die die).cullet.take n, x.holds c.dcore = false) →
      let k := die * 256 + c.dcore
      let p := (s.coreAt k).port 3
      p.results.length < 32 →
      exec (.ep3ArrivalPush die n) s = .next ((s.putCore k ((s.coreAt k).setPort 3
        { p with results := p.results ++ [c.element] })).mapDie die fun d => { d with cullet := d.cullet.eraseIdx n }))

/-! ### Cores, caches and memory -/

/-- R223, R225, R227: a lane decodes the next chunk of a complete Frit entry ahead of its word, every chunk before it having been
started. R92: a core whose stall counter has wrapped raises class 0x11 with the rows of its streams' holds. R393, R398: a pending trap whose stop is complete is entered, and
one whose streams have all stopped keeps them stopped; 4096 cycles after a fault that drains every stream stops issuing. R400: a core's head record traps the core that runs its job
(class 0x15); another job's record goes to the reserved core of the die and halts the job's queue with 0x08; a write of ARPOP
pops the head record. R402: a WDATA access of a core stopped by a trap from PL0 moves WSEL's offset on by 8. R289: the oldest
reserved entry of a load queue is filled with the bytes that its word read or, where it is read at its fill (the model's choice,
assumption log 8), with the bytes that its pieces then hold, or, where an error has come to stand there since, with those that
its word found (the same entry). That the stall trap and that of a record record no word is the model's reading (assumption
log 16). -/
def Obligations.CoreEvents : Prop :=
  ∀ (s : State) (core : Nat), core < 1024 →
    let c := s.coreAt core
    (∀ (ring chunk off len : Nat) (l : List Nat), ring < 16 → chunk < 16 → (c.desc ring).isFrit = true →
      s.entryAt core (c.desc ring) (chunk / 2) (c.desc ring).head (c.desc ring).avail = some (off, len) →
      c.chunk ring off (chunk % 2) = none → (chunk % 2 = 1 → ∃ d, c.chunk ring off 0 = some d ∧ d.syms ≠ none) →
      s.startedTo core ring (c.desc ring) (chunk / 2) = true → s.ringLoad core (c.desc ring) off len ≠ none →
      let x := leNat (s.ringBytes core (c.desc ring) off len)
      let w4 := (Fmt.ofCode (c.desc ring).fmt).any fun f => f.width == 4
      Machine.decodeChunk (fun t => vget c.frit {} t) w4 x (if chunk % 2 = 0 then 8 else 8 + entryField x 8 2)
        (8 + s.fritHeader core (c.desc ring) off 4) = .symbols l →
      exec (.decodeChunk core ring chunk) s = .next (s.putCore core { c with decoded := c.decoded ++ [{
        ring := ring, entry := off, chunk := chunk % 2, born := s.kiln, detail := 0
        syms := some (BitVec.ofNat 8192 (l.foldr (fun y acc => y + 256 * acc) 0)) }] })) ∧
    (c.stalled = true → c.wrapped = true →
      let row (st : Stream) : Nat := if vget c.arrived false st.code = true
        then (if c.owes st = true then 2 else 10) else (vget c.hold .none st.code).row
      let holds : Dword := BitVec.ofNat 64 (row .s * 2 ^ 24 + row .x * 2 ^ 16 + row .m * 2 ^ 8 + row .v)
      row .s < 256 → row .x < 256 → row .m < 256 → row .v < 256 →
      exec (.stallFault core) s = .next ((s.putCore core { c with wrapped := false }).raise core none
        { cls := 0x11, noWord := true, detail := holds } 0 0)) ∧
    (c.stalled = false ∨ c.wrapped = false → exec (.stallFault core) s = .next s) ∧
    (∀ p, c.pending = some p →
      (c.stopDone p = true → exec (.trapEntry core) s = .next (s.takeTrap core c p)) ∧
      (c.stopDone p = false → exec (.trapEntry core) s = .next (s.putCore core
        (if c.stopEnded p = true then { c with stopped := Vector.replicate 4 true } else c))) ∧
      (p.trap.stop = .drain → p.since.toNat + 4096 ≤ s.kiln.toNat →
        let c' := { c with stopped := Vector.replicate 4 true }
        exec (.drainTimeout core) s = .next (if c'.stopDone p = true then s.takeTrap core c' p else s.putCore core c'))) ∧
    (∀ r rest, c.records = r :: rest →
      (c.job ≠ 0 → r.job = c.job → c.state = .running ∨ c.state = .rendezvous → c.pending = none →
        exec (.asynchronousRecord core) s = .next (s.raise core none { cls := 0x15, noWord := true } 0 0)) ∧
      (c.job = 0 ∨ r.job ≠ c.job → core % 256 ≠ 0 →
        let t := (s.putCore core { c with records := rest }).async (core / 256 * 256) r
        (∀ pqn, t.jobs.find? (fun p => p.1 == r.job) = some (r.job, pqn) →
          exec (.asynchronousRecord core) s = .next (t.queueError pqn 0x08)) ∧
        (t.jobs.find? (fun p => p.1 == r.job) = none → exec (.asynchronousRecord core) s = .next t)) ∧
      (∀ x, exec (.arpop core x) s = .next (s.putCore core { c with records := rest }))) ∧
    (c.fromPl0 = true → ∀ x : Dword,
      let region := bits c.wsel 63 56
      let off := bits c.wsel 23 0
      let wsel : Dword := BitVec.ofNat 64 (region * 2 ^ 56 + (off + 8) % 2 ^ 24)
      exec (.stateWindowAccess core false x) s = .next (s.putCore core { c with wsel := wsel }) ∧
      (off < regionSize region → off % 8 = 0 →
        let t := c.setRegionWord region (off / 8) x
        exec (.stateWindowAccess core true x) s = .next (s.putCore core
          { t with flips := Tab.erase t.flips (region * 2 ^ 20 + off / 8)
                   wsel := BitVec.ofNat 64 (bits t.wsel 63 56 * 2 ^ 56 + (bits t.wsel 23 0 + 8) % 2 ^ 24) }))) ∧
    (∀ (q : Nat) (f : QueueFill) rest, q < 4 → vget c.fills [] q = f :: rest →
      let fill (x : BitVec 2048) : Prop := exec (.queueEntryFill core q) s = .next (s.putCore core
        { { c with fills := vset c.fills q rest }.setWide q ((c.wide q).push x) with
          fresh := vset c.fresh (8 + q) (vget c.fresh 0 (8 + q) + 1) })
      let reads := (f.pieces.mapM (readPiece { core := core, st := .s, pc := 0 })).run.run s
      (∀ x, f.data = some x → fill x) ∧
      (f.data = none → ∀ bs t, reads = (.ok bs, t) → fill (BitVec.ofNat 2048 (leNat bs.flatten))) ∧
      (f.data = none → ∀ e t, reads = (.error e, t) → fill f.found))

/-- R130, R128, R256, R280, R345, R379: at a kiln tick boundary the kiln counter comes to the next multiple of 4096, and the writes of
NTOK, ILROWS and PBENCH that waited for it and the keys installed since the last one are in force (a PBENCH that moves a bench on which a job has
started since waits on: the model's choice, assumption log 63); the scratchpads, the g registers and the TLBs of the worker cores of a bench
that changes its owner are then cleared, and its bench TLB is empty; no byte of memory outside those scratchpads changes. R261, R262: L2 evicts a
block whose write-back its partition's budget admits. R411 to R413, R421: a soft error flips one bit of HBM, of the
carve-outs' metadata, of a cached copy, of a scratchpad, of a core's state, of the cullet table or of a command FIFO (how an
event names the bit is the model's own numbering, assumption log 26, which also says which states SECDED can no longer
correct and what an error in the cullet table does); a scrub corrects and counts a tile's errors, or poisons the tile and reports
event 0x0041. -/
def Obligations.MemoryEvents : Prop :=
  ∀ (s : State),
    (exec .kilnTickBoundary s = .next (s.pass (4096 - s.kiln.toNat % 4096))) ∧
    (Memory.wf s.mem = true → (∀ p ∈ s.cores, p.2.waiting = .none) → s.drops = 0 → s.atsInvals = [] →
      ∃ t, exec .kilnTickBoundary s = .next t ∧ t.kiln = s.kiln + (4096 - BitVec.ofNat 64 (s.kiln.toNat % 4096)) ∧
        (∀ d : Nat, d < 4 → (t.die d).ntok = (s.die d).ntokNext.getD (s.die d).ntok ∧ (t.die d).ntokNext = none ∧
          (t.die d).ilrows = (s.die d).ilrowsNext.getD (s.die d).ilrows ∧ (t.die d).ilrowsNext = none ∧
          (t.die d).keys = (s.die d).keys.map (fun p => (p.1, p.2.install))) ∧
        (∀ p : Nat, p < 16 → (p ∈ s.moving →
            (t.part p).pbench = (s.part p).pbenchNext.getD (s.part p).pbench ∧ (t.part p).pbenchNext = none) ∧
          (p ∉ s.moving → (t.part p).pbench = (s.part p).pbench ∧ (t.part p).pbenchNext = (s.part p).pbenchNext)) ∧
        (∀ b ∈ s.movedBenches, Tab.get [] t.bench b = [] ∧ ∀ k, 16 * b ≤ k → k < 16 * b + 16 → k % 256 ≠ 0 →
          (∀ a, Key.scratch k 0 ≤ a → a < Key.scratch (k + 1) 0 → Memory.read t.mem a = 0) ∧
          (Tab.has s.cores k = true → (t.coreAt k).g = Vector.replicate 32 0 ∧ (t.coreAt k).tlb = [] ∧ (t.coreAt k).xtlb = [])) ∧
        (∀ k, k / 16 ∉ s.movedBenches ∨ k % 256 = 0 → (t.coreAt k).g = (s.coreAt k).g ∧ (t.coreAt k).pc = (s.coreAt k).pc) ∧
        (∀ a, (∀ k, k / 16 ∈ s.movedBenches → k % 256 ≠ 0 → a < Key.scratch k 0 ∨ Key.scratch (k + 1) 0 ≤ a) →
            Memory.read t.mem a = Memory.read s.mem a)) ∧
    (∀ node tile d chan row, s.tilePlace node tile = some (d, chan, row) →
      let flips := (s.tileFlips d chan row).filter fun p => !p.2.isEmpty
      (Tab.has s.l2 (tileKey d chan row) = false → exec (.l2Eviction node tile) s = .next s) ∧
      (Tab.has s.l2 (tileKey d chan row) = true →
        (s.affords (s.evict d chan row) holdOther = true → exec (.l2Eviction node tile) s = .next (s.evict d chan row)) ∧
        (s.affords (s.evict d chan row) holdOther = false → exec (.l2Eviction node tile) s = .next s)) ∧
      (flips = [] → exec (.scrub node tile) s = .next s) ∧
      (flips ≠ [] → (∀ p ∈ flips, granuleBad p.2 = false) →
        exec (.scrub node tile) s = .next ((s.clearTile d chan row).countCorrected d chan flips.length)) ∧
      ((∃ p ∈ flips, granuleBad p.2 = true) →
        exec (.scrub node tile) s = .next ((s.poisonTile d chan row).event physFn 0x0041 0xFFFF (chan + 256 * d)))) ∧
    (∀ node d b : Nat, s.dieOfNode node = some d → b < 8 →
      (∀ tile f chan o, tile < 2 ^ 43 → f < 24 → (s.die d).placeOf (tile * 2048) = some (chan, o) →
        exec (.softError node (2 ^ 48 + 32 * tile + f) b) s = .next (s.flip (metaKey d chan (o / 2048)) (f * 8 + b))) ∧
      (∀ addr chan o, addr < 2 ^ 48 → (s.die d).placeOf addr = some (chan, o) →
        exec (.softError node addr b) s = .next (s.flip (Key.hbm d chan o / 32) (Key.hbm d chan o % 32 * 8 + b)) ∧
        exec (.softError node (2 ^ 49 + addr) b) s = .next (s.strikeCopy d chan o b)) ∧
      (∀ o, o < 2 ^ 28 → let k := Key.scratch (d * 256) 0 + o
        exec (.softError node (2 ^ 50 + o) b) s = .next (s.flip (wordKey k) (k % 8 * 8 + b))) ∧
      (∀ k region o, k < 256 → region < 16 → o < 2 ^ 20 → o < regionSize region →
        exec (.softError node (2 ^ 51 + k * 2 ^ 24 + region * 2 ^ 20 + o) b) s =
          .next (s.putCore (d * 256 + k) ((s.coreAt (d * 256 + k)).strike region o b))) ∧
      (∀ n o, n < culletSize → o < 64 →
        exec (.softError node (2 ^ 52 + 64 * n + o) b) s = .next (s.strikeCullet d n (o * 8 + b))) ∧
      (∀ k p w o, k < 256 → p < 5 → w < 32 → o < 8 →
        let c := s.coreAt (d * 256 + k)
        exec (.softError node (2 ^ 53 + 2048 * k + 256 * p + 8 * w + o) b) s =
          .next (s.putCore (d * 256 + k) (c.setPort p ((c.port p).strike w (o * 8 + b))))))

/-! ### Registers of partitions, dies and functions -/

/-- R128, R129, R256, R280, R345, R346, R348: what a write of each register stores, and which writes are ignored: a PBENCH that moves a
bench which is not quiescent, a PBENCH or PNSET by which the quotas of a home die would pass 256, a VFBIND of a VF that the record does not offer (the model's reading, assumption log 60)
or for a thirteenth VF of a partition, a budget with a field of zero, an NTOK outside 1 to 16 and an ILROWS above CHROWS. -/
def Obligations.RegisterWrites : Prop :=
  ∀ (s : State) (die part : Nat) (x : Dword), die < 4 → part < 16 →
    (let p := s.part part
     let old := p.pbenchNext.getD p.pbench
     (∀ b : Nat, b < 64 → old.getLsbD b ≠ x.getLsbD b → s.benchRetired b = false) →
     ((∀ b : Nat, b < 64 → p.pbench.getLsbD b ≠ x.getLsbD b → s.quiescent b = true ∧ (x.getLsbD b = true →
          ∀ q : Nat, q < 16 → q ≠ part → (s.part q).pbench.getLsbD b = false ∧ ((s.part q).pbenchNext.getD 0).getLsbD b = false)) →
        ((s.mapPart part fun q => { q with pbenchNext := some x }).withMoves (List.range 16)).sharesOk part = true →
        exec (.pbench die part x) s = .next (s.mapPart part fun q => { q with pbenchNext := some x })) ∧
     (∀ b : Nat, b < 64 → p.pbench.getLsbD b ≠ x.getLsbD b → s.quiescent b = false → exec (.pbench die part x) s = .next s) ∧
     (((s.mapPart part fun q => { q with pbenchNext := some x }).withMoves (List.range 16)).sharesOk part = false →
        exec (.pbench die part x) s = .next s)) ∧
    (let t := s.mapPart part fun q => { q with
       pnset := x &&& pnsetMask, v := if q.pnset.getLsbD 0 = false ∧ x.getLsbD 0 = true then 0 else q.v }
     let quota (q : Nat) : Nat := bits (t.part q).pnset 56 48
     let total := (((List.range 16).filter fun q => q == part || (t.homeDie part).isSome && t.homeDie q == t.homeDie part).map quota).sum
     let owns (q d : Nat) : Prop := bits (t.part q).pbench (16 * d + 15) (16 * d) ≠ 0
     let shared (q d : Nat) : Prop := t.inNodeSet part (t.nodeOf d) = true ∧ t.inNodeSet q (t.nodeOf d) = true ∧ (owns part d ∨ owns q d)
     (total ≤ 256 → (∀ q : Nat, q < 16 → q ≠ part → ∀ d : Nat, d < 4 → ¬ shared q d) →
        (t.withMoves (List.range 16)).sharesOk part = true → exec (.pnset die part x) s = .next t) ∧
     ((t.withMoves (List.range 16)).sharesOk part = false → exec (.pnset die part x) s = .next s) ∧
     (256 < total → exec (.pnset die part x) s = .next s) ∧
     (∀ q d : Nat, q < 16 → q ≠ part → d < 4 → shared q d → exec (.pnset die part x) s = .next s)) ∧
    (∀ vf : Nat, vf < 192 →
      let n := ((List.range 192).filter fun k => k != vf && s.bound k && bits (s.fn k).vfbind 3 0 == bits x 3 0).length
      (s.offered vf = false → exec (.vfbind vf x) s = .next s) ∧
      (x.getLsbD 15 = true → 12 ≤ n → exec (.vfbind vf x) s = .next s) ∧
      (s.offered vf = true → x.getLsbD 15 = false ∨ n < 12 → s.bound vf = false →
        exec (.vfbind vf x) s = .next (s.mapFn vf fun f => { f with vfbind := x &&& 0x800F#64 })) ∧
      (s.offered vf = true → x.getLsbD 15 = false → s.bound vf = true →
        exec (.vfbind vf x) s = .next ((s.unmapFn vf).mapFn vf fun f => { f with vfbind := x &&& 0x800F#64 }))) ∧
    (let zero := bits x 63 48 = 0 ∨ bits x 47 32 = 0 ∨ bits x 31 16 = 0 ∨ bits x 15 4 = 0
     (zero → exec (.budgetRegisterWrite die part x) s = .next s) ∧
     (¬ zero → exec (.budgetRegisterWrite die part x) s =
       .next (s.mapDie die fun d => { d with budget := vset d.budget part (x &&& 0xFFFFFFFFFFFFFFF0#64) }))) ∧
    (let n := x.toNat % 32
     (1 ≤ n → n ≤ 16 → exec (.ntokWrite die x) s = .next (s.mapDie die fun d => { d with ntokNext := some (BitVec.ofNat 5 n) })) ∧
     (n = 0 ∨ 16 < n → exec (.ntokWrite die x) s = .next s)) ∧
    (∀ i : Nat, i < 256 → exec (.scownWrite die i x) s =
      .next (s.mapDie die fun d => { d with scownNext := d.scownNext ++ [(i, x.setWidth 9)] })) ∧
    (let n := x.toNat / 2 ^ 32 % 2 ^ 20
     (n ≤ chrows → exec (.domcfgWrite die x) s = .next (s.mapDie die fun d => { d with ilrowsNext := some (BitVec.ofNat 20 n) })) ∧
     (chrows < n → exec (.domcfgWrite die x) s = .next s))

/-! ### Keys -/

namespace Sys2Proof.Claim

/-- What a key command leaves: ERR, no SWEEP, and no command running on the die (R378). -/
def keyEnd (s : State) (die : Nat) (x : Dword) (err : BitVec 8) : State :=
  (s.mapKey die (bits x 55 52) (bits x 59 56) fun k => { k with err := err, sweep := false }).mapDie die fun d =>
    { d with keycmd := none, keyDone := 0, keyRange := none }

/-- A key that waits for the next tick boundary, and the command that installed it ended with ERR 0 (R378, R379). -/
def installed (s : State) (die : Nat) (x : Dword) (value : BitVec 256) (fresh : Bool) : State :=
  keyEnd (s.mapKey die (bits x 55 52) (bits x 59 56) fun k => { k with pending := some (value, fresh) }) die x 0

end Sys2Proof.Claim

/-- R378 to R380: what each command of KEYCMD does. GEN installs a fresh key (its value is free: assumption log 3), DERIVE one
derived from the die's seal root, IMPORT one unwrapped from the parameter block; each ends with ERR 2 where the generation
it would take holds a key. EXPORT writes the current key, wrapped, and ends with ERR 4 where there is none; RETIRE empties
the other generation. SWEEP and ZEROISE take the tiles of the range read when they start one by one, and a bad range ends with
ERR 3; a tile of a SWEEP that its budget holds waits. That a key that waits for the boundary counts as the other generation's, that
the range is read once, one tile to an event, and that a parameter block which cannot be read or a bad range is ERR 3, is the model's reading
(assumption log 36). -/
def Obligations.KeyCommands : Prop :=
  ∀ (s : State) (die : Nat) (x : Dword), die < 4 → (s.die die).keycmd = some x →
    let op := bits x 63 60
    let k := s.keyOf die x
    let used := k.pending ≠ none ∨ vget k.full false (if k.cur then 0 else 1) = true
    let free := k.pending = none ∧ vget k.full false (if k.cur then 0 else 1) = false
    let block := s.paramBlock die (bits x 47 6 * 64)
    (used → (op = 1 → exec (.keyGen die) s = .next (Claim.keyEnd s die x 2)) ∧
      (op = 2 → exec (.keyDerive die) s = .next (Claim.keyEnd s die x 2)) ∧
      (op = 3 → exec (.keyImport die) s = .next (Claim.keyEnd s die x 2))) ∧
    (free → op = 1 → exec (.keyGen die) s =
      .next (Claim.installed { s with free := s.free + 1 } die x (Config.freeBits s.free 256) true)) ∧
    (∀ bs, block = some bs →
      (free → op = 2 → exec (.keyDerive die) s = .next (Claim.installed s die x (deriveKey die (bs.take 32)
        ([0x5A, 0x34, 0x2D, 0x53, 0x45, 0x41, 0x4C] ++ leBytes 1 (bits x 55 52) ++ leBytes 1 (bits x 59 56) ++
          (bs.drop 32).take 4)) false)) ∧
      (free → op = 3 → ∀ v, unwrapKey die (bs.take 64) ((bs.drop 64).take 40) = some v →
        exec (.keyImport die) s = .next (Claim.installed s die x v false)) ∧
      (free → op = 3 → unwrapKey die (bs.take 64) ((bs.drop 64).take 40) = none →
        exec (.keyImport die) s = .next (Claim.keyEnd s die x 5)) ∧
      (op = 4 → vget k.full false (if k.cur then 1 else 0) = false → exec (.keyExport die) s = .next (Claim.keyEnd s die x 4)) ∧
      (op = 4 → vget k.full false (if k.cur then 1 else 0) = true →
        let out := wrapKey (bs.take 64) (vget k.val 0 (if k.cur then 1 else 0)) (Config.freeBits s.free 256)
        exec (.keyExport die) s = .next (Claim.keyEnd
          ({ s with free := s.free + 1 }.writeParams die (bits x 47 6 * 64) (padTo 128 out)) die x 0))) ∧
    (∀ first n, (s.die die).keyRange = some (first, n) ∨
        ((s.die die).keyRange = none ∧ ∃ bs, block = some bs ∧ first = at8 bs 0 8 ∧ n = at8 bs 8 8) →
      let u := s.mapDie die fun d => { d with keyRange := some (first, n) }
      let at_ := (s.die die).keyDone
      ((s.die die).hasTiles first n = false →
        (op = 5 → exec (.keySweep die) s = .next (Claim.keyEnd u die x 3)) ∧
        (op = 7 → exec (.keyZeroise die) s = .next (Claim.keyEnd u die x 3))) ∧
      ((s.die die).hasTiles first n = true → n ≤ at_ →
        (op = 5 → exec (.keySweep die) s = .next (Claim.keyEnd u die x 0)) ∧
        (op = 7 → exec (.keyZeroise die) s = .next (Claim.keyEnd u die x 0))) ∧
      (∀ chan b, (s.die die).hasTiles first n = true → at_ < n →
        (s.die die).placeOf (first + 2048 * at_) = some (chan, b) →
        let next (t : State) : State :=
          if n = at_ + 1 then Claim.keyEnd t die x 0 else t.mapDie die fun d => { d with keyDone := at_ + 1 }
        (op = 7 → exec (.keyZeroise die) s = .next (next (u.zeroiseTile die x chan (b / 2048)))) ∧
        (∀ t, op = 5 → u.sweepTile die x chan (b / 2048) = .ok t → exec (.keySweep die) s = .next (next t)) ∧
        (∀ t, op = 5 → u.sweepTile die x chan (b / 2048) = .error t → exec (.keySweep die) s = .next t))) ∧
    (block = none → (free → op = 2 → exec (.keyDerive die) s = .next (Claim.keyEnd s die x 3)) ∧
      (free → op = 3 → exec (.keyImport die) s = .next (Claim.keyEnd s die x 3)) ∧
      ((s.die die).keyRange = none → (op = 5 → exec (.keySweep die) s = .next (Claim.keyEnd s die x 3)) ∧
        (op = 7 → exec (.keyZeroise die) s = .next (Claim.keyEnd s die x 3))) ∧
      (op = 4 → exec (.keyExport die) s = .next (Claim.keyEnd s die x 3))) ∧
    (op = 6 → exec (.keyRetire die) s = .next (Claim.keyEnd (s.mapKey die (bits x 55 52) (bits x 59 56) fun k =>
      { k with full := vset k.full (if k.cur then 0 else 1) false, pending := none }) die x 0))

/-! ### The host's registers, service commands and resets -/

namespace Sys2Proof.Claim

/-- A service command that runs. -/
def serving (s : State) (x : Dword) (op : Nat) : Prop := s.service.busy = some x ∧ bits x 63 56 = op

/-- What the end of a service command leaves: its RESULT and OP, no command running, and event 0x0060 (R420). -/
def served (s : State) (x : Dword) (result : BitVec 8) : State :=
  { s with service := { s.service with busy := none, result := result, lastOp := BitVec.ofNat 8 (bits x 63 56), stage := 0
                                       parks := [] } }.event physFn 0x0060 0xFFFF (bits x 63 56 + 256 * result.toNat)

/-- The registers of a function's BAR0 at and above 0x1000 that the host writes, each with what a write stores (R7, R349). -/
def stored (x : Dword) : List (Nat × (Fn → Fn)) :=
  [(0x1000, fun f => { f with qdt := x &&& 0xFFFFFFFFFFFFF000#64 }), (0x1008, fun f => { f with s1ctb := x &&& 0x0000FFFFFFFF0001#64 }),
    (0x1010, fun f => { f with tvec := x &&& 0xFFFFFFFFFFFFFFC0#64 }), (0x1100, fun f => { f with evbase := x }),
    (0x1108, fun f => { f with evlog2n := x &&& 31 }), (0x1118, fun f => { f with evridx := x }),
    (0x1120, fun f => { f with ovf := f.ovf && !x.getLsbD 63 }), (0x1200, fun f => { f with nonce := vset f.nonce 0 x }),
    (0x1208, fun f => { f with nonce := vset f.nonce 1 x }), (0x1210, fun f => { f with nonce := vset f.nonce 2 x }),
    (0x1218, fun f => { f with nonce := vset f.nonce 3 x }), (0x1220, fun f => { f with attaddr := x }),
    (0x1228, fun f => { f with attBusy := f.attBusy || x.getLsbD 0 })]

/-- The cores that RETIRE.BENCH takes: those of a bench but a reserved one. -/
def benchCores (b : Nat) : List Nat := ((List.range 16).map (· + 16 * b)).filter fun k => k % 256 != 0

end Sys2Proof.Claim

/-- R7, R112, R349, R390, R420, R430, R431: what a host write to each register of BAR0 stores, a write below 0x200 being one to a
notify register; the host reads a notify register as zero, and ATTCTL as busy with the result above it; a write at any offset
completes, and one that is not to a multiple of 8 changes nothing. A service command in order starts, one with a bad field ends
with RESULT 2, and one written while another runs leaves RESULT 1. In minimal mode only the image loader's registers are
writable: a write of any register below them, SVCCMD and SVCARG among them, changes nothing. A junction at 105 degrees throttles its
die to one token and at 115 resets the package. An attestation request ends with result 0, its report written, where the host
grants it, and else with 0x0A. The model's own: a write that is not to a multiple of 8, and the end of an attestation that the
host does not grant (assumption log 18); the byte order of keys, hashes and signatures in the report (log 59); that a VF which the record does not offer
has no registers (log 60); and what a read of BAR0 shows (log 64). -/
def Obligations.HostRegisters : Prop :=
  ∀ (s : State) (x : Dword),
    (∀ fn off : Nat, fn ≤ physFn → ∃ t, exec (.registerWrite fn off x) s = .next t ∧
      (off % 8 ≠ 0 ∨ s.offered fn = false → t = s) ∧
      (0x200 ≤ off → off < 0x10000 → t.mem = s.mem ∧ t.cores = s.cores ∧ t.dies = s.dies)) ∧
    (∀ fn : Nat, fn ≤ physFn → s.service.minimal = false → s.offered fn = true →
      (∀ off, off % 8 = 0 → off < 0x200 → fn < physFn → exec (.registerWrite fn off x) s = exec (.notify fn (off / 8) x) s) ∧
      (∀ p ∈ Claim.stored x, exec (.registerWrite fn p.1 x) s = .next (s.mapFn fn p.2)) ∧
      (∀ off, off < 0x200 → s.barRead fn off = 0) ∧
      s.barRead fn 0x1228 = BitVec.ofNat 64 (256 * (s.fn fn).attResult.toNat + (s.fn fn).attBusy.toNat)) ∧
    (∀ off, off % 8 = 0 → off < 0x10000 → s.service.minimal = true → exec (.registerWrite physFn off x) s = .next s) ∧
    (let at_ (off : Nat) : Instr := .registerWrite physFn (0x10000 + off) x
     let op := bits x 63 56
     let unit := bits x 53 44
     let good := op ∈ [0x01, 0x02, 0x03, 0x04, 0x10, 0x20, 0x21, 0x22, 0x23] ∧
       (op = 2 ∨ op = 3 → unit < 64) ∧ (op = 4 → unit < 6)
     let v := s.service
     (v.minimal = false →
       (v.busy ≠ none → exec (at_ 0) s = .next { s with service := { v with result := 1 } }) ∧
       (v.busy = none → good → exec (at_ 0) s = .next { s with service := { v with busy := some x, stage := 0, progress := 0, parks := [] } }) ∧
       (v.busy = none → ¬ good → exec (at_ 0) s = .next (Claim.served s x 2))) ∧
     (v.minimal = false → exec (at_ 0x08) s = .next { s with service := { v with arg := x } }) ∧
     (v.minimal = true → exec (at_ 0) s = .next s ∧ exec (at_ 0x08) s = .next s) ∧
     exec (at_ 0x20) s = .next { s with service := { v with imgAddr := x } } ∧
     exec (at_ 0x28) s = .next { s with service := { v with imgLen := x } } ∧
     (v.minimal = true → x.getLsbD 0 = true → v.imgBusy = false →
       exec (at_ 0x30) s = .next { s with service := { v with imgBusy := true, imgRecord := x.getLsbD 1 } })) ∧
    (∀ die deg : Nat, die < 4 →
      (deg < 105 → exec (.thermalAction die deg) s = .next s) ∧
      (105 ≤ deg → deg < 115 → exec (.thermalAction die deg) s =
        .next ((s.mapDie die fun d => { d with ntokNext := some 1 }).event physFn 0x0070 0xFFFF (die + 256))) ∧
      (115 ≤ deg → exec (.thermalAction die deg) s = .next { s with always := { s.always with thermal := 2 } }.packageReset)) ∧
    (∀ fn : Nat, fn ≤ physFn → (∃ t, exec (.attestationRequest fn) s = .next t ∧ (t.fn fn).attBusy = false ∧
        ((s.fn fn).attBusy = true → (t.fn fn).attResult = 0 ∨ (t.fn fn).attResult = 0x0A)) ∧
      ((s.fn fn).attBusy = false → exec (.attestationRequest fn) s = .next s) ∧
      ((s.fn fn).attBusy = true →
        let die := (s.reportBody fn).1
        let body := (s.reportBody fn).2.1
        let t := (s.reportBody fn).2.2
        let m := t.measurement die
        let key := leBytes 64 (aliasKey die m t.configHash).toNat
        let report := body ++ leBytes 64 (signAlias die m t.configHash (Config.freeBits t.free 256) body).toNat ++
          leBytes 64 (signIdentity die (Config.freeBits (t.free + 1) 256)
            (key ++ leBytes 32 m.toNat ++ leBytes 32 t.configHash.toNat)).toNat ++
          leBytes 64 (identityKey die).toNat ++ leBytes 16 0
        let u := { t with free := t.free + 2 }
        let a := (t.fn fn).attaddr.toNat
        body.take 40 = leBytes 4 0x5441345A ++ leBytes 4 1 ++ ((s.fn fn).nonce.toList.flatMap fun w => leBytes 8 w.toNat) ∧
        (u.hostGrants fn none a 512 = true → exec (.attestationRequest fn) s =
          .next ((u.hostWrite fn none a report).mapFn fn fun f => { f with attBusy := false, attResult := 0 })) ∧
        (u.hostGrants fn none a 512 = false → exec (.attestationRequest fn) s =
          .next (u.mapFn fn fun f => { f with attBusy := false, attResult := 0x0A }))))

/-- R420 to R428: what each service command does and its RESULT. Retiring a core takes a FREE one OFFLINE at once and stops a
running one first; the reserved core of a die is 4, one already retired 3. Retiring a channel moves the die's tiles and takes
it from the live list; the last is 4. Retiring a link drains it first; one that a node set needs is 4. FWUPDATE hands each
die over at a kiln tick boundary and ends in board flash; a bad image is 7. A checkpoint holds every tile and parked record,
and a restore writes them back; a tier out of reach or without a checkpoint is 6, another layout 4. The model's own (assumption
log 38): RESULT 6 of an image that the host does not grant before the first hand-off and 7 after it, 6 of a missing checkpoint, DIE
ignored where the OP names no die, the order in which a bench's cores retire, and that a retirement waits at its stages; where the
stream of CKPT.CXL lies in host memory is log 65. -/
def Obligations.ServiceCommands : Prop :=
  ∀ (s : State) (x : Dword),
    let die := bits x 55 54
    let unit := bits x 53 44
    let link := s.link die unit
    (Claim.serving s x 0x01 →
      let c := s.coreAt unit
      let off (t : State) : State := t.putCore unit { t.coreAt unit with state := .offline, retired := true, job := 0 }
      (unit % 256 = 0 → exec .retireCore s = .next (Claim.served s x 4)) ∧
      (unit % 256 ≠ 0 → c.retired = true → exec .retireCore s = .next (Claim.served s x 3)) ∧
      (unit % 256 ≠ 0 → c.retired = false → c.state = .free ∨ c.state = .offline →
        exec .retireCore s = .next (Claim.served (off s) x 0)) ∧
      (unit % 256 ≠ 0 → c.retired = false → c.state = .running ∨ c.state = .rendezvous → c.pending = none →
        exec .retireCore s = .next (s.raise unit none { cls := 0x16, toPl2 := true, noWord := true } 0 0)) ∧
      (unit % 256 ≠ 0 → c.retired = false → c.state = .trapped → c.pl = 2 → bits (vget c.tr2 0 0) 55 48 = 0x16 →
        c.fromPl0 = true → c.portsQuiet = true →
        let held (image : Option (List Byte)) : State := { s with saves := s.saves ++ [{
          core := unit, part := c.part, index := c.index, job := c.job, image := image }] }
        let free := (s.freeCores c.part.toNat (dieOf unit)).find? (· != unit)
        (∀ k, free = some k → exec .retireCore s = .next (Claim.served (off ((held none).moveJob k (s.image unit))) x 0)) ∧
        (free = none → exec .retireCore s = .next (Claim.served (off (held (some (s.image unit)))) x 0)))) ∧
    (Claim.serving s x 0x02 →
      let ks := Claim.benchCores unit
      let all (t : State) : Prop := ∀ k ∈ ks, (t.coreAt k).retired = true
      let start := s.service.stage = 0 ∧ all s
      let step := ks.foldl (fun t k => if (t.coreAt k).retired = true then t else t.retireCore k) s
      (start → exec .retireBench s = .next (Claim.served s x 3)) ∧
      (¬ start → all step → exec .retireBench s = .next (Claim.served step x 0)) ∧
      (¬ start → ¬ all step → exec .retireBench s = .next { step with service := { step.service with stage := 1 } }) ∧
      (¬ start → (∀ k ∈ ks, (s.coreAt k).retired = true ∨ (s.coreAt k).state = .free ∨ (s.coreAt k).state = .offline) →
        ∃ t, exec .retireBench s = .next (Claim.served t x 0) ∧ all t ∧
          (∀ k, k ∉ ks → t.coreAt k = s.coreAt k) ∧ t.mem = s.mem)) ∧
    (Claim.serving s x 0x03 →
      let d := s.die die
      (d.live.getLsbD unit = false → exec .retireChan s = .next (Claim.served s x 3)) ∧
      (d.live.getLsbD unit = true → d.liveList.length ≤ 1 → exec .retireChan s = .next (Claim.served s x 4)) ∧
      (d.live.getLsbD unit = true → 1 < d.liveList.length → s.invocations [die] = [] →
        let t := ((s.evictAll die).moveTiles die unit).mapDie die fun d => { d with live := d.live &&& ~~~(1#64 <<< unit) }
        exec .retireChan s = .next (Claim.served { t with service := { t.service with
          progress := BitVec.ofNat 40 ((d.liveList.length - 1) * d.ilrows.toNat) } }.unparkAll x 0))) ∧
    (Claim.serving s x 0x04 →
      (s.service.stage = 0 → link.retired = true → exec .retireLink s = .next (Claim.served s x 3)) ∧
      (s.service.stage = 0 → link.retired = false → s.linkNeeded die unit = true → exec .retireLink s = .next (Claim.served s x 4)) ∧
      (s.service.stage = 0 → link.retired = false → s.linkNeeded die unit = false →
        (link.up = false → exec .retireLink s = .next (Claim.served (s.mapEnds die unit fun l => { l with retired := true }) x 0)) ∧
        (link.up = true →
          let t := s.mapEnds die unit fun l => { l with draining := true }
          exec .retireLink s = .next { t with service := { t.service with stage := 1 } })) ∧
      (s.service.stage ≠ 0 → link.retired = true → exec .retireLink s = .next (Claim.served s x 0)) ∧
      (s.service.stage ≠ 0 → link.retired = false →
        (s.drained die unit = true → exec .retireLink s = .next (Claim.served (s.linkDown die unit) x 0)) ∧
        (s.drained die unit = false → exec .retireLink s = .next s))) ∧
    (Claim.serving s x 0x10 →
      let v := s.service
      let seen := s.keepRange physFn none v.arg.toNat 64 false
      (s.kiln.toNat % 4096 ≠ 0 → exec .fwupdate s = .next s) ∧
      (s.kiln.toNat % 4096 = 0 → seen.updateImage = none →
        exec .fwupdate s = .next (Claim.served seen x (if v.stage = 0 then 6 else 7))) ∧
      (∀ image, s.kiln.toNat % 4096 = 0 → seen.updateImage = some image →
        let whole := seen.keepRange physFn none v.arg.toNat (Config.imageLength image) false
        let good := imageOkFor v.record image = true ∧ (Config.imageSvn (s.die v.stage).fw).toNat ≤ (Config.imageSvn image).toNat
        let t := whole.mapDie v.stage fun y => { y with fw := image }
        (¬ good → exec .fwupdate s = .next (Claim.served whole x 7)) ∧
        (good → v.stage < 3 → exec .fwupdate s = .next { t with service := { v with stage := v.stage + 1 } }) ∧
        (good → v.stage = 3 → exec .fwupdate s = .next (Claim.served { t with flash := { s.flash with image := image } } x 0)))) ∧
    (∀ (cxl : Bool),
      let saves (i : Instr) : Prop :=
        (s.tierReached cxl = false → exec i s = .next (Claim.served s x 6)) ∧
        (s.tierReached cxl = true → s.invocations [0, 1, 2, 3] = [] →
          let t := ([0, 1, 2, 3] : List Nat).foldl (fun s d => s.evictAll d) s
          let c : Checkpoint := {
            cxl := cxl, place := t.tierPlace cxl, mem := t.mem.filter (fun p => decide (p.1 < 2 ^ 50)), tiles := t.copiedTiles
            ilrows := t.dies.map (·.ilrows), live := t.dies.map (·.live), parked := t.parkedRecords
            nodes := Vector.ofFn fun d => t.nodeOf d.val }
          let out := if cxl = true then t.streamOut c.tiles else ([], t)
          exec i s = .next (Claim.served { out.2 with
            checkpoints := { c with stream := out.1 } :: out.2.checkpoints.filter fun y => y.cxl != cxl || y.place != c.place
            service := { out.2.service with progress := BitVec.ofNat 40 out.2.tileCount } }.unparkAll x 0))
      let found := s.checkpoints.find? fun c => c.cxl == cxl && c.place == s.tierPlace cxl &&
        c.nodes == Vector.ofFn fun d => s.nodeOf d.val
      let restores (i : Instr) : Prop :=
        (s.tierReached cxl = false ∨ found = none → exec i s = .next (Claim.served s x 6)) ∧
        (∀ c, s.tierReached cxl = true → found = some c →
          let same := c.ilrows = s.dies.map (·.ilrows) ∧ c.live = s.dies.map (·.live)
          (¬ same → exec i s = .next (Claim.served s x 4)) ∧
          (same → ∃ t, exec i s = .next (Claim.served t x 0) ∧ t.tiles = (if cxl = true then s.streamIn c else c.tiles) ∧ t.l2 = [] ∧
            (∀ a, a < 2 ^ 50 → Memory.wf c.mem = true → (∀ p ∈ c.mem, p.1 < 2 ^ 50) → Memory.read t.mem a = Memory.read c.mem a) ∧
            (∀ k, (t.coreAt k).l1 = [] ∧ (t.coreAt k).g = (s.coreAt k).g)))
      (Claim.serving s x 0x20 → cxl = false → saves .ckptBuddy) ∧ (Claim.serving s x 0x21 → cxl = true → saves .ckptCxl) ∧
      (Claim.serving s x 0x22 → cxl = false → restores .restoreBuddy) ∧
      (Claim.serving s x 0x23 → cxl = true → restores .restoreCxl))

/-- R415 to R419, R429, R430: the boot of a package in reset. One that has failed three times enters minimal mode; one that finds a
fault records its REASON and die, and the SEQ of a record it has accepted; one that finds none takes the record in force and lets its dies leave reset. A boot not
READY within 2^32 cycles resets the package; the loader writes a payload that verifies to board flash and resets the
package. A die enters reset with its incarnation raised, its HBM kept and its scratchpads zero, and leaves it running the image of
board flash at PL2, if its boot ROM verifies that (one that it refuses leaves the die in reset: the model's choice, assumption log
60); it then expects no node's incarnation and announces itself to every node (to itself too: the model's reading, log 66). In minimal
mode no die resets. The model's own (log 19): that DIE_RESET takes a die in and out of reset, what a package reset keeps beside HBM
and the always-on stores, the kiln counter at 0, and the order in which a boot finds its faults. -/
def Obligations.ResetEvents : Prop :=
  ∀ (s : State),
    let v := s.service
    let n : BitVec 8 := s.always.attempts.setWidth 8
    (v.ready = true ∨ v.minimal = true ∨ v.bootAt ≠ none → exec .boot s = .next s) ∧
    (v.ready = false → v.minimal = false → v.bootAt = none →
      (s.always.attempts = 3 → exec .boot s = .next { s with
        service := { v with minimal := true, attempts := n, reason := s.always.reason, failed := s.always.failed } }) ∧
      (s.always.attempts ≠ 3 →
        let t := { s with always := { s.always with attempts := s.always.attempts + 1 }
                          service := { v with attempts := n, bootAt := some s.kiln } }
        (∀ reason die : Nat, t.bootFault = some (reason, die) → exec .boot s = .next { t with
          always := { t.always with
            reason := BitVec.ofNat 8 reason, failed := BitVec.ofNat 8 die
            seq := if t.recordFault = none then BitVec.ofNat 32 (recordSeq s.flash.record) else t.always.seq }
          service := { t.service with reason := BitVec.ofNat 8 reason, failed := BitVec.ofNat 8 die } }) ∧
        (t.bootFault = none →
          let u := ({ t with always := { t.always with seq := BitVec.ofNat 32 (recordSeq s.flash.record) }
                             service := { t.service with record := s.flash.record } }.factory s.flash.record).trainInside
          exec .boot s = .next ([0, 1, 2, 3].foldl (fun s d => s.leaveReset d) u)))) ∧
    (v.bootAt = none → exec .readyTimeout s = .next s) ∧
    (∀ t : Dword, v.bootAt = some t →
      (s.kiln.toNat < t.toNat + 2 ^ 32 → exec .readyTimeout s = .next s) ∧
      (t.toNat + 2 ^ 32 ≤ s.kiln.toNat → v.reason ≠ 0 → exec .readyTimeout s = .next s.packageReset) ∧
      (t.toNat + 2 ^ 32 ≤ s.kiln.toNat → v.reason = 0 →
        exec .readyTimeout s = .next { s with always := { s.always with reason := 7, failed := 0 } }.packageReset)) ∧
    (v.minimal = true → v.imgBusy = true →
      let seen := s.keepRange physFn none v.imgAddr.toNat v.imgLen.toNat false
      (∀ code, seen.payload = .error code →
        exec .imageLoader s = .next { seen with service := { v with imgBusy := false, imgResult := code } }) ∧
      (∀ bs, seen.payload = .ok bs → exec .imageLoader s = .next { seen with
        flash := if v.imgRecord then { s.flash with record := bs } else { s.flash with image := bs }
        always := { s.always with attempts := 0 } }.packageReset)) ∧
    (∀ die : Nat, die < 4 → v.minimal = false → (s.die die).inReset = true → exec (.dieReset die) s =
      .next (if imageOkFor s.service.record s.flash.image = true then s.leaveReset die else s)) ∧
    (∀ die : Nat, die < 4 → v.minimal = true → exec (.dieReset die) s = .next s) ∧
    (∀ die : Nat, die < 4 → v.minimal = false → (s.die die).inReset = false → (∀ p : Nat, p < 16 → (s.part p).running = none) →
      (∀ x ∈ s.l2, x.1 / 2 ^ 26 ≠ die) → Memory.wf s.mem = true →
      ∃ t, exec (.dieReset die) s = .next t ∧ (t.die die).inReset = true ∧ (t.die die).inc = (s.die die).inc + 1 ∧
        (t.die die).live = (s.die die).live ∧ (t.die die).slots = [] ∧
        (∀ k, dieOf k ≠ die → t.coreAt k = s.coreAt k) ∧
        (∀ a, a < 2 ^ 50 → Memory.read t.mem a = Memory.read s.mem a) ∧
        (∀ k off, k / 256 = die → off < 2 ^ 20 → Memory.read t.mem (Key.scratch k off) = 0)) ∧
    (let t := s.packageReset
     (∀ x ∈ s.l2, x.2.saved = []) → Memory.wf s.mem = true → (s.cores.map (·.1)).Nodup →
       (∀ a, a < 2 ^ 50 → Memory.read t.mem a = Memory.read s.mem a) ∧ t.kiln = 0 ∧ t.tiles = s.tiles ∧ t.flash = s.flash ∧
       t.always = s.always ∧ t.programs = [] ∧ t.service = State.reset.service ∧
       (∀ k, (s.coreAt k).retired = false → t.coreAt k = Core.reset k))

/-! ### Messages, links and the host's port -/

namespace Sys2Proof.Claim

/-- The event by which a flit of a kind lands (R132). -/
def landing (kind : BitVec 4) (n : Nat) (i : Instr) : Prop :=
  (kind = 1 ∧ i = .pwrite n) ∨ (kind = 2 ∧ i = .pread n) ∨ (kind = 3 ∧ i = .rdata n) ∨ (kind = 4 ∧ i = .patom n) ∨
    (kind = 5 ∧ i = .adata n) ∨ (kind = 6 ∧ i = .ack n) ∨ (kind = 7 ∧ i = .nack n) ∨ (kind = 8 ∧ i = .xlatreq n) ∨
    (kind = 9 ∧ i = .xlatrsp n) ∨ (kind = 10 ∧ i = .announce n) ∨ (kind = 11 ∧ i = .annack n) ∨ (kind = 12 ∧ i = .ctrl n)

/-- The incarnation that a die expects of a node is that of the flit (R416). -/
def known (s : State) (d : Nat) (f : Flit) : Prop := ((s.die d).expinc.find? fun p => p.1 == f.src.toNat).map (·.2) = some f.inc

/-- A flit that its router has ejected stands at a place of the net, and its destination is a die of the package that is out of
reset. -/
def comes (s : State) (n : Nat) (f : Flit) (d : Nat) (kind : BitVec 4) : Prop :=
  s.net[n]? = some f ∧ s.dieOfNode f.dest.toNat = some d ∧ f.kind = kind ∧ f.spot = .arrived ∧ (s.die d).inReset = false

/-- The same, of a flit that no rule drops: its INC is the expected one and its FPID one that the die serves (R347, R416). -/
def taken1 (s : State) (n : Nat) (f : Flit) (d : Nat) (kind : BitVec 4) : Prop :=
  comes s n f d kind ∧ known s d f ∧ s.partOf d f.fpid ≠ none

/-- A message with an action is for a parked core: that of an arrival, or the core that issued the reshard of a piece (R409). -/
def forParked (s : State) (d part action dcore tag : Nat) : Prop :=
  (action = 1 ∧ s.parkedAt part (d * 256 + dcore) = true) ∨
    (action = 2 ∧ ∃ r, (s.die d).reshards.find? (fun r => r.part == part && r.dst == tag && !r.closed) = some r ∧
      s.parkedAt part r.core = true)

/-- The state without the flit. -/
def left (s : State) (n : Nat) : State := { s with net := s.net.eraseIdx n }

/-- A flit sent back to the source of one: its KIND, its ADDR and its payload, under the same FPID, MSGID, SEQ and LAST (R132). -/
def back (s : State) (d : Nat) (f : Flit) (kind : BitVec 4) (addr : Nat) (ws : List Dword) (cause : BitVec 8) : State :=
  s.answer d { s.flit d f.src f.fpid kind f.msgid.toNat f.seq.toNat f.last addr ws with cause := cause }

/-- An ACK: a message of one flit, with the STATUS of the write and the number of flits performed (R131, R132). -/
def acked (s : State) (d : Nat) (f : Flit) (status cause : BitVec 8) (flits : Nat) : State :=
  s.answer d { s.flit d f.src f.fpid 6 f.msgid.toNat 0 true (status.toNat + 256 * flits) [] with cause := cause }

/-- A NACK with a REASON, the SEQ of the flit and its header (R132, R139). -/
def nacked (s : State) (d : Nat) (f : Flit) (reason : Nat) : State :=
  back s d f 7 (reason + 4 * f.seq.toNat) [f.header.1, f.header.2] 0

/-- The STATUS of an answer, in the low byte of its ADDR, and the error behind it, the first kept. -/
def noted (r : Request) (f : Flit) : Request :=
  if r.status = 0 ∧ f.addr.setWidth 8 ≠ 0 then { r with status := f.addr.setWidth 8, cause := f.cause } else r

end Sys2Proof.Claim

/-- R131 to R140, R254, R264, R293, R347, R409, R416, R418: what a flit does where it lands. At a die in reset, with another INC than
the die expects, or with an FPID that it does not serve, it is dropped and counted; one whose tiles its budget does not allow
waits (R130). A PWRITE of one flit writes its bytes and
is answered by ACK, one of more enters the cullet table; a PREAD is answered by RDATA and a PATOM by ADATA; a range is
translated at once and answered by XLATRSP. A full table refuses with NACK BUSY, a parked core with PARKED. R85, R133, R137 to R139, R321, R360, R361, R415 to R418: what answers, announces and control messages do. RDATA, ADATA and ACK
fill in or end the request whose MSGID they carry; a NACK sends its flit again after the backoff, or ends the request with
LINK-LOST; so does a request without an answer for 2^33 cycles. XLATRSP lets a range's flits go. An ANNOUNCE gives a node's new
incarnation, ends what was outstanding to it and is answered; an ANNACK opens the way to its node. A control message does what
its function says (the codes are the model's: assumption log 22); a routing update gives the router the distance that a neighbour has to
a node (its layout is the model's too). The model's own beside these: what a flit carries beside its header (its agent, the seal key, the byte
enables, the cause of an error), and that a PATOM of three words is a CAS (assumption log 21); that an answer repeats the SEQ and LAST of
its flit (log 70). -/
def Obligations.FabricEvents : Prop :=
  (∀ (s : State) (n d : Nat) (f : Flit),
    let u := Claim.left s n
    let span := 8 * (f.nwm1.toNat + 1)
    (∀ kind i, Claim.landing kind n i → s.net[n]? = some f → s.dieOfNode f.dest.toNat = some d → f.kind = kind → f.spot = .arrived →
      let routing : Prop := kind = 12 ∧ bits (vget f.data 0 0) 7 0 = 5
      let ofRouters : Prop := kind = 10 ∨ kind = 11 ∨ routing
      ((s.die d).inReset = true → ¬ routing → exec i s = .next (u.dropFlit)) ∧
      ((s.die d).inReset = false → ¬ ofRouters → ¬ Claim.known s d f → exec i s = .next (u.dropFlit)) ∧
      ((s.die d).inReset = false → ¬ ofRouters → Claim.known s d f → s.partOf d f.fpid = none →
        exec i s = .next ({ u.dropFlit with free := s.free + 1 }.event physFn 0x0011 0xFFFF (Config.freeBits s.free 32).toNat))) ∧
    (∀ v, Claim.taken1 s n f d 1 → State.flitAdmitted .write d f u = .error v → exec (.pwrite n) s = .next { v with net := s.net }) ∧
    (∀ v, Claim.taken1 s n f d 1 → State.flitAdmitted .write d f u = .ok v →
      let part := (v.partOf d f.fpid).getD 0
      (∀ c, v.tracking d f = some c →
        let parked : Prop := Claim.forParked v d part c.action c.dcore (bits c.element 47 32)
        (¬ parked → exec (.pwrite n) s = .next (v.landTracked d f c)) ∧
        (parked → exec (.pwrite n) s = .next (Claim.nacked v d f 0))) ∧
      (v.tracking d f = none → v.parkedMessage f = true → exec (.pwrite n) s = .next (Claim.nacked v d f 0)) ∧
      (v.tracking d f = none → v.parkedMessage f = false → f.xl = true → exec (.pwrite n) s = .next (v.dropFlit)) ∧
      (v.tracking d f = none → v.parkedMessage f = false → f.xl = false →
        (f.seq = 0 → f.last = true →
          let r := v.landFlit d f
          exec (.pwrite n) s = .next (Claim.acked r.2 d f r.1.1 r.1.2 1)) ∧
        (f.seq ≠ 0 ∨ f.last = false → 4096 ≤ (v.die d).cullet.length → exec (.pwrite n) s = .next (Claim.nacked v d f 1)) ∧
        (f.seq ≠ 0 ∨ f.last = false → (v.die d).cullet.length < 4096 →
          let c := Cullet.of f v.kiln
          exec (.pwrite n) s = .next ((v.mapDie d fun x => { x with cullet := x.cullet ++ [c] }).landTracked d f c)))) ∧
    (∀ v, Claim.taken1 s n f d 2 → State.flitAdmitted .read d f u = .ok v → f.xl = false →
      let pieces := v.flitPieces d f 0 span
      (∀ bs t, v.takeBytes d pieces = (.ok bs, t) → exec (.pread n) s = .next (Claim.back t d f 3 0
        ((List.range (f.nwm1.toNat + 1)).map fun i => BitVec.ofNat 64 (leNat ((bs.drop (8 * i)).take 8))) 0)) ∧
      (∀ status cause t, v.takeBytes d pieces = (.error (status, cause), t) → exec (.pread n) s =
        .next (Claim.back t d f 3 status.toNat (List.replicate (f.nwm1.toNat + 1) 0) cause))) ∧
    (∀ v, Claim.taken1 s n f d 4 → State.flitAdmitted .modify d f u = .ok v →
      let func := bits (vget f.data 0 0) 9 0
      let size := if func / 32 % 2 = 1 then 8 else 4
      let op := if f.nwm1 = 2 then AmoOp.cas else AmoOp.ofCode (func / 64)
      let ps := v.flitPieces d f (bits f.enable 3 1) size
      let work : R (List (List Byte)) := ps.mapM fun p => modifyPiece (f.agent d) p op size (vget f.data 0 1) (vget f.data 0 2)
      ((∃ p ∈ ps, (v.die d).placeOf p.addr = none) → exec (.patom n) s = .next (Claim.back v d f 5 2 [0] 0)) ∧
      ((∀ p ∈ ps, (v.die d).placeOf p.addr ≠ none) → ∀ bs t, work.run.run v = (.ok bs, t) →
        exec (.patom n) s = .next (Claim.back t d f 5 0 [BitVec.ofNat 64 (leNat bs.flatten)] 0)) ∧
      ((∀ p ∈ ps, (v.die d).placeOf p.addr ≠ none) → ∀ e t, work.run.run v = (.error e, t) →
        exec (.patom n) s = .next (Claim.back t d f 5 6 [0] e.cause))) ∧
    (Claim.taken1 s n f d 8 →
      let part := (u.partOf d f.fpid).getD 0
      let w1 := vget f.data 0 1
      let w2 := vget f.data 0 2
      let len := bits w1 11 0 + 1
      let va := vget f.data 0 0
      let q : Req := {
        core := d * 256, st := .x, agent := 6, acc := if w1.getLsbD 12 then .xwrite else .xread, pl := 0
        part := BitVec.ofNat 4 part, vf := bits w1 47 40, pasid := BitVec.ofNat 20 (bits w2 19 0), die := d }
      let parked : Prop := Claim.forParked u d part (bits w1 39 37) (bits w1 20 13) (bits w1 36 21)
      let open_ := ¬ parked ∧ (u.die d).cullet.length < 4096
      (parked → exec (.xlatreq n) s = .next (Claim.nacked u d f 0)) ∧
      (¬ parked → 4096 ≤ (u.die d).cullet.length → exec (.xlatreq n) s = .next (Claim.nacked u d f 1)) ∧
      (∀ ps t, open_ → (translateParts q (split (pageOf va) va.toNat len) false).run.run u = (.ok ps, t) →
        (∀ p ∈ ps, p.place = .hbm (t.nodeOf d)) →
        let c : Cullet := { Cullet.of f t.kiln with
          write := w1.getLsbD 12, range := some (va, ps), action := bits w1 39 37, dcore := bits w1 20 13
          element := BitVec.ofNat 64 (2 * 2 ^ 48 + bits w1 36 21 * 2 ^ 32 + f.src.toNat * 2 ^ 20 + bits w2 27 20 * 2 ^ 12 + (len - 1))
          job := ((t.part part).running.map (·.job)).getD 0 }
        exec (.xlatreq n) s = .next (Claim.back (t.mapDie d fun x => { x with cullet := x.cullet ++ [c] }) d f 9 0 [] 0)))) ∧
  (∀ (s : State) (n d : Nat) (f : Flit),
    let u := Claim.left s n
    (∀ r, u.reqOf d f.msgid.toNat = some r → r.dest = f.src →
      (Claim.taken1 s n f d 3 → r.kind = 2 → (∃ q ∈ r.flits, q.seq = f.seq) →
        ∃ g, exec (.rdata n) s = .next (u.answered d f.msgid.toNat g) ∧ g r = Claim.noted { r with
          words := (List.range (f.nwm1.toNat + 1)).foldl (fun t i => Tab.set t (8 * f.seq.toNat + i) (vget f.data 0 i)) r.words
          flits := r.flits.filter fun q => q.seq != f.seq } f) ∧
      (Claim.taken1 s n f d 5 → r.kind = 4 →
        ∃ g, exec (.adata n) s = .next (u.answered d f.msgid.toNat g) ∧ g r = Claim.noted { r with
          words := Tab.set r.words 0 (vget f.data 0 0 <<< (8 * (r.addr % 8)))
          flits := r.flits.filter fun q => q.seq != 0 } f) ∧
      (Claim.taken1 s n f d 6 → r.kind = 1 ∨ r.kind = 12 → r.after = [] →
        ∃ g, exec (.ack n) s = .next (u.answered d f.msgid.toNat g) ∧ g r = Claim.noted { r with flits := [], retry := [] } f) ∧
      (Claim.taken1 s n f d 9 → r.asked = true →
        let t := (u.returned d 1).mapReq d r.msgid fun x => { x with
          asked := false, flits := [], covers := x.covers ++ u.rangeCovers d x }
        (f.addr.setWidth 8 = 0#8 → r.status ≠ 0 → exec (.xlatrsp n) s =
          .next ((t.dropRange d r).finish d { r with flits := [] })) ∧
        (∀ k, f.addr.setWidth 8 = 0#8 → r.status = 0 → r.owner = .xword k → exec (.xlatrsp n) s = .next (t.rangeReady k r.msgid)) ∧
        (f.addr.setWidth 8 = 0#8 → r.status = 0 → (∀ k, r.owner ≠ .xword k) →
          exec (.xlatrsp n) s = .next (t.startRange d r.msgid r.owner)) ∧
        (f.addr.setWidth 8 ≠ 0#8 → exec (.xlatrsp n) s =
          .next (t.finish d { r with status := f.addr.setWidth 8, flits := [] })))) ∧
    (∀ r, Claim.taken1 s n f d 7 → u.reqOf d f.msgid.toNat = some r →
      let seq := f.addr.toNat / 4 % 64
      (f.addr.toNat % 4 = 2 → exec (.nack n) s = .next (u.linkLost d r.msgid)) ∧
      (∀ q, f.addr.toNat % 4 ≠ 2 → r.flits.find? (fun q => q.seq.toNat == seq) = some q →
        exec (.nack n) s = .next ((u.returned d 1).mapReq d r.msgid fun x => { x with
          flits := x.flits.filter (· != q), refusals := x.refusals + 1
          retry := x.retry ++ [(s.kiln + BitVec.ofNat 64 (2 ^ (8 + min r.refusals 8)), { q with retry := true })] }))) ∧
    (∀ (id : Nat) r, d < 4 → s.reqOf d id = some r →
      (∀ due q, r.retry.find? (fun p => decide (p.1.toNat ≤ s.kiln.toNat)) = some (due, q) →
        exec (.flitRetry d id) s = .next ((s.mapReq d id fun r => { r with
          retry := r.retry.erase (due, q), flits := r.flits ++ [q] }).mapDie d fun x => { x with formed := x.formed ++ [q] })) ∧
      ((∀ p ∈ r.retry, s.kiln.toNat < p.1.toNat) → exec (.flitRetry d id) s = .next s) ∧
      ((∀ q ∈ (s.die d).formed, q.msgid.toNat ≠ id) → r.ready = false → r.retry = [] → 2 ^ 33 ≤ (s.kiln - r.lastSent).toNat →
        exec (.requestTimeout d id) s = .next (s.linkLost d id)) ∧
      ((s.kiln - r.lastSent).toNat < 2 ^ 33 → exec (.requestTimeout d id) s = .next s)) ∧
    (Claim.comes s n f d 10 →
      let inc : BitVec 4 := f.addr.setWidth 4
      let p := u.peerReset d f.src.toNat
      let t := p.mapDie d fun x => { x with
        expinc := Tab.set x.expinc f.src.toNat inc
        reshards := x.reshards.map fun r => if p.inNodeSet r.part f.src.toNat = true then r.lose f.src.toNat else r
        cullet := x.cullet.filter fun c => c.src != f.src || c.whole }
      let v := (t.lostOutside d f.src.toNat).event physFn 0x0050 0xFFFF (f.src.toNat + 4096 * inc.toNat)
      exec (.announce n) s = .next (Claim.back v d f 11 (v.die d).inc.toNat [] 0)) ∧
    (Claim.comes s n f d 11 →
      let go := (u.die d).delayed.filter fun q => q.dest == f.src
      let t := u.mapDie d fun x => { x with
        expinc := Tab.set x.expinc f.src.toNat (f.addr.setWidth 4), unknown := x.unknown.erase f.src.toNat
        delayed := x.delayed.filter fun q => q.dest != f.src }
      exec (.annack n) s = .next (go.foldl (fun s q => s.answer d q) t)) ∧
    (Claim.comes s n f d 12 → bits (vget f.data 0 0) 7 0 = 5 → exec (.ctrl n) s = .next (u.takeRoute d f)) ∧
    (Claim.taken1 s n f d 12 →
      let w (i : Nat) : Dword := vget f.data 0 i
      let part := (u.partOf d f.fpid).getD 0
      let code := bits (w 0) 7 0
      let acked (t : State) : Prop := exec (.ctrl n) s = .next (Claim.acked t d f 0 0 1)
      (code = 1 → acked (u.mapPart part fun p => { p with running := p.running.map fun r =>
        if r.die = d then { r with told := r.told ++ [f.src.toNat] } else r })) ∧
      (code = 2 → (∀ r ∈ (u.die d).reshards, r.part = part → r.dst = (w 1).toNat → r.planned = true ∨ r.closed = true) →
        acked (u.mapDie d fun x => { x with early := x.early ++ [(part, (w 1).toNat, f.src.toNat, s.kiln)] })) ∧
      (code = 3 → acked (u.markTlb d (bits (w 0) 11 8) (BitVec.ofNat 4 part) (bits (w 0) 23 16) (w 1) (w 2))) ∧
      (code = 4 → u.settledDie d = true → acked (u.dropMarked d)) ∧
      (code = 4 → u.settledDie d = false → exec (.ctrl n) s = .next s)))

/-- R13, R138, R383 to R386: links. A frame whose tag verifies under the receiver's key, above its last CTR, gives its flits to the
router; one whose tag does not is discarded, and the third in a tick takes the link down with event 0x0021. An acknowledgement drops the oldest
frame sent. A link that goes down is down at both ends; training brings both up under a new key where each end accepts the other, and
else posts event 0x0021; from CTR 2^47 on a rekey
sends a SWITCH and starts again at CTR 0. R362 to R364: an ATS invalidation drops the translations it names from every cache;
a page request group closes after 256 cycles and is sent under a free index; its response lets the accesses go on. In minimal mode no
link trains (R430). The model's own (assumption log 39): that training sends the announces again, and that flits which a port going down had
not sent stand at its router again, what it had not verified being discarded; the routing updates that a changed link sends are log 14. -/
def Obligations.LinksAndHost : Prop :=
  ∀ (s : State),
    (∀ die port : Nat, die < 4 → port < 6 →
      let l := s.link die port
      (∀ f, s.inbox.find? (fun p => p.1 == die * 6 + port) = some (die * 6 + port, f) → l.up = true → l.discarding = none →
        let u := { s with inbox := s.inbox.erase (die * 6 + port, f) }
        (u.verifies die port f = true → (∀ c, l.rxCtr = some c → c < f.ctr) →
          exec (.frame die port) s = .next ((u.mapLink die port fun l => { l with
            discarding := none, rxKey := if f.switch then l.rxKey + 1 else l.rxKey
            rxCtr := if f.switch then none else some f.ctr }).released die port f.flits)) ∧
        (∀ c, u.verifies die port f = true → l.rxCtr = some c → f.ctr ≤ c → exec (.frame die port) s = .next u) ∧
        (u.verifies die port f = false →
          let t := u.mapLink die port fun l => { l with discarding := some f.ctr, fails := l.fails + 1 }
          (l.fails < 2 → exec (.frame die port) s = .next t) ∧
          (2 ≤ l.fails → exec (.frame die port) s = .next ({ t.linkDown die port with
            free := (t.linkDown die port).free + 1 }.event physFn 0x0021 0xFFFF
              (Config.freeBits (t.linkDown die port).free 32).toNat)))) ∧
      (∀ f rest, l.unacked = f :: rest → l.up = true →
        (s.accepted die port f = true → exec (.linkAcknowledgement die port true) s =
          .next (s.mapLink die port fun l => { l with unacked := rest })) ∧
        (farEnd die port = none → exec (.linkAcknowledgement die port false) s =
          .next (l.unacked.foldl (fun s g => s.carry die port g) s))) ∧
      (l.up = true → exec (.linkDown die port) s = .next (s.linkDown die port)) ∧
      (l.up = true → (∀ e q, farEnd die port = some (e, q) → e ≠ die) →
        ∃ t, exec (.linkDown die port) s = .next t ∧ (t.link die port).up = false ∧ (t.link die port).unacked = [] ∧
          (∀ e q, farEnd die port = some (e, q) → (t.link e q).up = false)) ∧
      (l.up = false → exec (.linkDown die port) s = .next s) ∧
      (∀ e q, l.up = false → l.retired = false → (s.die die).inReset = false → farEnd die port = some (e, q) →
        (s.die e).inReset = false → (s.link e q).retired = false → s.service.minimal = false →
        let t := ((s.mapLink die port Link.trained).mapLink e q fun r => {
          r.trained with key := l.key + 1, rxKey := l.key + 1 }).reroute s
        exec (.linkTraining die port) s =
          .next ((if s.certified die = true ∧ s.certified e = true then t else s.linkEvent).announceAfter s)) ∧
      (∀ node, l.up = false → l.retired = false → (s.die die).inReset = false → farEnd die port = none → l.peer = some node →
        s.service.minimal = false → exec (.linkTraining die port) s =
          .next (if s.admitsPeer node = true then ((s.mapLink die port Link.trained).reroute s).announceAfter s else s.linkEvent)) ∧
      (s.service.minimal = true → exec (.linkTraining die port) s = .next s) ∧
      (l.up = true → l.draining = false → 2 ^ 47 ≤ l.ctr →
        let f : Frame := {
          ctr := l.ctr, key := l.key, tag := frameTag (s.nodeOf die) port l.key l.ctr [], switch := true, flits := [] }
        exec (.rekey die port) s = .next (((s.mapLink die port fun l => { l with
          ctr := 0, key := l.key + 1, keywait := false, unacked := l.unacked ++ [f] }).carry die port f).reroute s))) ∧
    (∀ (vf pasid : Nat) (base len : Dword), vf ≤ physFn →
      ∃ t, exec (.atsInvalidation vf pasid base len) s = .next t ∧
        (let gone (e : TlbEntry) : Prop :=
           e.host = true ∧ invalNames vf pasid base len e.vf (if e.noPasid = true then none else some e.pasid) (e.va.toNat / 4096) = true
         (∀ p ∈ t.cores, ∀ e, e ∈ p.2.tlb ∨ e ∈ p.2.xtlb → ¬ gone e) ∧
         (∀ p ∈ t.bench, ∀ e, .combined e ∈ p.2 → ¬ gone e) ∧
         (∀ k e, e ∈ (s.coreAt k).tlb → ¬ gone e → e ∈ (t.coreAt k).tlb) ∧
         (∀ k e, e ∈ (s.coreAt k).xtlb → ¬ gone e → e ∈ (t.coreAt k).xtlb)) ∧
        t.grants = s.grants ∧ t.mem = s.mem ∧ ∀ k, (t.coreAt k).g = (s.coreAt k).g ∧ (t.coreAt k).pc = (s.coreAt k).pc) ∧
    (∀ (n : Nat) (g : Group), s.groups.find? (fun x => x.id == n) = some g →
      (g.index = none → g.closed = false → s.kiln.toNat < g.opened.toNat + 256 →
        exec (.pageRequestGroupClose n) s = .next s) ∧
      (g.index ≠ none → exec (.pageRequestGroupClose n) s = .next s) ∧
      (g.index = none → g.closed = true ∨ g.opened.toNat + 256 ≤ s.kiln.toNat →
        let t := s.closeDue
        ∀ x, t.groups.find? (fun y => y.id == n) = some x →
          (x.pages.length ≤ max 1 (t.fn x.fn).allowance → exec (.pageRequestGroupClose n) s = .next (t.sendGroup x)) ∧
          (max 1 (t.fn x.fn).allowance < x.pages.length →
            ∀ y, (t.closeGroup x).groups.find? (fun y => y.id == n) = some y →
              exec (.pageRequestGroupClose n) s = .next ((t.closeGroup x).sendGroup y)))) ∧
    (∀ (n : Nat) (g : Group), s.groups.find? (fun x => x.id == n && x.index.isSome) = some g →
      exec (.pageRequestResponse n 0) s = .next (s.answerGroup n 0) ∧
      exec (.pageRequestResponse n 1) s = .next (s.answerGroup n 6) ∧
      (∀ code, 2 ≤ code → (∀ x ∈ s.groups, x.fn = g.fn → x.index ≠ none) →
        let t := (s.answerGroup n 7).mapFn g.fn fun f => { f with priStopped := true }
        exec (.pageRequestResponse n code) s =
          .next ({ t with free := s.free + 1 }.event g.fn 0x0010 0xFFFF (Config.freeBits s.free 32).toNat)))

/-- An event that names a die, a core, a slot, a function or a port that the package does not have stops by that name: no rule gives
it an effect (assumption log 20). -/
def Obligations.AbsentUnits : Prop :=
  ∀ (s : State) (n m : Nat) (x : Dword), let stops (i : Instr) : Prop := exec i s = .fault .noSuchUnit
    (1024 ≤ n → stops (.iterationRetirement n) ∧ stops (.park n) ∧ stops (.unpark n) ∧ stops (.stopcore n) ∧ stops (.savecore n) ∧
      stops (.restorecore n) ∧ stops (.corestart n) ∧ stops (.rstore n) ∧ stops (.msend n) ∧ stops (.swrite n) ∧ stops (.stab n) ∧
      stops (.stackSideProduct n) ∧ stops (.reshardPlan n) ∧ stops (.transferCompletion n m) ∧ stops (.stepRetirement n) ∧
      stops (.decodeChunk n m 0) ∧ stops (.stallFault n) ∧ stops (.trapEntry n) ∧ stops (.drainTimeout n) ∧
      stops (.asynchronousRecord n) ∧ stops (.arpop n x) ∧ stops (.stateWindowAccess n false x) ∧ stops (.storePerformed n m) ∧
      stops (.queueEntryFill n m)) ∧
    (4 ≤ n → stops (.queueMap n m 0) ∧ stops (.queueUnmap n m) ∧ stops (.commandFetch n m) ∧ stops (.startJob m n) ∧
      stops (.reshardDigestTimeout n m) ∧ stops (.reshardPiece n m) ∧ stops (.ep3ArrivalPush n m) ∧ stops (.pbench n m x) ∧
      stops (.pnset n m x) ∧ stops (.budgetRegisterWrite n m x) ∧ stops (.ntokWrite n x) ∧ stops (.scownWrite n m x) ∧
      stops (.domcfgWrite n x) ∧ stops (.keyGen n) ∧ stops (.keyDerive n) ∧ stops (.keyImport n) ∧ stops (.keyExport n) ∧
      stops (.keySweep n) ∧ stops (.keyRetire n) ∧ stops (.keyZeroise n) ∧ stops (.thermalAction n m) ∧ stops (.dieReset n) ∧
      stops (.flitRetry n m) ∧ stops (.requestTimeout n m) ∧ stops (.frame n m) ∧ stops (.linkAcknowledgement n m true) ∧
      stops (.linkDown n m) ∧ stops (.linkTraining n m) ∧ stops (.rekey n m)) ∧
    (16 ≤ n → stops (.nodeDispatch n) ∧ stops (.nodeBoundary n)) ∧
    (physFn < n → stops (.notify n m x) ∧ stops (.registerWrite n m x) ∧ stops (.attestationRequest n) ∧
      stops (.atsInvalidation n m x x) ∧ stops (.vfbind n x)) ∧
    (s.tilePlace n m = none → stops (.l2Eviction n m) ∧ stops (.scrub n m)) ∧
    (s.dieOfNode n = none → stops (.softError n m 0))

/-! ### The whole machine -/

/-- R25 to R27, R33 to R48: encoding and decoding agree. The word of every well-formed instruction decodes to that instruction, with
every operand, in the stream that has it; and every word that decodes is the word of the instruction it decodes to, so no
two words of a stream have one meaning and no bit is dropped. -/
def Obligations.EncodeDecode : Prop :=
  (∀ (i : Instr) (w : Word), i.wf = true → encode i = some w → ∃ st, decode st w = .ok i) ∧
  (∀ (st : Stream) (w : Word) (i : Instr), decode st w = .ok i → encode i = some w ∧ i.wf = true)

/-- R25, R27, R33 to R48: words written out from the spec's encodings, one or more of each stream, decode to what they stand for; a
word of an opcode that its stream does not assign, and one with a bit of a reserved field set, are refused by name. -/
def Obligations.DecodeWords : Prop :=
  decode .s 0x02322800#32 = .ok (.add 3 4 10) ∧ decode .s 0x304537FE#32 = .ok (.bcc 2 5 6 0x7FE) ∧
  decode .s 0x6074B7FF#32 = .ok (.ld 7 9 3 1 0x3FF) ∧ decode .s 0x35FFFFFF#32 = .ok (.jl 0x1FFFFFF) ∧
  decode .v 0x06022381#32 = .ok (.vadd 8 1 2 7 0 0 1) ∧
  decode .m 0x1048CC05#32 = .ok (.mma 0 1 2 3 0 0 1 1 0 0 5) ∧ decode .x 0x18A34000#32 = .ok (.xcopy 1 2 3 4) ∧
  (∀ st, decode st 0x00000000#32 = .error .unassignedOpcode ∧ decode st 0xFFFFFFFF#32 = .error .unassignedOpcode) ∧
  decode .s 0x02322A00#32 = .error .unassignedFunction ∧ decode .s 0x40000001#32 = .error .reservedField ∧
  decode .s 0x6074C000#32 = .error .reservedValue

/-- R27, R28: a stream that may act, owes no post, has not arrived at its REND and whose core holds no error runs the word that
stands at its program counter: a step is `exec` of the instruction that it decodes to, and then the turn of the next stream; a
word that decodes to none raises class 0x01 with the subcode that R27 gives. Where the stream's cache holds the line of the
program counter for its address space, the word is its four bytes there. R130: what would pass the seal-tile budget of a partition is not
done, and the word holds; a word that makes no such access never does. That a step is followed by the turn of the next stream
(State.follow) is the model's choice (assumption log 27), since the spec gives the streams no order. -/
def Obligations.StepRunsDecoded : Prop :=
  ∀ (s s1 : State) (w : Word), s.timedDue = none → s.agenda = [] →
    let st := s.turn.2
    let c := s.core
    c.mayIssue st = true → c.settle st = (c, true) → vget c.owed 0 st.code = 0 → c.pendOf st = [] →
    vget c.arrived false st.code = false →
    let who := holdNo s.me st.code
    let gate (t : State) : State :=
      if s.affords t who = true then t else (s.holdUnits who (s.refused t who)).held st (.device 15)
    (∀ l, c.cached st (c.pcOf st) = some l →
      (fetchWord s.me st).run.run s = (.ok (l.data.extractLsb' (8 * ((c.pcOf st).toNat % 64)) 32), s)) ∧
    ((fetchWord s.me st).run.run s = (.ok w, s1) → s1.core.flips = [] →
      (∀ i, decode st w = .ok i →
        (∀ t, exec i s1 = .next t → step s = .next (gate t).follow) ∧ (∀ e, exec i s1 = .fault e → step s = .fault e) ∧
          (∀ e, exec i s1 = .refused e → step s = .refused e)) ∧
      (∀ e, decode st w = .error e → step s = .next (gate (s1.raise s.me (some st)
        { cls := 0x01, sub := BitVec.ofNat 32 e.subcode } (c.pcOf st) w)).follow)) ∧
    (∀ t : State, (∀ d : Nat, d < 4 → (t.die d).used = (s.die d).used) → gate t = t)

namespace Sys2Proof.Claim

/-- Memory is in its canonical form, and so is that of every checkpoint, which holds bytes of HBM alone. -/
def canonical (s : State) : Prop :=
  Memory.wf s.mem = true ∧ ∀ c ∈ s.checkpoints, Memory.wf c.mem = true ∧ ∀ p ∈ c.mem, p.1 < 2 ^ 50

end Sys2Proof.Claim

/-- R5, R16: every step of every instruction and event keeps the canonical form of memory, so that states with the same bytes are the
same data. -/
def Obligations.MemoryStaysCanonical : Prop :=
  ∀ (s t : State), Claim.canonical s → step s = .next t → Claim.canonical t

/-- R12, R20, R21, R34, R82, R109, R429 and assumption log 5: what stands right after reset: memory canonical and empty, the kiln
counter at 0, every worker core FREE and every reserved core OFFLINE with its registers zero and its queues, engines and rings empty, no command or node
running, no partition with a bench, every generation of every key empty, and no service command. The register values that
the spec does not give are the model's choice. -/
def Obligations.ResetValues : Prop :=
  let s := State.reset
  Claim.canonical s ∧ s.mem = [] ∧ s.kiln = 0 ∧ s.service.busy = none ∧ s.service.ready = false ∧ s.net = [] ∧
  (∀ k, let c := s.coreAt k
    c.state = (if k % 256 = 0 then .offline else .free) ∧ c.pl = 0 ∧ (∀ r, c.readG r = 0) ∧ (∀ st, c.pcOf st = 0 ∧ (c.loop st).depth = 0) ∧
    (∀ q : Nat, q < 6 → (c.wide q).size = 0) ∧ (∀ q : Nat, q < 4 → (c.scalar q).size = 0) ∧ (∀ f : Nat, f < 8 → c.count f = 0) ∧
    (∀ r : Nat, r < 16 → (c.desc r).avail = 0 ∧ (c.desc r).rsvd = 0) ∧ c.stores = [] ∧ c.pending = none ∧ c.monitor = .disarmed ∧
    (∀ p : Nat, p < 5 → (c.port p).fifo = [] ∧ (c.port p).results = [])) ∧
  (∀ d : Nat, d < 4 → (s.die d).slots = [] ∧ (s.die d).keys = [] ∧ (s.die d).keycmd = none) ∧
  (∀ p : Nat, p < 16 → (s.part p).running = none ∧ (s.part p).pbench = 0)
end

