-- ==== Sys2Proof/Laws/State.lean ====
section
/-! SUPPORT. What each update of a state or of a core leaves of every field: one lemma per field per update, so that no
proof unfolds a record update. -/

namespace Sys2Proof.Machine

/-! ### Tables and vectors -/

@[simp] theorem Tab.get_set_self {α : Type} (d : α) (t : Tab α) (k : Nat) (a : α) : Tab.get d (Tab.set t k a) k = a := by
  induction t with
  | nil => simp [Tab.set, Tab.get]
  | cons p rest ih =>
    simp only [Tab.set]
    split
    · simp [Tab.get]
    · split <;> simp_all [Tab.get]

theorem Tab.get_set_ne {α : Type} (d : α) (t : Tab α) (k k' : Nat) (a : α) (h : k' ≠ k) :
    Tab.get d (Tab.set t k a) k' = Tab.get d t k' := by
  induction t with
  | nil => simp [Tab.set, Tab.get, h]
  | cons p rest ih =>
    simp only [Tab.set]
    split
    · next e => subst e; simp [Tab.get, h]
    · split <;> simp_all [Tab.get]

@[simp] theorem vget_vset_self {α : Type} {n : Nat} (v : Vector α n) (d : α) (i : Nat) (a : α) (h : i < n) :
    vget (vset v i a) d i = a := by simp [vget, vset, h]

theorem vget_vset_ne {α : Type} {n : Nat} (v : Vector α n) (d : α) (i j : Nat) (a : α) (h : j ≠ i) :
    vget (vset v i a) d j = vget v d j := by
  simp only [vget, vset]
  rw [Vector.getElem?_setIfInBounds_ne (by omega)]

/-! ### State.putCore and State.mapCore -/

@[simp] theorem State.coreAt_putCore_self (s : State) (k : Nat) (c : Core) : (s.putCore k c).coreAt k = c := by
  simp [State.coreAt, State.putCore]

theorem State.coreAt_putCore_ne (s : State) (k j : Nat) (c : Core) (h : j ≠ k) :
    (s.putCore k c).coreAt j = s.coreAt j := by
  simp [State.coreAt, State.putCore, Tab.get_set_ne _ _ _ _ _ h]

@[simp] theorem State.me_putCore (s : State) (k : Nat) (c : Core) : (s.putCore k c).me = s.me := rfl

@[simp] theorem State.core_putCore_me (s : State) (c : Core) : (s.putCore s.me c).core = c := by
  simp [State.core]

@[simp] theorem State.core_mapCore (s : State) (f : Core → Core) : (s.mapCore f).core = f s.core := by
  simp [State.mapCore, State.core]

@[simp] theorem State.me_mapCore (s : State) (f : Core → Core) : (s.mapCore f).me = s.me := rfl

theorem State.coreAt_mapCore_ne (s : State) (f : Core → Core) (k : Nat) (h : k ≠ s.me) :
    (s.mapCore f).coreAt k = s.coreAt k := State.coreAt_putCore_ne _ _ _ _ h

@[simp] theorem State.putCore_putCore (s : State) (k : Nat) (c d : Core) :
    (s.putCore k c).putCore k d = s.putCore k d := by
  simp only [State.putCore]
  congr 1
  induction s.cores with
  | nil => simp [Tab.set]
  | cons p rest ih =>
    simp only [Tab.set]
    split
    · simp [Tab.set]
    · split <;> simp_all [Tab.set]

@[simp] theorem State.mapCore_mapCore (s : State) (f g : Core → Core) :
    (s.mapCore f).mapCore g = s.mapCore fun c => g (f c) := by
  simp [State.mapCore, State.core]

@[simp] theorem State.putCore_mem (s : State) (k : Nat) (c : Core) : (s.putCore k c).mem = s.mem := rfl
@[simp] theorem State.putCore_tiles (s : State) (k : Nat) (c : Core) : (s.putCore k c).tiles = s.tiles := rfl
@[simp] theorem State.putCore_l2 (s : State) (k : Nat) (c : Core) : (s.putCore k c).l2 = s.l2 := rfl
@[simp] theorem State.putCore_ecc (s : State) (k : Nat) (c : Core) : (s.putCore k c).ecc = s.ecc := rfl
@[simp] theorem State.putCore_untrained (s : State) (k : Nat) (c : Core) : (s.putCore k c).untrained = s.untrained := rfl
@[simp] theorem State.putCore_dies (s : State) (k : Nat) (c : Core) : (s.putCore k c).dies = s.dies := rfl
@[simp] theorem State.putCore_fns (s : State) (k : Nat) (c : Core) : (s.putCore k c).fns = s.fns := rfl
@[simp] theorem State.putCore_parts (s : State) (k : Nat) (c : Core) : (s.putCore k c).parts = s.parts := rfl
@[simp] theorem State.putCore_programs (s : State) (k : Nat) (c : Core) : (s.putCore k c).programs = s.programs := rfl
@[simp] theorem State.putCore_net (s : State) (k : Nat) (c : Core) : (s.putCore k c).net = s.net := rfl
@[simp] theorem State.putCore_outbox (s : State) (k : Nat) (c : Core) : (s.putCore k c).outbox = s.outbox := rfl
@[simp] theorem State.putCore_inbox (s : State) (k : Nat) (c : Core) : (s.putCore k c).inbox = s.inbox := rfl
@[simp] theorem State.putCore_bench (s : State) (k : Nat) (c : Core) : (s.putCore k c).bench = s.bench := rfl
@[simp] theorem State.putCore_grants (s : State) (k : Nat) (c : Core) : (s.putCore k c).grants = s.grants := rfl
@[simp] theorem State.putCore_groups (s : State) (k : Nat) (c : Core) : (s.putCore k c).groups = s.groups := rfl
@[simp] theorem State.putCore_nextGroup (s : State) (k : Nat) (c : Core) : (s.putCore k c).nextGroup = s.nextGroup := rfl
@[simp] theorem State.putCore_atsInvals (s : State) (k : Nat) (c : Core) : (s.putCore k c).atsInvals = s.atsInvals := rfl
@[simp] theorem State.putCore_hostOut (s : State) (k : Nat) (c : Core) : (s.putCore k c).hostOut = s.hostOut := rfl
@[simp] theorem State.putCore_kiln (s : State) (k : Nat) (c : Core) : (s.putCore k c).kiln = s.kiln := rfl
@[simp] theorem State.putCore_coords (s : State) (k : Nat) (c : Core) : (s.putCore k c).coords = s.coords := rfl
@[simp] theorem State.putCore_torus (s : State) (k : Nat) (c : Core) : (s.putCore k c).torus = s.torus := rfl
@[simp] theorem State.putCore_turn (s : State) (k : Nat) (c : Core) : (s.putCore k c).turn = s.turn := rfl
@[simp] theorem State.putCore_agenda (s : State) (k : Nat) (c : Core) : (s.putCore k c).agenda = s.agenda := rfl
@[simp] theorem State.putCore_free (s : State) (k : Nat) (c : Core) : (s.putCore k c).free = s.free := rfl
@[simp] theorem State.putCore_nextJob (s : State) (k : Nat) (c : Core) : (s.putCore k c).nextJob = s.nextJob := rfl
@[simp] theorem State.putCore_jobs (s : State) (k : Nat) (c : Core) : (s.putCore k c).jobs = s.jobs := rfl
@[simp] theorem State.putCore_service (s : State) (k : Nat) (c : Core) : (s.putCore k c).service = s.service := rfl
@[simp] theorem State.putCore_always (s : State) (k : Nat) (c : Core) : (s.putCore k c).always = s.always := rfl
@[simp] theorem State.putCore_flash (s : State) (k : Nat) (c : Core) : (s.putCore k c).flash = s.flash := rfl
@[simp] theorem State.putCore_checkpoints (s : State) (k : Nat) (c : Core) : (s.putCore k c).checkpoints = s.checkpoints := rfl
@[simp] theorem State.putCore_saves (s : State) (k : Nat) (c : Core) : (s.putCore k c).saves = s.saves := rfl
@[simp] theorem State.putCore_drops (s : State) (k : Nat) (c : Core) : (s.putCore k c).drops = s.drops := rfl

@[simp] theorem State.mapCore_mem (s : State) (f : Core → Core) : (s.mapCore f).mem = s.mem := rfl
@[simp] theorem State.mapCore_tiles (s : State) (f : Core → Core) : (s.mapCore f).tiles = s.tiles := rfl
@[simp] theorem State.mapCore_l2 (s : State) (f : Core → Core) : (s.mapCore f).l2 = s.l2 := rfl
@[simp] theorem State.mapCore_ecc (s : State) (f : Core → Core) : (s.mapCore f).ecc = s.ecc := rfl
@[simp] theorem State.mapCore_untrained (s : State) (f : Core → Core) : (s.mapCore f).untrained = s.untrained := rfl
@[simp] theorem State.mapCore_dies (s : State) (f : Core → Core) : (s.mapCore f).dies = s.dies := rfl
@[simp] theorem State.mapCore_fns (s : State) (f : Core → Core) : (s.mapCore f).fns = s.fns := rfl
@[simp] theorem State.mapCore_parts (s : State) (f : Core → Core) : (s.mapCore f).parts = s.parts := rfl
@[simp] theorem State.mapCore_programs (s : State) (f : Core → Core) : (s.mapCore f).programs = s.programs := rfl
@[simp] theorem State.mapCore_net (s : State) (f : Core → Core) : (s.mapCore f).net = s.net := rfl
@[simp] theorem State.mapCore_outbox (s : State) (f : Core → Core) : (s.mapCore f).outbox = s.outbox := rfl
@[simp] theorem State.mapCore_inbox (s : State) (f : Core → Core) : (s.mapCore f).inbox = s.inbox := rfl
@[simp] theorem State.mapCore_bench (s : State) (f : Core → Core) : (s.mapCore f).bench = s.bench := rfl
@[simp] theorem State.mapCore_grants (s : State) (f : Core → Core) : (s.mapCore f).grants = s.grants := rfl
@[simp] theorem State.mapCore_groups (s : State) (f : Core → Core) : (s.mapCore f).groups = s.groups := rfl
@[simp] theorem State.mapCore_nextGroup (s : State) (f : Core → Core) : (s.mapCore f).nextGroup = s.nextGroup := rfl
@[simp] theorem State.mapCore_atsInvals (s : State) (f : Core → Core) : (s.mapCore f).atsInvals = s.atsInvals := rfl
@[simp] theorem State.mapCore_hostOut (s : State) (f : Core → Core) : (s.mapCore f).hostOut = s.hostOut := rfl
@[simp] theorem State.mapCore_kiln (s : State) (f : Core → Core) : (s.mapCore f).kiln = s.kiln := rfl
@[simp] theorem State.mapCore_coords (s : State) (f : Core → Core) : (s.mapCore f).coords = s.coords := rfl
@[simp] theorem State.mapCore_torus (s : State) (f : Core → Core) : (s.mapCore f).torus = s.torus := rfl
@[simp] theorem State.mapCore_turn (s : State) (f : Core → Core) : (s.mapCore f).turn = s.turn := rfl
@[simp] theorem State.mapCore_agenda (s : State) (f : Core → Core) : (s.mapCore f).agenda = s.agenda := rfl
@[simp] theorem State.mapCore_free (s : State) (f : Core → Core) : (s.mapCore f).free = s.free := rfl
@[simp] theorem State.mapCore_nextJob (s : State) (f : Core → Core) : (s.mapCore f).nextJob = s.nextJob := rfl
@[simp] theorem State.mapCore_jobs (s : State) (f : Core → Core) : (s.mapCore f).jobs = s.jobs := rfl
@[simp] theorem State.mapCore_service (s : State) (f : Core → Core) : (s.mapCore f).service = s.service := rfl
@[simp] theorem State.mapCore_always (s : State) (f : Core → Core) : (s.mapCore f).always = s.always := rfl
@[simp] theorem State.mapCore_flash (s : State) (f : Core → Core) : (s.mapCore f).flash = s.flash := rfl
@[simp] theorem State.mapCore_checkpoints (s : State) (f : Core → Core) : (s.mapCore f).checkpoints = s.checkpoints := rfl
@[simp] theorem State.mapCore_saves (s : State) (f : Core → Core) : (s.mapCore f).saves = s.saves := rfl
@[simp] theorem State.mapCore_drops (s : State) (f : Core → Core) : (s.mapCore f).drops = s.drops := rfl

/-! ### State.mapDie, State.mapPart and State.mapFn -/

@[simp] theorem State.mapDie_mem (s : State) (d : Nat) (f : Die → Die) : (s.mapDie d f).mem = s.mem := rfl
@[simp] theorem State.mapDie_tiles (s : State) (d : Nat) (f : Die → Die) : (s.mapDie d f).tiles = s.tiles := rfl
@[simp] theorem State.mapDie_l2 (s : State) (d : Nat) (f : Die → Die) : (s.mapDie d f).l2 = s.l2 := rfl
@[simp] theorem State.mapDie_ecc (s : State) (d : Nat) (f : Die → Die) : (s.mapDie d f).ecc = s.ecc := rfl
@[simp] theorem State.mapDie_untrained (s : State) (d : Nat) (f : Die → Die) : (s.mapDie d f).untrained = s.untrained := rfl
@[simp] theorem State.mapDie_cores (s : State) (d : Nat) (f : Die → Die) : (s.mapDie d f).cores = s.cores := rfl
@[simp] theorem State.mapDie_fns (s : State) (d : Nat) (f : Die → Die) : (s.mapDie d f).fns = s.fns := rfl
@[simp] theorem State.mapDie_parts (s : State) (d : Nat) (f : Die → Die) : (s.mapDie d f).parts = s.parts := rfl
@[simp] theorem State.mapDie_programs (s : State) (d : Nat) (f : Die → Die) : (s.mapDie d f).programs = s.programs := rfl
@[simp] theorem State.mapDie_net (s : State) (d : Nat) (f : Die → Die) : (s.mapDie d f).net = s.net := rfl
@[simp] theorem State.mapDie_outbox (s : State) (d : Nat) (f : Die → Die) : (s.mapDie d f).outbox = s.outbox := rfl
@[simp] theorem State.mapDie_inbox (s : State) (d : Nat) (f : Die → Die) : (s.mapDie d f).inbox = s.inbox := rfl
@[simp] theorem State.mapDie_bench (s : State) (d : Nat) (f : Die → Die) : (s.mapDie d f).bench = s.bench := rfl
@[simp] theorem State.mapDie_grants (s : State) (d : Nat) (f : Die → Die) : (s.mapDie d f).grants = s.grants := rfl
@[simp] theorem State.mapDie_groups (s : State) (d : Nat) (f : Die → Die) : (s.mapDie d f).groups = s.groups := rfl
@[simp] theorem State.mapDie_nextGroup (s : State) (d : Nat) (f : Die → Die) : (s.mapDie d f).nextGroup = s.nextGroup := rfl
@[simp] theorem State.mapDie_atsInvals (s : State) (d : Nat) (f : Die → Die) : (s.mapDie d f).atsInvals = s.atsInvals := rfl
@[simp] theorem State.mapDie_hostOut (s : State) (d : Nat) (f : Die → Die) : (s.mapDie d f).hostOut = s.hostOut := rfl
@[simp] theorem State.mapDie_kiln (s : State) (d : Nat) (f : Die → Die) : (s.mapDie d f).kiln = s.kiln := rfl
@[simp] theorem State.mapDie_coords (s : State) (d : Nat) (f : Die → Die) : (s.mapDie d f).coords = s.coords := rfl
@[simp] theorem State.mapDie_torus (s : State) (d : Nat) (f : Die → Die) : (s.mapDie d f).torus = s.torus := rfl
@[simp] theorem State.mapDie_turn (s : State) (d : Nat) (f : Die → Die) : (s.mapDie d f).turn = s.turn := rfl
@[simp] theorem State.mapDie_agenda (s : State) (d : Nat) (f : Die → Die) : (s.mapDie d f).agenda = s.agenda := rfl
@[simp] theorem State.mapDie_free (s : State) (d : Nat) (f : Die → Die) : (s.mapDie d f).free = s.free := rfl
@[simp] theorem State.mapDie_nextJob (s : State) (d : Nat) (f : Die → Die) : (s.mapDie d f).nextJob = s.nextJob := rfl
@[simp] theorem State.mapDie_jobs (s : State) (d : Nat) (f : Die → Die) : (s.mapDie d f).jobs = s.jobs := rfl
@[simp] theorem State.mapDie_service (s : State) (d : Nat) (f : Die → Die) : (s.mapDie d f).service = s.service := rfl
@[simp] theorem State.mapDie_always (s : State) (d : Nat) (f : Die → Die) : (s.mapDie d f).always = s.always := rfl
@[simp] theorem State.mapDie_flash (s : State) (d : Nat) (f : Die → Die) : (s.mapDie d f).flash = s.flash := rfl
@[simp] theorem State.mapDie_checkpoints (s : State) (d : Nat) (f : Die → Die) : (s.mapDie d f).checkpoints = s.checkpoints := rfl
@[simp] theorem State.mapDie_saves (s : State) (d : Nat) (f : Die → Die) : (s.mapDie d f).saves = s.saves := rfl
@[simp] theorem State.mapDie_drops (s : State) (d : Nat) (f : Die → Die) : (s.mapDie d f).drops = s.drops := rfl

@[simp] theorem State.mapPart_mem (s : State) (p : Nat) (f : Part → Part) : (s.mapPart p f).mem = s.mem := rfl
@[simp] theorem State.mapPart_tiles (s : State) (p : Nat) (f : Part → Part) : (s.mapPart p f).tiles = s.tiles := rfl
@[simp] theorem State.mapPart_l2 (s : State) (p : Nat) (f : Part → Part) : (s.mapPart p f).l2 = s.l2 := rfl
@[simp] theorem State.mapPart_ecc (s : State) (p : Nat) (f : Part → Part) : (s.mapPart p f).ecc = s.ecc := rfl
@[simp] theorem State.mapPart_untrained (s : State) (p : Nat) (f : Part → Part) : (s.mapPart p f).untrained = s.untrained := rfl
@[simp] theorem State.mapPart_dies (s : State) (p : Nat) (f : Part → Part) : (s.mapPart p f).dies = s.dies := rfl
@[simp] theorem State.mapPart_cores (s : State) (p : Nat) (f : Part → Part) : (s.mapPart p f).cores = s.cores := rfl
@[simp] theorem State.mapPart_fns (s : State) (p : Nat) (f : Part → Part) : (s.mapPart p f).fns = s.fns := rfl
@[simp] theorem State.mapPart_programs (s : State) (p : Nat) (f : Part → Part) : (s.mapPart p f).programs = s.programs := rfl
@[simp] theorem State.mapPart_net (s : State) (p : Nat) (f : Part → Part) : (s.mapPart p f).net = s.net := rfl
@[simp] theorem State.mapPart_outbox (s : State) (p : Nat) (f : Part → Part) : (s.mapPart p f).outbox = s.outbox := rfl
@[simp] theorem State.mapPart_inbox (s : State) (p : Nat) (f : Part → Part) : (s.mapPart p f).inbox = s.inbox := rfl
@[simp] theorem State.mapPart_bench (s : State) (p : Nat) (f : Part → Part) : (s.mapPart p f).bench = s.bench := rfl
@[simp] theorem State.mapPart_grants (s : State) (p : Nat) (f : Part → Part) : (s.mapPart p f).grants = s.grants := rfl
@[simp] theorem State.mapPart_groups (s : State) (p : Nat) (f : Part → Part) : (s.mapPart p f).groups = s.groups := rfl
@[simp] theorem State.mapPart_nextGroup (s : State) (p : Nat) (f : Part → Part) : (s.mapPart p f).nextGroup = s.nextGroup := rfl
@[simp] theorem State.mapPart_atsInvals (s : State) (p : Nat) (f : Part → Part) : (s.mapPart p f).atsInvals = s.atsInvals := rfl
@[simp] theorem State.mapPart_hostOut (s : State) (p : Nat) (f : Part → Part) : (s.mapPart p f).hostOut = s.hostOut := rfl
@[simp] theorem State.mapPart_kiln (s : State) (p : Nat) (f : Part → Part) : (s.mapPart p f).kiln = s.kiln := rfl
@[simp] theorem State.mapPart_coords (s : State) (p : Nat) (f : Part → Part) : (s.mapPart p f).coords = s.coords := rfl
@[simp] theorem State.mapPart_torus (s : State) (p : Nat) (f : Part → Part) : (s.mapPart p f).torus = s.torus := rfl
@[simp] theorem State.mapPart_turn (s : State) (p : Nat) (f : Part → Part) : (s.mapPart p f).turn = s.turn := rfl
@[simp] theorem State.mapPart_agenda (s : State) (p : Nat) (f : Part → Part) : (s.mapPart p f).agenda = s.agenda := rfl
@[simp] theorem State.mapPart_free (s : State) (p : Nat) (f : Part → Part) : (s.mapPart p f).free = s.free := rfl
@[simp] theorem State.mapPart_nextJob (s : State) (p : Nat) (f : Part → Part) : (s.mapPart p f).nextJob = s.nextJob := rfl
@[simp] theorem State.mapPart_jobs (s : State) (p : Nat) (f : Part → Part) : (s.mapPart p f).jobs = s.jobs := rfl
@[simp] theorem State.mapPart_service (s : State) (p : Nat) (f : Part → Part) : (s.mapPart p f).service = s.service := rfl
@[simp] theorem State.mapPart_always (s : State) (p : Nat) (f : Part → Part) : (s.mapPart p f).always = s.always := rfl
@[simp] theorem State.mapPart_flash (s : State) (p : Nat) (f : Part → Part) : (s.mapPart p f).flash = s.flash := rfl
@[simp] theorem State.mapPart_checkpoints (s : State) (p : Nat) (f : Part → Part) : (s.mapPart p f).checkpoints = s.checkpoints := rfl
@[simp] theorem State.mapPart_saves (s : State) (p : Nat) (f : Part → Part) : (s.mapPart p f).saves = s.saves := rfl
@[simp] theorem State.mapPart_drops (s : State) (p : Nat) (f : Part → Part) : (s.mapPart p f).drops = s.drops := rfl

@[simp] theorem State.mapFn_mem (s : State) (n : Nat) (f : Fn → Fn) : (s.mapFn n f).mem = s.mem := rfl
@[simp] theorem State.mapFn_tiles (s : State) (n : Nat) (f : Fn → Fn) : (s.mapFn n f).tiles = s.tiles := rfl
@[simp] theorem State.mapFn_l2 (s : State) (n : Nat) (f : Fn → Fn) : (s.mapFn n f).l2 = s.l2 := rfl
@[simp] theorem State.mapFn_ecc (s : State) (n : Nat) (f : Fn → Fn) : (s.mapFn n f).ecc = s.ecc := rfl
@[simp] theorem State.mapFn_untrained (s : State) (n : Nat) (f : Fn → Fn) : (s.mapFn n f).untrained = s.untrained := rfl
@[simp] theorem State.mapFn_dies (s : State) (n : Nat) (f : Fn → Fn) : (s.mapFn n f).dies = s.dies := rfl
@[simp] theorem State.mapFn_cores (s : State) (n : Nat) (f : Fn → Fn) : (s.mapFn n f).cores = s.cores := rfl
@[simp] theorem State.mapFn_parts (s : State) (n : Nat) (f : Fn → Fn) : (s.mapFn n f).parts = s.parts := rfl
@[simp] theorem State.mapFn_programs (s : State) (n : Nat) (f : Fn → Fn) : (s.mapFn n f).programs = s.programs := rfl
@[simp] theorem State.mapFn_net (s : State) (n : Nat) (f : Fn → Fn) : (s.mapFn n f).net = s.net := rfl
@[simp] theorem State.mapFn_outbox (s : State) (n : Nat) (f : Fn → Fn) : (s.mapFn n f).outbox = s.outbox := rfl
@[simp] theorem State.mapFn_inbox (s : State) (n : Nat) (f : Fn → Fn) : (s.mapFn n f).inbox = s.inbox := rfl
@[simp] theorem State.mapFn_bench (s : State) (n : Nat) (f : Fn → Fn) : (s.mapFn n f).bench = s.bench := rfl
@[simp] theorem State.mapFn_grants (s : State) (n : Nat) (f : Fn → Fn) : (s.mapFn n f).grants = s.grants := rfl
@[simp] theorem State.mapFn_groups (s : State) (n : Nat) (f : Fn → Fn) : (s.mapFn n f).groups = s.groups := rfl
@[simp] theorem State.mapFn_nextGroup (s : State) (n : Nat) (f : Fn → Fn) : (s.mapFn n f).nextGroup = s.nextGroup := rfl
@[simp] theorem State.mapFn_atsInvals (s : State) (n : Nat) (f : Fn → Fn) : (s.mapFn n f).atsInvals = s.atsInvals := rfl
@[simp] theorem State.mapFn_hostOut (s : State) (n : Nat) (f : Fn → Fn) : (s.mapFn n f).hostOut = s.hostOut := rfl
@[simp] theorem State.mapFn_kiln (s : State) (n : Nat) (f : Fn → Fn) : (s.mapFn n f).kiln = s.kiln := rfl
@[simp] theorem State.mapFn_coords (s : State) (n : Nat) (f : Fn → Fn) : (s.mapFn n f).coords = s.coords := rfl
@[simp] theorem State.mapFn_torus (s : State) (n : Nat) (f : Fn → Fn) : (s.mapFn n f).torus = s.torus := rfl
@[simp] theorem State.mapFn_turn (s : State) (n : Nat) (f : Fn → Fn) : (s.mapFn n f).turn = s.turn := rfl
@[simp] theorem State.mapFn_agenda (s : State) (n : Nat) (f : Fn → Fn) : (s.mapFn n f).agenda = s.agenda := rfl
@[simp] theorem State.mapFn_free (s : State) (n : Nat) (f : Fn → Fn) : (s.mapFn n f).free = s.free := rfl
@[simp] theorem State.mapFn_nextJob (s : State) (n : Nat) (f : Fn → Fn) : (s.mapFn n f).nextJob = s.nextJob := rfl
@[simp] theorem State.mapFn_jobs (s : State) (n : Nat) (f : Fn → Fn) : (s.mapFn n f).jobs = s.jobs := rfl
@[simp] theorem State.mapFn_service (s : State) (n : Nat) (f : Fn → Fn) : (s.mapFn n f).service = s.service := rfl
@[simp] theorem State.mapFn_always (s : State) (n : Nat) (f : Fn → Fn) : (s.mapFn n f).always = s.always := rfl
@[simp] theorem State.mapFn_flash (s : State) (n : Nat) (f : Fn → Fn) : (s.mapFn n f).flash = s.flash := rfl
@[simp] theorem State.mapFn_checkpoints (s : State) (n : Nat) (f : Fn → Fn) : (s.mapFn n f).checkpoints = s.checkpoints := rfl
@[simp] theorem State.mapFn_saves (s : State) (n : Nat) (f : Fn → Fn) : (s.mapFn n f).saves = s.saves := rfl
@[simp] theorem State.mapFn_drops (s : State) (n : Nat) (f : Fn → Fn) : (s.mapFn n f).drops = s.drops := rfl

@[simp] theorem State.die_mapDie_self (s : State) (d : Nat) (f : Die → Die) (h : d < 4) :
    (s.mapDie d f).die d = f (s.die d) := by simp [State.die, State.mapDie, h]

@[simp] theorem State.part_mapPart_self (s : State) (p : Nat) (f : Part → Part) (h : p < 16) :
    (s.mapPart p f).part p = f (s.part p) := by simp [State.part, State.mapPart, h]

@[simp] theorem State.fn_mapFn_self (s : State) (n : Nat) (f : Fn → Fn) : (s.mapFn n f).fn n = f (s.fn n) := by
  simp [State.fn, State.mapFn]

/-! ### State.held and State.draw -/

@[simp] theorem State.held_mem (s : State) (st : Stream) (h : Hold) : (s.held st h).mem = s.mem := rfl
@[simp] theorem State.held_tiles (s : State) (st : Stream) (h : Hold) : (s.held st h).tiles = s.tiles := rfl
@[simp] theorem State.held_l2 (s : State) (st : Stream) (h : Hold) : (s.held st h).l2 = s.l2 := rfl
@[simp] theorem State.held_ecc (s : State) (st : Stream) (h : Hold) : (s.held st h).ecc = s.ecc := rfl
@[simp] theorem State.held_untrained (s : State) (st : Stream) (h : Hold) : (s.held st h).untrained = s.untrained := rfl
@[simp] theorem State.held_dies (s : State) (st : Stream) (h : Hold) : (s.held st h).dies = s.dies := rfl
@[simp] theorem State.held_fns (s : State) (st : Stream) (h : Hold) : (s.held st h).fns = s.fns := rfl
@[simp] theorem State.held_parts (s : State) (st : Stream) (h : Hold) : (s.held st h).parts = s.parts := rfl
@[simp] theorem State.held_programs (s : State) (st : Stream) (h : Hold) : (s.held st h).programs = s.programs := rfl
@[simp] theorem State.held_net (s : State) (st : Stream) (h : Hold) : (s.held st h).net = s.net := rfl
@[simp] theorem State.held_outbox (s : State) (st : Stream) (h : Hold) : (s.held st h).outbox = s.outbox := rfl
@[simp] theorem State.held_inbox (s : State) (st : Stream) (h : Hold) : (s.held st h).inbox = s.inbox := rfl
@[simp] theorem State.held_bench (s : State) (st : Stream) (h : Hold) : (s.held st h).bench = s.bench := rfl
@[simp] theorem State.held_grants (s : State) (st : Stream) (h : Hold) : (s.held st h).grants = s.grants := rfl
@[simp] theorem State.held_groups (s : State) (st : Stream) (h : Hold) : (s.held st h).groups = s.groups := rfl
@[simp] theorem State.held_nextGroup (s : State) (st : Stream) (h : Hold) : (s.held st h).nextGroup = s.nextGroup := rfl
@[simp] theorem State.held_atsInvals (s : State) (st : Stream) (h : Hold) : (s.held st h).atsInvals = s.atsInvals := rfl
@[simp] theorem State.held_hostOut (s : State) (st : Stream) (h : Hold) : (s.held st h).hostOut = s.hostOut := rfl
@[simp] theorem State.held_kiln (s : State) (st : Stream) (h : Hold) : (s.held st h).kiln = s.kiln := rfl
@[simp] theorem State.held_coords (s : State) (st : Stream) (h : Hold) : (s.held st h).coords = s.coords := rfl
@[simp] theorem State.held_torus (s : State) (st : Stream) (h : Hold) : (s.held st h).torus = s.torus := rfl
@[simp] theorem State.held_turn (s : State) (st : Stream) (h : Hold) : (s.held st h).turn = s.turn := rfl
@[simp] theorem State.held_agenda (s : State) (st : Stream) (h : Hold) : (s.held st h).agenda = s.agenda := rfl
@[simp] theorem State.held_free (s : State) (st : Stream) (h : Hold) : (s.held st h).free = s.free := rfl
@[simp] theorem State.held_nextJob (s : State) (st : Stream) (h : Hold) : (s.held st h).nextJob = s.nextJob := rfl
@[simp] theorem State.held_jobs (s : State) (st : Stream) (h : Hold) : (s.held st h).jobs = s.jobs := rfl
@[simp] theorem State.held_service (s : State) (st : Stream) (h : Hold) : (s.held st h).service = s.service := rfl
@[simp] theorem State.held_always (s : State) (st : Stream) (h : Hold) : (s.held st h).always = s.always := rfl
@[simp] theorem State.held_flash (s : State) (st : Stream) (h : Hold) : (s.held st h).flash = s.flash := rfl
@[simp] theorem State.held_checkpoints (s : State) (st : Stream) (h : Hold) : (s.held st h).checkpoints = s.checkpoints := rfl
@[simp] theorem State.held_saves (s : State) (st : Stream) (h : Hold) : (s.held st h).saves = s.saves := rfl
@[simp] theorem State.held_drops (s : State) (st : Stream) (h : Hold) : (s.held st h).drops = s.drops := rfl

@[simp] theorem State.draw_mem (s : State) (w : Nat) : (s.draw w).2.mem = s.mem := rfl
@[simp] theorem State.draw_tiles (s : State) (w : Nat) : (s.draw w).2.tiles = s.tiles := rfl
@[simp] theorem State.draw_l2 (s : State) (w : Nat) : (s.draw w).2.l2 = s.l2 := rfl
@[simp] theorem State.draw_ecc (s : State) (w : Nat) : (s.draw w).2.ecc = s.ecc := rfl
@[simp] theorem State.draw_untrained (s : State) (w : Nat) : (s.draw w).2.untrained = s.untrained := rfl
@[simp] theorem State.draw_dies (s : State) (w : Nat) : (s.draw w).2.dies = s.dies := rfl
@[simp] theorem State.draw_cores (s : State) (w : Nat) : (s.draw w).2.cores = s.cores := rfl
@[simp] theorem State.draw_fns (s : State) (w : Nat) : (s.draw w).2.fns = s.fns := rfl
@[simp] theorem State.draw_parts (s : State) (w : Nat) : (s.draw w).2.parts = s.parts := rfl
@[simp] theorem State.draw_programs (s : State) (w : Nat) : (s.draw w).2.programs = s.programs := rfl
@[simp] theorem State.draw_net (s : State) (w : Nat) : (s.draw w).2.net = s.net := rfl
@[simp] theorem State.draw_outbox (s : State) (w : Nat) : (s.draw w).2.outbox = s.outbox := rfl
@[simp] theorem State.draw_inbox (s : State) (w : Nat) : (s.draw w).2.inbox = s.inbox := rfl
@[simp] theorem State.draw_bench (s : State) (w : Nat) : (s.draw w).2.bench = s.bench := rfl
@[simp] theorem State.draw_grants (s : State) (w : Nat) : (s.draw w).2.grants = s.grants := rfl
@[simp] theorem State.draw_groups (s : State) (w : Nat) : (s.draw w).2.groups = s.groups := rfl
@[simp] theorem State.draw_nextGroup (s : State) (w : Nat) : (s.draw w).2.nextGroup = s.nextGroup := rfl
@[simp] theorem State.draw_atsInvals (s : State) (w : Nat) : (s.draw w).2.atsInvals = s.atsInvals := rfl
@[simp] theorem State.draw_hostOut (s : State) (w : Nat) : (s.draw w).2.hostOut = s.hostOut := rfl
@[simp] theorem State.draw_kiln (s : State) (w : Nat) : (s.draw w).2.kiln = s.kiln := rfl
@[simp] theorem State.draw_coords (s : State) (w : Nat) : (s.draw w).2.coords = s.coords := rfl
@[simp] theorem State.draw_torus (s : State) (w : Nat) : (s.draw w).2.torus = s.torus := rfl
@[simp] theorem State.draw_turn (s : State) (w : Nat) : (s.draw w).2.turn = s.turn := rfl
@[simp] theorem State.draw_agenda (s : State) (w : Nat) : (s.draw w).2.agenda = s.agenda := rfl
@[simp] theorem State.draw_nextJob (s : State) (w : Nat) : (s.draw w).2.nextJob = s.nextJob := rfl
@[simp] theorem State.draw_jobs (s : State) (w : Nat) : (s.draw w).2.jobs = s.jobs := rfl
@[simp] theorem State.draw_service (s : State) (w : Nat) : (s.draw w).2.service = s.service := rfl
@[simp] theorem State.draw_always (s : State) (w : Nat) : (s.draw w).2.always = s.always := rfl
@[simp] theorem State.draw_flash (s : State) (w : Nat) : (s.draw w).2.flash = s.flash := rfl
@[simp] theorem State.draw_checkpoints (s : State) (w : Nat) : (s.draw w).2.checkpoints = s.checkpoints := rfl
@[simp] theorem State.draw_saves (s : State) (w : Nat) : (s.draw w).2.saves = s.saves := rfl
@[simp] theorem State.draw_drops (s : State) (w : Nat) : (s.draw w).2.drops = s.drops := rfl
@[simp] theorem State.draw_free (s : State) (w : Nat) : (s.draw w).2.free = s.free + 1 := rfl

end Sys2Proof.Machine
end

