-- ==== Sys2Proof/Laws/Core.lean ====
section
/-! SUPPORT. What each update of a core leaves of its fields. -/

namespace Sys2Proof.Machine

/-! ### Core.setWide -/

@[simp] theorem Core.setWide_state (c : Core) (q : Nat) (x : WideQueue) : (c.setWide q x).state = c.state := rfl
@[simp] theorem Core.setWide_retired (c : Core) (q : Nat) (x : WideQueue) : (c.setWide q x).retired = c.retired := rfl
@[simp] theorem Core.setWide_before (c : Core) (q : Nat) (x : WideQueue) : (c.setWide q x).before = c.before := rfl
@[simp] theorem Core.setWide_again (c : Core) (q : Nat) (x : WideQueue) : (c.setWide q x).again = c.again := rfl
@[simp] theorem Core.setWide_pl (c : Core) (q : Nat) (x : WideQueue) : (c.setWide q x).pl = c.pl := rfl
@[simp] theorem Core.setWide_part (c : Core) (q : Nat) (x : WideQueue) : (c.setWide q x).part = c.part := rfl
@[simp] theorem Core.setWide_vf (c : Core) (q : Nat) (x : WideQueue) : (c.setWide q x).vf = c.vf := rfl
@[simp] theorem Core.setWide_pasid (c : Core) (q : Nat) (x : WideQueue) : (c.setWide q x).pasid = c.pasid := rfl
@[simp] theorem Core.setWide_jobPasid (c : Core) (q : Nat) (x : WideQueue) : (c.setWide q x).jobPasid = c.jobPasid := rfl
@[simp] theorem Core.setWide_g (c : Core) (q : Nat) (x : WideQueue) : (c.setWide q x).g = c.g := rfl
@[simp] theorem Core.setWide_cx (c : Core) (q : Nat) (x : WideQueue) : (c.setWide q x).cx = c.cx := rfl
@[simp] theorem Core.setWide_cm (c : Core) (q : Nat) (x : WideQueue) : (c.setWide q x).cm = c.cm := rfl
@[simp] theorem Core.setWide_cv (c : Core) (q : Nat) (x : WideQueue) : (c.setWide q x).cv = c.cv := rfl
@[simp] theorem Core.setWide_v (c : Core) (q : Nat) (x : WideQueue) : (c.setWide q x).v = c.v := rfl
@[simp] theorem Core.setWide_vshape (c : Core) (q : Nat) (x : WideQueue) : (c.setWide q x).vshape = c.vshape := rfl
@[simp] theorem Core.setWide_acc (c : Core) (q : Nat) (x : WideQueue) : (c.setWide q x).acc = c.acc := rfl
@[simp] theorem Core.setWide_td (c : Core) (q : Nat) (x : WideQueue) : (c.setWide q x).td = c.td := rfl
@[simp] theorem Core.setWide_st (c : Core) (q : Nat) (x : WideQueue) : (c.setWide q x).st = c.st := rfl
@[simp] theorem Core.setWide_mp (c : Core) (q : Nat) (x : WideQueue) : (c.setWide q x).mp = c.mp := rfl
@[simp] theorem Core.setWide_mesh (c : Core) (q : Nat) (x : WideQueue) : (c.setWide q x).mesh = c.mesh := rfl
@[simp] theorem Core.setWide_rl (c : Core) (q : Nat) (x : WideQueue) : (c.setWide q x).rl = c.rl := rfl
@[simp] theorem Core.setWide_bar (c : Core) (q : Nat) (x : WideQueue) : (c.setWide q x).bar = c.bar := rfl
@[simp] theorem Core.setWide_frit (c : Core) (q : Nat) (x : WideQueue) : (c.setWide q x).frit = c.frit := rfl
@[simp] theorem Core.setWide_marker (c : Core) (q : Nat) (x : WideQueue) : (c.setWide q x).marker = c.marker := rfl
@[simp] theorem Core.setWide_decoded (c : Core) (q : Nat) (x : WideQueue) : (c.setWide q x).decoded = c.decoded := rfl
@[simp] theorem Core.setWide_sq (c : Core) (q : Nat) (x : WideQueue) : (c.setWide q x).sq = c.sq := rfl
@[simp] theorem Core.setWide_fills (c : Core) (q : Nat) (x : WideQueue) : (c.setWide q x).fills = c.fills := rfl
@[simp] theorem Core.setWide_tok (c : Core) (q : Nat) (x : WideQueue) : (c.setWide q x).tok = c.tok := rfl
@[simp] theorem Core.setWide_pend (c : Core) (q : Nat) (x : WideQueue) : (c.setWide q x).pend = c.pend := rfl
@[simp] theorem Core.setWide_owed (c : Core) (q : Nat) (x : WideQueue) : (c.setWide q x).owed = c.owed := rfl
@[simp] theorem Core.setWide_fresh (c : Core) (q : Nat) (x : WideQueue) : (c.setWide q x).fresh = c.fresh := rfl
@[simp] theorem Core.setWide_gone (c : Core) (q : Nat) (x : WideQueue) : (c.setWide q x).gone = c.gone := rfl
@[simp] theorem Core.setWide_loops (c : Core) (q : Nat) (x : WideQueue) : (c.setWide q x).loops = c.loops := rfl
@[simp] theorem Core.setWide_pc (c : Core) (q : Nat) (x : WideQueue) : (c.setWide q x).pc = c.pc := rfl
@[simp] theorem Core.setWide_seq (c : Core) (q : Nat) (x : WideQueue) : (c.setWide q x).seq = c.seq := rfl
@[simp] theorem Core.setWide_arrived (c : Core) (q : Nat) (x : WideQueue) : (c.setWide q x).arrived = c.arrived := rfl
@[simp] theorem Core.setWide_hold (c : Core) (q : Nat) (x : WideQueue) : (c.setWide q x).hold = c.hold := rfl
@[simp] theorem Core.setWide_stopped (c : Core) (q : Nat) (x : WideQueue) : (c.setWide q x).stopped = c.stopped := rfl
@[simp] theorem Core.setWide_monitor (c : Core) (q : Nat) (x : WideQueue) : (c.setWide q x).monitor = c.monitor := rfl
@[simp] theorem Core.setWide_ports (c : Core) (q : Nat) (x : WideQueue) : (c.setWide q x).ports = c.ports := rfl
@[simp] theorem Core.setWide_logged (c : Core) (q : Nat) (x : WideQueue) : (c.setWide q x).logged = c.logged := rfl
@[simp] theorem Core.setWide_pushes (c : Core) (q : Nat) (x : WideQueue) : (c.setWide q x).pushes = c.pushes := rfl
@[simp] theorem Core.setWide_stores (c : Core) (q : Nat) (x : WideQueue) : (c.setWide q x).stores = c.stores := rfl
@[simp] theorem Core.setWide_waiting (c : Core) (q : Nat) (x : WideQueue) : (c.setWide q x).waiting = c.waiting := rfl
@[simp] theorem Core.setWide_xwait (c : Core) (q : Nat) (x : WideQueue) : (c.setWide q x).xwait = c.xwait := rfl
@[simp] theorem Core.setWide_fwait (c : Core) (q : Nat) (x : WideQueue) : (c.setWide q x).fwait = c.fwait := rfl
@[simp] theorem Core.setWide_ahead (c : Core) (q : Nat) (x : WideQueue) : (c.setWide q x).ahead = c.ahead := rfl
@[simp] theorem Core.setWide_remote (c : Core) (q : Nat) (x : WideQueue) : (c.setWide q x).remote = c.remote := rfl
@[simp] theorem Core.setWide_steps (c : Core) (q : Nat) (x : WideQueue) : (c.setWide q x).steps = c.steps := rfl
@[simp] theorem Core.setWide_xfers (c : Core) (q : Nat) (x : WideQueue) : (c.setWide q x).xfers = c.xfers := rfl
@[simp] theorem Core.setWide_blocked (c : Core) (q : Nat) (x : WideQueue) : (c.setWide q x).blocked = c.blocked := rfl
@[simp] theorem Core.setWide_lastStep (c : Core) (q : Nat) (x : WideQueue) : (c.setWide q x).lastStep = c.lastStep := rfl
@[simp] theorem Core.setWide_tref (c : Core) (q : Nat) (x : WideQueue) : (c.setWide q x).tref = c.tref := rfl
@[simp] theorem Core.setWide_tvalid (c : Core) (q : Nat) (x : WideQueue) : (c.setWide q x).tvalid = c.tvalid := rfl
@[simp] theorem Core.setWide_wreq (c : Core) (q : Nat) (x : WideQueue) : (c.setWide q x).wreq = c.wreq := rfl
@[simp] theorem Core.setWide_stall (c : Core) (q : Nat) (x : WideQueue) : (c.setWide q x).stall = c.stall := rfl
@[simp] theorem Core.setWide_wrapped (c : Core) (q : Nat) (x : WideQueue) : (c.setWide q x).wrapped = c.wrapped := rfl
@[simp] theorem Core.setWide_pending (c : Core) (q : Nat) (x : WideQueue) : (c.setWide q x).pending = c.pending := rfl
@[simp] theorem Core.setWide_cut (c : Core) (q : Nat) (x : WideQueue) : (c.setWide q x).cut = c.cut := rfl
@[simp] theorem Core.setWide_abandon (c : Core) (q : Nat) (x : WideQueue) : (c.setWide q x).abandon = c.abandon := rfl
@[simp] theorem Core.setWide_wsel (c : Core) (q : Nat) (x : WideQueue) : (c.setWide q x).wsel = c.wsel := rfl
@[simp] theorem Core.setWide_tr1 (c : Core) (q : Nat) (x : WideQueue) : (c.setWide q x).tr1 = c.tr1 := rfl
@[simp] theorem Core.setWide_tr2 (c : Core) (q : Nat) (x : WideQueue) : (c.setWide q x).tr2 = c.tr2 := rfl
@[simp] theorem Core.setWide_tepc2 (c : Core) (q : Nat) (x : WideQueue) : (c.setWide q x).tepc2 = c.tepc2 := rfl
@[simp] theorem Core.setWide_missKiln (c : Core) (q : Nat) (x : WideQueue) : (c.setWide q x).missKiln = c.missKiln := rfl
@[simp] theorem Core.setWide_fsyn1 (c : Core) (q : Nat) (x : WideQueue) : (c.setWide q x).fsyn1 = c.fsyn1 := rfl
@[simp] theorem Core.setWide_fva1 (c : Core) (q : Nat) (x : WideQueue) : (c.setWide q x).fva1 = c.fva1 := rfl
@[simp] theorem Core.setWide_fsyn2 (c : Core) (q : Nat) (x : WideQueue) : (c.setWide q x).fsyn2 = c.fsyn2 := rfl
@[simp] theorem Core.setWide_fva2 (c : Core) (q : Nat) (x : WideQueue) : (c.setWide q x).fva2 = c.fva2 := rfl
@[simp] theorem Core.setWide_fipa2 (c : Core) (q : Nat) (x : WideQueue) : (c.setWide q x).fipa2 = c.fipa2 := rfl
@[simp] theorem Core.setWide_records (c : Core) (q : Nat) (x : WideQueue) : (c.setWide q x).records = c.records := rfl
@[simp] theorem Core.setWide_recOvf (c : Core) (q : Nat) (x : WideQueue) : (c.setWide q x).recOvf = c.recOvf := rfl
@[simp] theorem Core.setWide_flips (c : Core) (q : Nat) (x : WideQueue) : (c.setWide q x).flips = c.flips := rfl
@[simp] theorem Core.setWide_pfdrop (c : Core) (q : Nat) (x : WideQueue) : (c.setWide q x).pfdrop = c.pfdrop := rfl
@[simp] theorem Core.setWide_icache (c : Core) (q : Nat) (x : WideQueue) : (c.setWide q x).icache = c.icache := rfl
@[simp] theorem Core.setWide_l1 (c : Core) (q : Nat) (x : WideQueue) : (c.setWide q x).l1 = c.l1 := rfl
@[simp] theorem Core.setWide_tlb (c : Core) (q : Nat) (x : WideQueue) : (c.setWide q x).tlb = c.tlb := rfl
@[simp] theorem Core.setWide_xtlb (c : Core) (q : Nat) (x : WideQueue) : (c.setWide q x).xtlb = c.xtlb := rfl
@[simp] theorem Core.setWide_seed (c : Core) (q : Nat) (x : WideQueue) : (c.setWide q x).seed = c.seed := rfl
@[simp] theorem Core.setWide_known (c : Core) (q : Nat) (x : WideQueue) : (c.setWide q x).known = c.known := rfl
@[simp] theorem Core.setWide_job (c : Core) (q : Nat) (x : WideQueue) : (c.setWide q x).job = c.job := rfl
@[simp] theorem Core.setWide_xasked (c : Core) (q : Nat) (x : WideQueue) : (c.setWide q x).xasked = c.xasked := rfl
@[simp] theorem Core.setWide_invals (c : Core) (q : Nat) (x : WideQueue) : (c.setWide q x).invals = c.invals := rfl
@[simp] theorem Core.setWide_synced (c : Core) (q : Nat) (x : WideQueue) : (c.setWide q x).synced = c.synced := rfl
@[simp] theorem Core.setWide_index (c : Core) (q : Nat) (x : WideQueue) : (c.setWide q x).index = c.index := rfl
@[simp] theorem Core.setWide_spres (c : Core) (q : Nat) (x : WideQueue) : (c.setWide q x).spres = c.spres := rfl
@[simp] theorem Core.setWide_timed (c : Core) (q : Nat) (x : WideQueue) : (c.setWide q x).timed = c.timed := rfl
@[simp] theorem Core.setWide_products (c : Core) (q : Nat) (x : WideQueue) : (c.setWide q x).products = c.products := rfl
@[simp] theorem Core.setWide_boundary (c : Core) (q : Nat) (x : WideQueue) : (c.setWide q x).boundary = c.boundary := rfl

/-! ### Core.setScalar -/

@[simp] theorem Core.setScalar_state (c : Core) (q : Nat) (x : ScalarQueue) : (c.setScalar q x).state = c.state := rfl
@[simp] theorem Core.setScalar_retired (c : Core) (q : Nat) (x : ScalarQueue) : (c.setScalar q x).retired = c.retired := rfl
@[simp] theorem Core.setScalar_before (c : Core) (q : Nat) (x : ScalarQueue) : (c.setScalar q x).before = c.before := rfl
@[simp] theorem Core.setScalar_again (c : Core) (q : Nat) (x : ScalarQueue) : (c.setScalar q x).again = c.again := rfl
@[simp] theorem Core.setScalar_pl (c : Core) (q : Nat) (x : ScalarQueue) : (c.setScalar q x).pl = c.pl := rfl
@[simp] theorem Core.setScalar_part (c : Core) (q : Nat) (x : ScalarQueue) : (c.setScalar q x).part = c.part := rfl
@[simp] theorem Core.setScalar_vf (c : Core) (q : Nat) (x : ScalarQueue) : (c.setScalar q x).vf = c.vf := rfl
@[simp] theorem Core.setScalar_pasid (c : Core) (q : Nat) (x : ScalarQueue) : (c.setScalar q x).pasid = c.pasid := rfl
@[simp] theorem Core.setScalar_jobPasid (c : Core) (q : Nat) (x : ScalarQueue) : (c.setScalar q x).jobPasid = c.jobPasid := rfl
@[simp] theorem Core.setScalar_g (c : Core) (q : Nat) (x : ScalarQueue) : (c.setScalar q x).g = c.g := rfl
@[simp] theorem Core.setScalar_cx (c : Core) (q : Nat) (x : ScalarQueue) : (c.setScalar q x).cx = c.cx := rfl
@[simp] theorem Core.setScalar_cm (c : Core) (q : Nat) (x : ScalarQueue) : (c.setScalar q x).cm = c.cm := rfl
@[simp] theorem Core.setScalar_cv (c : Core) (q : Nat) (x : ScalarQueue) : (c.setScalar q x).cv = c.cv := rfl
@[simp] theorem Core.setScalar_v (c : Core) (q : Nat) (x : ScalarQueue) : (c.setScalar q x).v = c.v := rfl
@[simp] theorem Core.setScalar_vshape (c : Core) (q : Nat) (x : ScalarQueue) : (c.setScalar q x).vshape = c.vshape := rfl
@[simp] theorem Core.setScalar_acc (c : Core) (q : Nat) (x : ScalarQueue) : (c.setScalar q x).acc = c.acc := rfl
@[simp] theorem Core.setScalar_td (c : Core) (q : Nat) (x : ScalarQueue) : (c.setScalar q x).td = c.td := rfl
@[simp] theorem Core.setScalar_st (c : Core) (q : Nat) (x : ScalarQueue) : (c.setScalar q x).st = c.st := rfl
@[simp] theorem Core.setScalar_mp (c : Core) (q : Nat) (x : ScalarQueue) : (c.setScalar q x).mp = c.mp := rfl
@[simp] theorem Core.setScalar_mesh (c : Core) (q : Nat) (x : ScalarQueue) : (c.setScalar q x).mesh = c.mesh := rfl
@[simp] theorem Core.setScalar_rl (c : Core) (q : Nat) (x : ScalarQueue) : (c.setScalar q x).rl = c.rl := rfl
@[simp] theorem Core.setScalar_bar (c : Core) (q : Nat) (x : ScalarQueue) : (c.setScalar q x).bar = c.bar := rfl
@[simp] theorem Core.setScalar_frit (c : Core) (q : Nat) (x : ScalarQueue) : (c.setScalar q x).frit = c.frit := rfl
@[simp] theorem Core.setScalar_marker (c : Core) (q : Nat) (x : ScalarQueue) : (c.setScalar q x).marker = c.marker := rfl
@[simp] theorem Core.setScalar_decoded (c : Core) (q : Nat) (x : ScalarQueue) : (c.setScalar q x).decoded = c.decoded := rfl
@[simp] theorem Core.setScalar_wq (c : Core) (q : Nat) (x : ScalarQueue) : (c.setScalar q x).wq = c.wq := rfl
@[simp] theorem Core.setScalar_fills (c : Core) (q : Nat) (x : ScalarQueue) : (c.setScalar q x).fills = c.fills := rfl
@[simp] theorem Core.setScalar_tok (c : Core) (q : Nat) (x : ScalarQueue) : (c.setScalar q x).tok = c.tok := rfl
@[simp] theorem Core.setScalar_pend (c : Core) (q : Nat) (x : ScalarQueue) : (c.setScalar q x).pend = c.pend := rfl
@[simp] theorem Core.setScalar_owed (c : Core) (q : Nat) (x : ScalarQueue) : (c.setScalar q x).owed = c.owed := rfl
@[simp] theorem Core.setScalar_fresh (c : Core) (q : Nat) (x : ScalarQueue) : (c.setScalar q x).fresh = c.fresh := rfl
@[simp] theorem Core.setScalar_gone (c : Core) (q : Nat) (x : ScalarQueue) : (c.setScalar q x).gone = c.gone := rfl
@[simp] theorem Core.setScalar_loops (c : Core) (q : Nat) (x : ScalarQueue) : (c.setScalar q x).loops = c.loops := rfl
@[simp] theorem Core.setScalar_pc (c : Core) (q : Nat) (x : ScalarQueue) : (c.setScalar q x).pc = c.pc := rfl
@[simp] theorem Core.setScalar_seq (c : Core) (q : Nat) (x : ScalarQueue) : (c.setScalar q x).seq = c.seq := rfl
@[simp] theorem Core.setScalar_arrived (c : Core) (q : Nat) (x : ScalarQueue) : (c.setScalar q x).arrived = c.arrived := rfl
@[simp] theorem Core.setScalar_hold (c : Core) (q : Nat) (x : ScalarQueue) : (c.setScalar q x).hold = c.hold := rfl
@[simp] theorem Core.setScalar_stopped (c : Core) (q : Nat) (x : ScalarQueue) : (c.setScalar q x).stopped = c.stopped := rfl
@[simp] theorem Core.setScalar_monitor (c : Core) (q : Nat) (x : ScalarQueue) : (c.setScalar q x).monitor = c.monitor := rfl
@[simp] theorem Core.setScalar_ports (c : Core) (q : Nat) (x : ScalarQueue) : (c.setScalar q x).ports = c.ports := rfl
@[simp] theorem Core.setScalar_logged (c : Core) (q : Nat) (x : ScalarQueue) : (c.setScalar q x).logged = c.logged := rfl
@[simp] theorem Core.setScalar_pushes (c : Core) (q : Nat) (x : ScalarQueue) : (c.setScalar q x).pushes = c.pushes := rfl
@[simp] theorem Core.setScalar_stores (c : Core) (q : Nat) (x : ScalarQueue) : (c.setScalar q x).stores = c.stores := rfl
@[simp] theorem Core.setScalar_waiting (c : Core) (q : Nat) (x : ScalarQueue) : (c.setScalar q x).waiting = c.waiting := rfl
@[simp] theorem Core.setScalar_xwait (c : Core) (q : Nat) (x : ScalarQueue) : (c.setScalar q x).xwait = c.xwait := rfl
@[simp] theorem Core.setScalar_fwait (c : Core) (q : Nat) (x : ScalarQueue) : (c.setScalar q x).fwait = c.fwait := rfl
@[simp] theorem Core.setScalar_ahead (c : Core) (q : Nat) (x : ScalarQueue) : (c.setScalar q x).ahead = c.ahead := rfl
@[simp] theorem Core.setScalar_remote (c : Core) (q : Nat) (x : ScalarQueue) : (c.setScalar q x).remote = c.remote := rfl
@[simp] theorem Core.setScalar_steps (c : Core) (q : Nat) (x : ScalarQueue) : (c.setScalar q x).steps = c.steps := rfl
@[simp] theorem Core.setScalar_xfers (c : Core) (q : Nat) (x : ScalarQueue) : (c.setScalar q x).xfers = c.xfers := rfl
@[simp] theorem Core.setScalar_blocked (c : Core) (q : Nat) (x : ScalarQueue) : (c.setScalar q x).blocked = c.blocked := rfl
@[simp] theorem Core.setScalar_lastStep (c : Core) (q : Nat) (x : ScalarQueue) : (c.setScalar q x).lastStep = c.lastStep := rfl
@[simp] theorem Core.setScalar_tref (c : Core) (q : Nat) (x : ScalarQueue) : (c.setScalar q x).tref = c.tref := rfl
@[simp] theorem Core.setScalar_tvalid (c : Core) (q : Nat) (x : ScalarQueue) : (c.setScalar q x).tvalid = c.tvalid := rfl
@[simp] theorem Core.setScalar_wreq (c : Core) (q : Nat) (x : ScalarQueue) : (c.setScalar q x).wreq = c.wreq := rfl
@[simp] theorem Core.setScalar_stall (c : Core) (q : Nat) (x : ScalarQueue) : (c.setScalar q x).stall = c.stall := rfl
@[simp] theorem Core.setScalar_wrapped (c : Core) (q : Nat) (x : ScalarQueue) : (c.setScalar q x).wrapped = c.wrapped := rfl
@[simp] theorem Core.setScalar_pending (c : Core) (q : Nat) (x : ScalarQueue) : (c.setScalar q x).pending = c.pending := rfl
@[simp] theorem Core.setScalar_cut (c : Core) (q : Nat) (x : ScalarQueue) : (c.setScalar q x).cut = c.cut := rfl
@[simp] theorem Core.setScalar_abandon (c : Core) (q : Nat) (x : ScalarQueue) : (c.setScalar q x).abandon = c.abandon := rfl
@[simp] theorem Core.setScalar_wsel (c : Core) (q : Nat) (x : ScalarQueue) : (c.setScalar q x).wsel = c.wsel := rfl
@[simp] theorem Core.setScalar_tr1 (c : Core) (q : Nat) (x : ScalarQueue) : (c.setScalar q x).tr1 = c.tr1 := rfl
@[simp] theorem Core.setScalar_tr2 (c : Core) (q : Nat) (x : ScalarQueue) : (c.setScalar q x).tr2 = c.tr2 := rfl
@[simp] theorem Core.setScalar_tepc2 (c : Core) (q : Nat) (x : ScalarQueue) : (c.setScalar q x).tepc2 = c.tepc2 := rfl
@[simp] theorem Core.setScalar_missKiln (c : Core) (q : Nat) (x : ScalarQueue) : (c.setScalar q x).missKiln = c.missKiln := rfl
@[simp] theorem Core.setScalar_fsyn1 (c : Core) (q : Nat) (x : ScalarQueue) : (c.setScalar q x).fsyn1 = c.fsyn1 := rfl
@[simp] theorem Core.setScalar_fva1 (c : Core) (q : Nat) (x : ScalarQueue) : (c.setScalar q x).fva1 = c.fva1 := rfl
@[simp] theorem Core.setScalar_fsyn2 (c : Core) (q : Nat) (x : ScalarQueue) : (c.setScalar q x).fsyn2 = c.fsyn2 := rfl
@[simp] theorem Core.setScalar_fva2 (c : Core) (q : Nat) (x : ScalarQueue) : (c.setScalar q x).fva2 = c.fva2 := rfl
@[simp] theorem Core.setScalar_fipa2 (c : Core) (q : Nat) (x : ScalarQueue) : (c.setScalar q x).fipa2 = c.fipa2 := rfl
@[simp] theorem Core.setScalar_records (c : Core) (q : Nat) (x : ScalarQueue) : (c.setScalar q x).records = c.records := rfl
@[simp] theorem Core.setScalar_recOvf (c : Core) (q : Nat) (x : ScalarQueue) : (c.setScalar q x).recOvf = c.recOvf := rfl
@[simp] theorem Core.setScalar_flips (c : Core) (q : Nat) (x : ScalarQueue) : (c.setScalar q x).flips = c.flips := rfl
@[simp] theorem Core.setScalar_pfdrop (c : Core) (q : Nat) (x : ScalarQueue) : (c.setScalar q x).pfdrop = c.pfdrop := rfl
@[simp] theorem Core.setScalar_icache (c : Core) (q : Nat) (x : ScalarQueue) : (c.setScalar q x).icache = c.icache := rfl
@[simp] theorem Core.setScalar_l1 (c : Core) (q : Nat) (x : ScalarQueue) : (c.setScalar q x).l1 = c.l1 := rfl
@[simp] theorem Core.setScalar_tlb (c : Core) (q : Nat) (x : ScalarQueue) : (c.setScalar q x).tlb = c.tlb := rfl
@[simp] theorem Core.setScalar_xtlb (c : Core) (q : Nat) (x : ScalarQueue) : (c.setScalar q x).xtlb = c.xtlb := rfl
@[simp] theorem Core.setScalar_seed (c : Core) (q : Nat) (x : ScalarQueue) : (c.setScalar q x).seed = c.seed := rfl
@[simp] theorem Core.setScalar_known (c : Core) (q : Nat) (x : ScalarQueue) : (c.setScalar q x).known = c.known := rfl
@[simp] theorem Core.setScalar_job (c : Core) (q : Nat) (x : ScalarQueue) : (c.setScalar q x).job = c.job := rfl
@[simp] theorem Core.setScalar_xasked (c : Core) (q : Nat) (x : ScalarQueue) : (c.setScalar q x).xasked = c.xasked := rfl
@[simp] theorem Core.setScalar_invals (c : Core) (q : Nat) (x : ScalarQueue) : (c.setScalar q x).invals = c.invals := rfl
@[simp] theorem Core.setScalar_synced (c : Core) (q : Nat) (x : ScalarQueue) : (c.setScalar q x).synced = c.synced := rfl
@[simp] theorem Core.setScalar_index (c : Core) (q : Nat) (x : ScalarQueue) : (c.setScalar q x).index = c.index := rfl
@[simp] theorem Core.setScalar_spres (c : Core) (q : Nat) (x : ScalarQueue) : (c.setScalar q x).spres = c.spres := rfl
@[simp] theorem Core.setScalar_timed (c : Core) (q : Nat) (x : ScalarQueue) : (c.setScalar q x).timed = c.timed := rfl
@[simp] theorem Core.setScalar_products (c : Core) (q : Nat) (x : ScalarQueue) : (c.setScalar q x).products = c.products := rfl
@[simp] theorem Core.setScalar_boundary (c : Core) (q : Nat) (x : ScalarQueue) : (c.setScalar q x).boundary = c.boundary := rfl

/-! ### Core.setDesc -/

@[simp] theorem Core.setDesc_state (c : Core) (r : Nat) (d : Desc) : (c.setDesc r d).state = c.state := rfl
@[simp] theorem Core.setDesc_retired (c : Core) (r : Nat) (d : Desc) : (c.setDesc r d).retired = c.retired := rfl
@[simp] theorem Core.setDesc_before (c : Core) (r : Nat) (d : Desc) : (c.setDesc r d).before = c.before := rfl
@[simp] theorem Core.setDesc_again (c : Core) (r : Nat) (d : Desc) : (c.setDesc r d).again = c.again := rfl
@[simp] theorem Core.setDesc_pl (c : Core) (r : Nat) (d : Desc) : (c.setDesc r d).pl = c.pl := rfl
@[simp] theorem Core.setDesc_part (c : Core) (r : Nat) (d : Desc) : (c.setDesc r d).part = c.part := rfl
@[simp] theorem Core.setDesc_vf (c : Core) (r : Nat) (d : Desc) : (c.setDesc r d).vf = c.vf := rfl
@[simp] theorem Core.setDesc_pasid (c : Core) (r : Nat) (d : Desc) : (c.setDesc r d).pasid = c.pasid := rfl
@[simp] theorem Core.setDesc_jobPasid (c : Core) (r : Nat) (d : Desc) : (c.setDesc r d).jobPasid = c.jobPasid := rfl
@[simp] theorem Core.setDesc_g (c : Core) (r : Nat) (d : Desc) : (c.setDesc r d).g = c.g := rfl
@[simp] theorem Core.setDesc_cx (c : Core) (r : Nat) (d : Desc) : (c.setDesc r d).cx = c.cx := rfl
@[simp] theorem Core.setDesc_cm (c : Core) (r : Nat) (d : Desc) : (c.setDesc r d).cm = c.cm := rfl
@[simp] theorem Core.setDesc_cv (c : Core) (r : Nat) (d : Desc) : (c.setDesc r d).cv = c.cv := rfl
@[simp] theorem Core.setDesc_v (c : Core) (r : Nat) (d : Desc) : (c.setDesc r d).v = c.v := rfl
@[simp] theorem Core.setDesc_vshape (c : Core) (r : Nat) (d : Desc) : (c.setDesc r d).vshape = c.vshape := rfl
@[simp] theorem Core.setDesc_acc (c : Core) (r : Nat) (d : Desc) : (c.setDesc r d).acc = c.acc := rfl
@[simp] theorem Core.setDesc_td (c : Core) (r : Nat) (d : Desc) : (c.setDesc r d).td = c.td := rfl
@[simp] theorem Core.setDesc_mp (c : Core) (r : Nat) (d : Desc) : (c.setDesc r d).mp = c.mp := rfl
@[simp] theorem Core.setDesc_mesh (c : Core) (r : Nat) (d : Desc) : (c.setDesc r d).mesh = c.mesh := rfl
@[simp] theorem Core.setDesc_rl (c : Core) (r : Nat) (d : Desc) : (c.setDesc r d).rl = c.rl := rfl
@[simp] theorem Core.setDesc_bar (c : Core) (r : Nat) (d : Desc) : (c.setDesc r d).bar = c.bar := rfl
@[simp] theorem Core.setDesc_frit (c : Core) (r : Nat) (d : Desc) : (c.setDesc r d).frit = c.frit := rfl
@[simp] theorem Core.setDesc_marker (c : Core) (r : Nat) (d : Desc) : (c.setDesc r d).marker = c.marker := rfl
@[simp] theorem Core.setDesc_decoded (c : Core) (r : Nat) (d : Desc) : (c.setDesc r d).decoded = c.decoded := rfl
@[simp] theorem Core.setDesc_wq (c : Core) (r : Nat) (d : Desc) : (c.setDesc r d).wq = c.wq := rfl
@[simp] theorem Core.setDesc_sq (c : Core) (r : Nat) (d : Desc) : (c.setDesc r d).sq = c.sq := rfl
@[simp] theorem Core.setDesc_fills (c : Core) (r : Nat) (d : Desc) : (c.setDesc r d).fills = c.fills := rfl
@[simp] theorem Core.setDesc_tok (c : Core) (r : Nat) (d : Desc) : (c.setDesc r d).tok = c.tok := rfl
@[simp] theorem Core.setDesc_pend (c : Core) (r : Nat) (d : Desc) : (c.setDesc r d).pend = c.pend := rfl
@[simp] theorem Core.setDesc_owed (c : Core) (r : Nat) (d : Desc) : (c.setDesc r d).owed = c.owed := rfl
@[simp] theorem Core.setDesc_fresh (c : Core) (r : Nat) (d : Desc) : (c.setDesc r d).fresh = c.fresh := rfl
@[simp] theorem Core.setDesc_gone (c : Core) (r : Nat) (d : Desc) : (c.setDesc r d).gone = c.gone := rfl
@[simp] theorem Core.setDesc_loops (c : Core) (r : Nat) (d : Desc) : (c.setDesc r d).loops = c.loops := rfl
@[simp] theorem Core.setDesc_pc (c : Core) (r : Nat) (d : Desc) : (c.setDesc r d).pc = c.pc := rfl
@[simp] theorem Core.setDesc_seq (c : Core) (r : Nat) (d : Desc) : (c.setDesc r d).seq = c.seq := rfl
@[simp] theorem Core.setDesc_arrived (c : Core) (r : Nat) (d : Desc) : (c.setDesc r d).arrived = c.arrived := rfl
@[simp] theorem Core.setDesc_hold (c : Core) (r : Nat) (d : Desc) : (c.setDesc r d).hold = c.hold := rfl
@[simp] theorem Core.setDesc_stopped (c : Core) (r : Nat) (d : Desc) : (c.setDesc r d).stopped = c.stopped := rfl
@[simp] theorem Core.setDesc_monitor (c : Core) (r : Nat) (d : Desc) : (c.setDesc r d).monitor = c.monitor := rfl
@[simp] theorem Core.setDesc_ports (c : Core) (r : Nat) (d : Desc) : (c.setDesc r d).ports = c.ports := rfl
@[simp] theorem Core.setDesc_logged (c : Core) (r : Nat) (d : Desc) : (c.setDesc r d).logged = c.logged := rfl
@[simp] theorem Core.setDesc_pushes (c : Core) (r : Nat) (d : Desc) : (c.setDesc r d).pushes = c.pushes := rfl
@[simp] theorem Core.setDesc_stores (c : Core) (r : Nat) (d : Desc) : (c.setDesc r d).stores = c.stores := rfl
@[simp] theorem Core.setDesc_waiting (c : Core) (r : Nat) (d : Desc) : (c.setDesc r d).waiting = c.waiting := rfl
@[simp] theorem Core.setDesc_xwait (c : Core) (r : Nat) (d : Desc) : (c.setDesc r d).xwait = c.xwait := rfl
@[simp] theorem Core.setDesc_fwait (c : Core) (r : Nat) (d : Desc) : (c.setDesc r d).fwait = c.fwait := rfl
@[simp] theorem Core.setDesc_ahead (c : Core) (r : Nat) (d : Desc) : (c.setDesc r d).ahead = c.ahead := rfl
@[simp] theorem Core.setDesc_remote (c : Core) (r : Nat) (d : Desc) : (c.setDesc r d).remote = c.remote := rfl
@[simp] theorem Core.setDesc_steps (c : Core) (r : Nat) (d : Desc) : (c.setDesc r d).steps = c.steps := rfl
@[simp] theorem Core.setDesc_xfers (c : Core) (r : Nat) (d : Desc) : (c.setDesc r d).xfers = c.xfers := rfl
@[simp] theorem Core.setDesc_blocked (c : Core) (r : Nat) (d : Desc) : (c.setDesc r d).blocked = c.blocked := rfl
@[simp] theorem Core.setDesc_lastStep (c : Core) (r : Nat) (d : Desc) : (c.setDesc r d).lastStep = c.lastStep := rfl
@[simp] theorem Core.setDesc_tref (c : Core) (r : Nat) (d : Desc) : (c.setDesc r d).tref = c.tref := rfl
@[simp] theorem Core.setDesc_tvalid (c : Core) (r : Nat) (d : Desc) : (c.setDesc r d).tvalid = c.tvalid := rfl
@[simp] theorem Core.setDesc_wreq (c : Core) (r : Nat) (d : Desc) : (c.setDesc r d).wreq = c.wreq := rfl
@[simp] theorem Core.setDesc_stall (c : Core) (r : Nat) (d : Desc) : (c.setDesc r d).stall = c.stall := rfl
@[simp] theorem Core.setDesc_wrapped (c : Core) (r : Nat) (d : Desc) : (c.setDesc r d).wrapped = c.wrapped := rfl
@[simp] theorem Core.setDesc_pending (c : Core) (r : Nat) (d : Desc) : (c.setDesc r d).pending = c.pending := rfl
@[simp] theorem Core.setDesc_cut (c : Core) (r : Nat) (d : Desc) : (c.setDesc r d).cut = c.cut := rfl
@[simp] theorem Core.setDesc_abandon (c : Core) (r : Nat) (d : Desc) : (c.setDesc r d).abandon = c.abandon := rfl
@[simp] theorem Core.setDesc_wsel (c : Core) (r : Nat) (d : Desc) : (c.setDesc r d).wsel = c.wsel := rfl
@[simp] theorem Core.setDesc_tr1 (c : Core) (r : Nat) (d : Desc) : (c.setDesc r d).tr1 = c.tr1 := rfl
@[simp] theorem Core.setDesc_tr2 (c : Core) (r : Nat) (d : Desc) : (c.setDesc r d).tr2 = c.tr2 := rfl
@[simp] theorem Core.setDesc_tepc2 (c : Core) (r : Nat) (d : Desc) : (c.setDesc r d).tepc2 = c.tepc2 := rfl
@[simp] theorem Core.setDesc_missKiln (c : Core) (r : Nat) (d : Desc) : (c.setDesc r d).missKiln = c.missKiln := rfl
@[simp] theorem Core.setDesc_fsyn1 (c : Core) (r : Nat) (d : Desc) : (c.setDesc r d).fsyn1 = c.fsyn1 := rfl
@[simp] theorem Core.setDesc_fva1 (c : Core) (r : Nat) (d : Desc) : (c.setDesc r d).fva1 = c.fva1 := rfl
@[simp] theorem Core.setDesc_fsyn2 (c : Core) (r : Nat) (d : Desc) : (c.setDesc r d).fsyn2 = c.fsyn2 := rfl
@[simp] theorem Core.setDesc_fva2 (c : Core) (r : Nat) (d : Desc) : (c.setDesc r d).fva2 = c.fva2 := rfl
@[simp] theorem Core.setDesc_fipa2 (c : Core) (r : Nat) (d : Desc) : (c.setDesc r d).fipa2 = c.fipa2 := rfl
@[simp] theorem Core.setDesc_records (c : Core) (r : Nat) (d : Desc) : (c.setDesc r d).records = c.records := rfl
@[simp] theorem Core.setDesc_recOvf (c : Core) (r : Nat) (d : Desc) : (c.setDesc r d).recOvf = c.recOvf := rfl
@[simp] theorem Core.setDesc_flips (c : Core) (r : Nat) (d : Desc) : (c.setDesc r d).flips = c.flips := rfl
@[simp] theorem Core.setDesc_pfdrop (c : Core) (r : Nat) (d : Desc) : (c.setDesc r d).pfdrop = c.pfdrop := rfl
@[simp] theorem Core.setDesc_icache (c : Core) (r : Nat) (d : Desc) : (c.setDesc r d).icache = c.icache := rfl
@[simp] theorem Core.setDesc_l1 (c : Core) (r : Nat) (d : Desc) : (c.setDesc r d).l1 = c.l1 := rfl
@[simp] theorem Core.setDesc_tlb (c : Core) (r : Nat) (d : Desc) : (c.setDesc r d).tlb = c.tlb := rfl
@[simp] theorem Core.setDesc_xtlb (c : Core) (r : Nat) (d : Desc) : (c.setDesc r d).xtlb = c.xtlb := rfl
@[simp] theorem Core.setDesc_seed (c : Core) (r : Nat) (d : Desc) : (c.setDesc r d).seed = c.seed := rfl
@[simp] theorem Core.setDesc_known (c : Core) (r : Nat) (d : Desc) : (c.setDesc r d).known = c.known := rfl
@[simp] theorem Core.setDesc_job (c : Core) (r : Nat) (d : Desc) : (c.setDesc r d).job = c.job := rfl
@[simp] theorem Core.setDesc_xasked (c : Core) (r : Nat) (d : Desc) : (c.setDesc r d).xasked = c.xasked := rfl
@[simp] theorem Core.setDesc_invals (c : Core) (r : Nat) (d : Desc) : (c.setDesc r d).invals = c.invals := rfl
@[simp] theorem Core.setDesc_synced (c : Core) (r : Nat) (d : Desc) : (c.setDesc r d).synced = c.synced := rfl
@[simp] theorem Core.setDesc_index (c : Core) (r : Nat) (d : Desc) : (c.setDesc r d).index = c.index := rfl
@[simp] theorem Core.setDesc_spres (c : Core) (r : Nat) (d : Desc) : (c.setDesc r d).spres = c.spres := rfl
@[simp] theorem Core.setDesc_timed (c : Core) (r : Nat) (d : Desc) : (c.setDesc r d).timed = c.timed := rfl
@[simp] theorem Core.setDesc_products (c : Core) (r : Nat) (d : Desc) : (c.setDesc r d).products = c.products := rfl
@[simp] theorem Core.setDesc_boundary (c : Core) (r : Nat) (d : Desc) : (c.setDesc r d).boundary = c.boundary := rfl

/-! ### Core.setLoop -/

@[simp] theorem Core.setLoop_state (c : Core) (st : Stream) (l : LoopStack) : (c.setLoop st l).state = c.state := rfl
@[simp] theorem Core.setLoop_retired (c : Core) (st : Stream) (l : LoopStack) : (c.setLoop st l).retired = c.retired := rfl
@[simp] theorem Core.setLoop_before (c : Core) (st : Stream) (l : LoopStack) : (c.setLoop st l).before = c.before := rfl
@[simp] theorem Core.setLoop_again (c : Core) (st : Stream) (l : LoopStack) : (c.setLoop st l).again = c.again := rfl
@[simp] theorem Core.setLoop_pl (c : Core) (st : Stream) (l : LoopStack) : (c.setLoop st l).pl = c.pl := rfl
@[simp] theorem Core.setLoop_part (c : Core) (st : Stream) (l : LoopStack) : (c.setLoop st l).part = c.part := rfl
@[simp] theorem Core.setLoop_vf (c : Core) (st : Stream) (l : LoopStack) : (c.setLoop st l).vf = c.vf := rfl
@[simp] theorem Core.setLoop_pasid (c : Core) (st : Stream) (l : LoopStack) : (c.setLoop st l).pasid = c.pasid := rfl
@[simp] theorem Core.setLoop_jobPasid (c : Core) (st : Stream) (l : LoopStack) : (c.setLoop st l).jobPasid = c.jobPasid := rfl
@[simp] theorem Core.setLoop_g (c : Core) (st : Stream) (l : LoopStack) : (c.setLoop st l).g = c.g := rfl
@[simp] theorem Core.setLoop_cx (c : Core) (st : Stream) (l : LoopStack) : (c.setLoop st l).cx = c.cx := rfl
@[simp] theorem Core.setLoop_cm (c : Core) (st : Stream) (l : LoopStack) : (c.setLoop st l).cm = c.cm := rfl
@[simp] theorem Core.setLoop_cv (c : Core) (st : Stream) (l : LoopStack) : (c.setLoop st l).cv = c.cv := rfl
@[simp] theorem Core.setLoop_v (c : Core) (st : Stream) (l : LoopStack) : (c.setLoop st l).v = c.v := rfl
@[simp] theorem Core.setLoop_vshape (c : Core) (st : Stream) (l : LoopStack) : (c.setLoop st l).vshape = c.vshape := rfl
@[simp] theorem Core.setLoop_acc (c : Core) (st : Stream) (l : LoopStack) : (c.setLoop st l).acc = c.acc := rfl
@[simp] theorem Core.setLoop_td (c : Core) (st : Stream) (l : LoopStack) : (c.setLoop st l).td = c.td := rfl
@[simp] theorem Core.setLoop_st (c : Core) (st : Stream) (l : LoopStack) : (c.setLoop st l).st = c.st := rfl
@[simp] theorem Core.setLoop_mp (c : Core) (st : Stream) (l : LoopStack) : (c.setLoop st l).mp = c.mp := rfl
@[simp] theorem Core.setLoop_mesh (c : Core) (st : Stream) (l : LoopStack) : (c.setLoop st l).mesh = c.mesh := rfl
@[simp] theorem Core.setLoop_rl (c : Core) (st : Stream) (l : LoopStack) : (c.setLoop st l).rl = c.rl := rfl
@[simp] theorem Core.setLoop_bar (c : Core) (st : Stream) (l : LoopStack) : (c.setLoop st l).bar = c.bar := rfl
@[simp] theorem Core.setLoop_frit (c : Core) (st : Stream) (l : LoopStack) : (c.setLoop st l).frit = c.frit := rfl
@[simp] theorem Core.setLoop_marker (c : Core) (st : Stream) (l : LoopStack) : (c.setLoop st l).marker = c.marker := rfl
@[simp] theorem Core.setLoop_decoded (c : Core) (st : Stream) (l : LoopStack) : (c.setLoop st l).decoded = c.decoded := rfl
@[simp] theorem Core.setLoop_wq (c : Core) (st : Stream) (l : LoopStack) : (c.setLoop st l).wq = c.wq := rfl
@[simp] theorem Core.setLoop_sq (c : Core) (st : Stream) (l : LoopStack) : (c.setLoop st l).sq = c.sq := rfl
@[simp] theorem Core.setLoop_fills (c : Core) (st : Stream) (l : LoopStack) : (c.setLoop st l).fills = c.fills := rfl
@[simp] theorem Core.setLoop_tok (c : Core) (st : Stream) (l : LoopStack) : (c.setLoop st l).tok = c.tok := rfl
@[simp] theorem Core.setLoop_pend (c : Core) (st : Stream) (l : LoopStack) : (c.setLoop st l).pend = c.pend := rfl
@[simp] theorem Core.setLoop_owed (c : Core) (st : Stream) (l : LoopStack) : (c.setLoop st l).owed = c.owed := rfl
@[simp] theorem Core.setLoop_fresh (c : Core) (st : Stream) (l : LoopStack) : (c.setLoop st l).fresh = c.fresh := rfl
@[simp] theorem Core.setLoop_gone (c : Core) (st : Stream) (l : LoopStack) : (c.setLoop st l).gone = c.gone := rfl
@[simp] theorem Core.setLoop_pc (c : Core) (st : Stream) (l : LoopStack) : (c.setLoop st l).pc = c.pc := rfl
@[simp] theorem Core.setLoop_seq (c : Core) (st : Stream) (l : LoopStack) : (c.setLoop st l).seq = c.seq := rfl
@[simp] theorem Core.setLoop_arrived (c : Core) (st : Stream) (l : LoopStack) : (c.setLoop st l).arrived = c.arrived := rfl
@[simp] theorem Core.setLoop_hold (c : Core) (st : Stream) (l : LoopStack) : (c.setLoop st l).hold = c.hold := rfl
@[simp] theorem Core.setLoop_stopped (c : Core) (st : Stream) (l : LoopStack) : (c.setLoop st l).stopped = c.stopped := rfl
@[simp] theorem Core.setLoop_monitor (c : Core) (st : Stream) (l : LoopStack) : (c.setLoop st l).monitor = c.monitor := rfl
@[simp] theorem Core.setLoop_ports (c : Core) (st : Stream) (l : LoopStack) : (c.setLoop st l).ports = c.ports := rfl
@[simp] theorem Core.setLoop_logged (c : Core) (st : Stream) (l : LoopStack) : (c.setLoop st l).logged = c.logged := rfl
@[simp] theorem Core.setLoop_pushes (c : Core) (st : Stream) (l : LoopStack) : (c.setLoop st l).pushes = c.pushes := rfl
@[simp] theorem Core.setLoop_stores (c : Core) (st : Stream) (l : LoopStack) : (c.setLoop st l).stores = c.stores := rfl
@[simp] theorem Core.setLoop_waiting (c : Core) (st : Stream) (l : LoopStack) : (c.setLoop st l).waiting = c.waiting := rfl
@[simp] theorem Core.setLoop_xwait (c : Core) (st : Stream) (l : LoopStack) : (c.setLoop st l).xwait = c.xwait := rfl
@[simp] theorem Core.setLoop_fwait (c : Core) (st : Stream) (l : LoopStack) : (c.setLoop st l).fwait = c.fwait := rfl
@[simp] theorem Core.setLoop_ahead (c : Core) (st : Stream) (l : LoopStack) : (c.setLoop st l).ahead = c.ahead := rfl
@[simp] theorem Core.setLoop_remote (c : Core) (st : Stream) (l : LoopStack) : (c.setLoop st l).remote = c.remote := rfl
@[simp] theorem Core.setLoop_steps (c : Core) (st : Stream) (l : LoopStack) : (c.setLoop st l).steps = c.steps := rfl
@[simp] theorem Core.setLoop_xfers (c : Core) (st : Stream) (l : LoopStack) : (c.setLoop st l).xfers = c.xfers := rfl
@[simp] theorem Core.setLoop_blocked (c : Core) (st : Stream) (l : LoopStack) : (c.setLoop st l).blocked = c.blocked := rfl
@[simp] theorem Core.setLoop_lastStep (c : Core) (st : Stream) (l : LoopStack) : (c.setLoop st l).lastStep = c.lastStep := rfl
@[simp] theorem Core.setLoop_tref (c : Core) (st : Stream) (l : LoopStack) : (c.setLoop st l).tref = c.tref := rfl
@[simp] theorem Core.setLoop_tvalid (c : Core) (st : Stream) (l : LoopStack) : (c.setLoop st l).tvalid = c.tvalid := rfl
@[simp] theorem Core.setLoop_wreq (c : Core) (st : Stream) (l : LoopStack) : (c.setLoop st l).wreq = c.wreq := rfl
@[simp] theorem Core.setLoop_stall (c : Core) (st : Stream) (l : LoopStack) : (c.setLoop st l).stall = c.stall := rfl
@[simp] theorem Core.setLoop_wrapped (c : Core) (st : Stream) (l : LoopStack) : (c.setLoop st l).wrapped = c.wrapped := rfl
@[simp] theorem Core.setLoop_pending (c : Core) (st : Stream) (l : LoopStack) : (c.setLoop st l).pending = c.pending := rfl
@[simp] theorem Core.setLoop_cut (c : Core) (st : Stream) (l : LoopStack) : (c.setLoop st l).cut = c.cut := rfl
@[simp] theorem Core.setLoop_abandon (c : Core) (st : Stream) (l : LoopStack) : (c.setLoop st l).abandon = c.abandon := rfl
@[simp] theorem Core.setLoop_wsel (c : Core) (st : Stream) (l : LoopStack) : (c.setLoop st l).wsel = c.wsel := rfl
@[simp] theorem Core.setLoop_tr1 (c : Core) (st : Stream) (l : LoopStack) : (c.setLoop st l).tr1 = c.tr1 := rfl
@[simp] theorem Core.setLoop_tr2 (c : Core) (st : Stream) (l : LoopStack) : (c.setLoop st l).tr2 = c.tr2 := rfl
@[simp] theorem Core.setLoop_tepc2 (c : Core) (st : Stream) (l : LoopStack) : (c.setLoop st l).tepc2 = c.tepc2 := rfl
@[simp] theorem Core.setLoop_missKiln (c : Core) (st : Stream) (l : LoopStack) : (c.setLoop st l).missKiln = c.missKiln := rfl
@[simp] theorem Core.setLoop_fsyn1 (c : Core) (st : Stream) (l : LoopStack) : (c.setLoop st l).fsyn1 = c.fsyn1 := rfl
@[simp] theorem Core.setLoop_fva1 (c : Core) (st : Stream) (l : LoopStack) : (c.setLoop st l).fva1 = c.fva1 := rfl
@[simp] theorem Core.setLoop_fsyn2 (c : Core) (st : Stream) (l : LoopStack) : (c.setLoop st l).fsyn2 = c.fsyn2 := rfl
@[simp] theorem Core.setLoop_fva2 (c : Core) (st : Stream) (l : LoopStack) : (c.setLoop st l).fva2 = c.fva2 := rfl
@[simp] theorem Core.setLoop_fipa2 (c : Core) (st : Stream) (l : LoopStack) : (c.setLoop st l).fipa2 = c.fipa2 := rfl
@[simp] theorem Core.setLoop_records (c : Core) (st : Stream) (l : LoopStack) : (c.setLoop st l).records = c.records := rfl
@[simp] theorem Core.setLoop_recOvf (c : Core) (st : Stream) (l : LoopStack) : (c.setLoop st l).recOvf = c.recOvf := rfl
@[simp] theorem Core.setLoop_flips (c : Core) (st : Stream) (l : LoopStack) : (c.setLoop st l).flips = c.flips := rfl
@[simp] theorem Core.setLoop_pfdrop (c : Core) (st : Stream) (l : LoopStack) : (c.setLoop st l).pfdrop = c.pfdrop := rfl
@[simp] theorem Core.setLoop_icache (c : Core) (st : Stream) (l : LoopStack) : (c.setLoop st l).icache = c.icache := rfl
@[simp] theorem Core.setLoop_l1 (c : Core) (st : Stream) (l : LoopStack) : (c.setLoop st l).l1 = c.l1 := rfl
@[simp] theorem Core.setLoop_tlb (c : Core) (st : Stream) (l : LoopStack) : (c.setLoop st l).tlb = c.tlb := rfl
@[simp] theorem Core.setLoop_xtlb (c : Core) (st : Stream) (l : LoopStack) : (c.setLoop st l).xtlb = c.xtlb := rfl
@[simp] theorem Core.setLoop_seed (c : Core) (st : Stream) (l : LoopStack) : (c.setLoop st l).seed = c.seed := rfl
@[simp] theorem Core.setLoop_known (c : Core) (st : Stream) (l : LoopStack) : (c.setLoop st l).known = c.known := rfl
@[simp] theorem Core.setLoop_job (c : Core) (st : Stream) (l : LoopStack) : (c.setLoop st l).job = c.job := rfl
@[simp] theorem Core.setLoop_xasked (c : Core) (st : Stream) (l : LoopStack) : (c.setLoop st l).xasked = c.xasked := rfl
@[simp] theorem Core.setLoop_invals (c : Core) (st : Stream) (l : LoopStack) : (c.setLoop st l).invals = c.invals := rfl
@[simp] theorem Core.setLoop_synced (c : Core) (st : Stream) (l : LoopStack) : (c.setLoop st l).synced = c.synced := rfl
@[simp] theorem Core.setLoop_index (c : Core) (st : Stream) (l : LoopStack) : (c.setLoop st l).index = c.index := rfl
@[simp] theorem Core.setLoop_spres (c : Core) (st : Stream) (l : LoopStack) : (c.setLoop st l).spres = c.spres := rfl
@[simp] theorem Core.setLoop_timed (c : Core) (st : Stream) (l : LoopStack) : (c.setLoop st l).timed = c.timed := rfl
@[simp] theorem Core.setLoop_products (c : Core) (st : Stream) (l : LoopStack) : (c.setLoop st l).products = c.products := rfl
@[simp] theorem Core.setLoop_boundary (c : Core) (st : Stream) (l : LoopStack) : (c.setLoop st l).boundary = c.boundary := rfl

/-! ### Core.setPort -/

@[simp] theorem Core.setPort_state (c : Core) (n : Nat) (p : Port) : (c.setPort n p).state = c.state := rfl
@[simp] theorem Core.setPort_retired (c : Core) (n : Nat) (p : Port) : (c.setPort n p).retired = c.retired := rfl
@[simp] theorem Core.setPort_before (c : Core) (n : Nat) (p : Port) : (c.setPort n p).before = c.before := rfl
@[simp] theorem Core.setPort_again (c : Core) (n : Nat) (p : Port) : (c.setPort n p).again = c.again := rfl
@[simp] theorem Core.setPort_pl (c : Core) (n : Nat) (p : Port) : (c.setPort n p).pl = c.pl := rfl
@[simp] theorem Core.setPort_part (c : Core) (n : Nat) (p : Port) : (c.setPort n p).part = c.part := rfl
@[simp] theorem Core.setPort_vf (c : Core) (n : Nat) (p : Port) : (c.setPort n p).vf = c.vf := rfl
@[simp] theorem Core.setPort_pasid (c : Core) (n : Nat) (p : Port) : (c.setPort n p).pasid = c.pasid := rfl
@[simp] theorem Core.setPort_jobPasid (c : Core) (n : Nat) (p : Port) : (c.setPort n p).jobPasid = c.jobPasid := rfl
@[simp] theorem Core.setPort_g (c : Core) (n : Nat) (p : Port) : (c.setPort n p).g = c.g := rfl
@[simp] theorem Core.setPort_cx (c : Core) (n : Nat) (p : Port) : (c.setPort n p).cx = c.cx := rfl
@[simp] theorem Core.setPort_cm (c : Core) (n : Nat) (p : Port) : (c.setPort n p).cm = c.cm := rfl
@[simp] theorem Core.setPort_cv (c : Core) (n : Nat) (p : Port) : (c.setPort n p).cv = c.cv := rfl
@[simp] theorem Core.setPort_v (c : Core) (n : Nat) (p : Port) : (c.setPort n p).v = c.v := rfl
@[simp] theorem Core.setPort_vshape (c : Core) (n : Nat) (p : Port) : (c.setPort n p).vshape = c.vshape := rfl
@[simp] theorem Core.setPort_acc (c : Core) (n : Nat) (p : Port) : (c.setPort n p).acc = c.acc := rfl
@[simp] theorem Core.setPort_td (c : Core) (n : Nat) (p : Port) : (c.setPort n p).td = c.td := rfl
@[simp] theorem Core.setPort_st (c : Core) (n : Nat) (p : Port) : (c.setPort n p).st = c.st := rfl
@[simp] theorem Core.setPort_mp (c : Core) (n : Nat) (p : Port) : (c.setPort n p).mp = c.mp := rfl
@[simp] theorem Core.setPort_mesh (c : Core) (n : Nat) (p : Port) : (c.setPort n p).mesh = c.mesh := rfl
@[simp] theorem Core.setPort_rl (c : Core) (n : Nat) (p : Port) : (c.setPort n p).rl = c.rl := rfl
@[simp] theorem Core.setPort_bar (c : Core) (n : Nat) (p : Port) : (c.setPort n p).bar = c.bar := rfl
@[simp] theorem Core.setPort_frit (c : Core) (n : Nat) (p : Port) : (c.setPort n p).frit = c.frit := rfl
@[simp] theorem Core.setPort_marker (c : Core) (n : Nat) (p : Port) : (c.setPort n p).marker = c.marker := rfl
@[simp] theorem Core.setPort_decoded (c : Core) (n : Nat) (p : Port) : (c.setPort n p).decoded = c.decoded := rfl
@[simp] theorem Core.setPort_wq (c : Core) (n : Nat) (p : Port) : (c.setPort n p).wq = c.wq := rfl
@[simp] theorem Core.setPort_sq (c : Core) (n : Nat) (p : Port) : (c.setPort n p).sq = c.sq := rfl
@[simp] theorem Core.setPort_fills (c : Core) (n : Nat) (p : Port) : (c.setPort n p).fills = c.fills := rfl
@[simp] theorem Core.setPort_tok (c : Core) (n : Nat) (p : Port) : (c.setPort n p).tok = c.tok := rfl
@[simp] theorem Core.setPort_pend (c : Core) (n : Nat) (p : Port) : (c.setPort n p).pend = c.pend := rfl
@[simp] theorem Core.setPort_owed (c : Core) (n : Nat) (p : Port) : (c.setPort n p).owed = c.owed := rfl
@[simp] theorem Core.setPort_fresh (c : Core) (n : Nat) (p : Port) : (c.setPort n p).fresh = c.fresh := rfl
@[simp] theorem Core.setPort_gone (c : Core) (n : Nat) (p : Port) : (c.setPort n p).gone = c.gone := rfl
@[simp] theorem Core.setPort_loops (c : Core) (n : Nat) (p : Port) : (c.setPort n p).loops = c.loops := rfl
@[simp] theorem Core.setPort_pc (c : Core) (n : Nat) (p : Port) : (c.setPort n p).pc = c.pc := rfl
@[simp] theorem Core.setPort_seq (c : Core) (n : Nat) (p : Port) : (c.setPort n p).seq = c.seq := rfl
@[simp] theorem Core.setPort_arrived (c : Core) (n : Nat) (p : Port) : (c.setPort n p).arrived = c.arrived := rfl
@[simp] theorem Core.setPort_hold (c : Core) (n : Nat) (p : Port) : (c.setPort n p).hold = c.hold := rfl
@[simp] theorem Core.setPort_stopped (c : Core) (n : Nat) (p : Port) : (c.setPort n p).stopped = c.stopped := rfl
@[simp] theorem Core.setPort_monitor (c : Core) (n : Nat) (p : Port) : (c.setPort n p).monitor = c.monitor := rfl
@[simp] theorem Core.setPort_logged (c : Core) (n : Nat) (p : Port) : (c.setPort n p).logged = c.logged := rfl
@[simp] theorem Core.setPort_pushes (c : Core) (n : Nat) (p : Port) : (c.setPort n p).pushes = c.pushes := rfl
@[simp] theorem Core.setPort_stores (c : Core) (n : Nat) (p : Port) : (c.setPort n p).stores = c.stores := rfl
@[simp] theorem Core.setPort_waiting (c : Core) (n : Nat) (p : Port) : (c.setPort n p).waiting = c.waiting := rfl
@[simp] theorem Core.setPort_xwait (c : Core) (n : Nat) (p : Port) : (c.setPort n p).xwait = c.xwait := rfl
@[simp] theorem Core.setPort_fwait (c : Core) (n : Nat) (p : Port) : (c.setPort n p).fwait = c.fwait := rfl
@[simp] theorem Core.setPort_ahead (c : Core) (n : Nat) (p : Port) : (c.setPort n p).ahead = c.ahead := rfl
@[simp] theorem Core.setPort_remote (c : Core) (n : Nat) (p : Port) : (c.setPort n p).remote = c.remote := rfl
@[simp] theorem Core.setPort_steps (c : Core) (n : Nat) (p : Port) : (c.setPort n p).steps = c.steps := rfl
@[simp] theorem Core.setPort_xfers (c : Core) (n : Nat) (p : Port) : (c.setPort n p).xfers = c.xfers := rfl
@[simp] theorem Core.setPort_blocked (c : Core) (n : Nat) (p : Port) : (c.setPort n p).blocked = c.blocked := rfl
@[simp] theorem Core.setPort_lastStep (c : Core) (n : Nat) (p : Port) : (c.setPort n p).lastStep = c.lastStep := rfl
@[simp] theorem Core.setPort_tref (c : Core) (n : Nat) (p : Port) : (c.setPort n p).tref = c.tref := rfl
@[simp] theorem Core.setPort_tvalid (c : Core) (n : Nat) (p : Port) : (c.setPort n p).tvalid = c.tvalid := rfl
@[simp] theorem Core.setPort_wreq (c : Core) (n : Nat) (p : Port) : (c.setPort n p).wreq = c.wreq := rfl
@[simp] theorem Core.setPort_stall (c : Core) (n : Nat) (p : Port) : (c.setPort n p).stall = c.stall := rfl
@[simp] theorem Core.setPort_wrapped (c : Core) (n : Nat) (p : Port) : (c.setPort n p).wrapped = c.wrapped := rfl
@[simp] theorem Core.setPort_pending (c : Core) (n : Nat) (p : Port) : (c.setPort n p).pending = c.pending := rfl
@[simp] theorem Core.setPort_cut (c : Core) (n : Nat) (p : Port) : (c.setPort n p).cut = c.cut := rfl
@[simp] theorem Core.setPort_abandon (c : Core) (n : Nat) (p : Port) : (c.setPort n p).abandon = c.abandon := rfl
@[simp] theorem Core.setPort_wsel (c : Core) (n : Nat) (p : Port) : (c.setPort n p).wsel = c.wsel := rfl
@[simp] theorem Core.setPort_tr1 (c : Core) (n : Nat) (p : Port) : (c.setPort n p).tr1 = c.tr1 := rfl
@[simp] theorem Core.setPort_tr2 (c : Core) (n : Nat) (p : Port) : (c.setPort n p).tr2 = c.tr2 := rfl
@[simp] theorem Core.setPort_tepc2 (c : Core) (n : Nat) (p : Port) : (c.setPort n p).tepc2 = c.tepc2 := rfl
@[simp] theorem Core.setPort_missKiln (c : Core) (n : Nat) (p : Port) : (c.setPort n p).missKiln = c.missKiln := rfl
@[simp] theorem Core.setPort_fsyn1 (c : Core) (n : Nat) (p : Port) : (c.setPort n p).fsyn1 = c.fsyn1 := rfl
@[simp] theorem Core.setPort_fva1 (c : Core) (n : Nat) (p : Port) : (c.setPort n p).fva1 = c.fva1 := rfl
@[simp] theorem Core.setPort_fsyn2 (c : Core) (n : Nat) (p : Port) : (c.setPort n p).fsyn2 = c.fsyn2 := rfl
@[simp] theorem Core.setPort_fva2 (c : Core) (n : Nat) (p : Port) : (c.setPort n p).fva2 = c.fva2 := rfl
@[simp] theorem Core.setPort_fipa2 (c : Core) (n : Nat) (p : Port) : (c.setPort n p).fipa2 = c.fipa2 := rfl
@[simp] theorem Core.setPort_records (c : Core) (n : Nat) (p : Port) : (c.setPort n p).records = c.records := rfl
@[simp] theorem Core.setPort_recOvf (c : Core) (n : Nat) (p : Port) : (c.setPort n p).recOvf = c.recOvf := rfl
@[simp] theorem Core.setPort_flips (c : Core) (n : Nat) (p : Port) : (c.setPort n p).flips = c.flips := rfl
@[simp] theorem Core.setPort_pfdrop (c : Core) (n : Nat) (p : Port) : (c.setPort n p).pfdrop = c.pfdrop := rfl
@[simp] theorem Core.setPort_icache (c : Core) (n : Nat) (p : Port) : (c.setPort n p).icache = c.icache := rfl
@[simp] theorem Core.setPort_l1 (c : Core) (n : Nat) (p : Port) : (c.setPort n p).l1 = c.l1 := rfl
@[simp] theorem Core.setPort_tlb (c : Core) (n : Nat) (p : Port) : (c.setPort n p).tlb = c.tlb := rfl
@[simp] theorem Core.setPort_xtlb (c : Core) (n : Nat) (p : Port) : (c.setPort n p).xtlb = c.xtlb := rfl
@[simp] theorem Core.setPort_seed (c : Core) (n : Nat) (p : Port) : (c.setPort n p).seed = c.seed := rfl
@[simp] theorem Core.setPort_known (c : Core) (n : Nat) (p : Port) : (c.setPort n p).known = c.known := rfl
@[simp] theorem Core.setPort_job (c : Core) (n : Nat) (p : Port) : (c.setPort n p).job = c.job := rfl
@[simp] theorem Core.setPort_xasked (c : Core) (n : Nat) (p : Port) : (c.setPort n p).xasked = c.xasked := rfl
@[simp] theorem Core.setPort_invals (c : Core) (n : Nat) (p : Port) : (c.setPort n p).invals = c.invals := rfl
@[simp] theorem Core.setPort_synced (c : Core) (n : Nat) (p : Port) : (c.setPort n p).synced = c.synced := rfl
@[simp] theorem Core.setPort_index (c : Core) (n : Nat) (p : Port) : (c.setPort n p).index = c.index := rfl
@[simp] theorem Core.setPort_spres (c : Core) (n : Nat) (p : Port) : (c.setPort n p).spres = c.spres := rfl
@[simp] theorem Core.setPort_timed (c : Core) (n : Nat) (p : Port) : (c.setPort n p).timed = c.timed := rfl
@[simp] theorem Core.setPort_products (c : Core) (n : Nat) (p : Port) : (c.setPort n p).products = c.products := rfl
@[simp] theorem Core.setPort_boundary (c : Core) (n : Nat) (p : Port) : (c.setPort n p).boundary = c.boundary := rfl

/-! ### Core.writeG, Core.logWrites and Core.advance -/

@[simp] theorem Core.writeG_state (c : Core) (r : BitVec 5) (x : Dword) : (c.writeG r x).state = c.state := by
  unfold Core.writeG; split <;> rfl
@[simp] theorem Core.writeG_retired (c : Core) (r : BitVec 5) (x : Dword) : (c.writeG r x).retired = c.retired := by
  unfold Core.writeG; split <;> rfl
@[simp] theorem Core.writeG_before (c : Core) (r : BitVec 5) (x : Dword) : (c.writeG r x).before = c.before := by
  unfold Core.writeG; split <;> rfl
@[simp] theorem Core.writeG_again (c : Core) (r : BitVec 5) (x : Dword) : (c.writeG r x).again = c.again := by
  unfold Core.writeG; split <;> rfl
@[simp] theorem Core.writeG_pl (c : Core) (r : BitVec 5) (x : Dword) : (c.writeG r x).pl = c.pl := by
  unfold Core.writeG; split <;> rfl
@[simp] theorem Core.writeG_part (c : Core) (r : BitVec 5) (x : Dword) : (c.writeG r x).part = c.part := by
  unfold Core.writeG; split <;> rfl
@[simp] theorem Core.writeG_vf (c : Core) (r : BitVec 5) (x : Dword) : (c.writeG r x).vf = c.vf := by
  unfold Core.writeG; split <;> rfl
@[simp] theorem Core.writeG_pasid (c : Core) (r : BitVec 5) (x : Dword) : (c.writeG r x).pasid = c.pasid := by
  unfold Core.writeG; split <;> rfl
@[simp] theorem Core.writeG_jobPasid (c : Core) (r : BitVec 5) (x : Dword) : (c.writeG r x).jobPasid = c.jobPasid := by
  unfold Core.writeG; split <;> rfl
@[simp] theorem Core.writeG_cx (c : Core) (r : BitVec 5) (x : Dword) : (c.writeG r x).cx = c.cx := by
  unfold Core.writeG; split <;> rfl
@[simp] theorem Core.writeG_cm (c : Core) (r : BitVec 5) (x : Dword) : (c.writeG r x).cm = c.cm := by
  unfold Core.writeG; split <;> rfl
@[simp] theorem Core.writeG_cv (c : Core) (r : BitVec 5) (x : Dword) : (c.writeG r x).cv = c.cv := by
  unfold Core.writeG; split <;> rfl
@[simp] theorem Core.writeG_v (c : Core) (r : BitVec 5) (x : Dword) : (c.writeG r x).v = c.v := by
  unfold Core.writeG; split <;> rfl
@[simp] theorem Core.writeG_vshape (c : Core) (r : BitVec 5) (x : Dword) : (c.writeG r x).vshape = c.vshape := by
  unfold Core.writeG; split <;> rfl
@[simp] theorem Core.writeG_acc (c : Core) (r : BitVec 5) (x : Dword) : (c.writeG r x).acc = c.acc := by
  unfold Core.writeG; split <;> rfl
@[simp] theorem Core.writeG_td (c : Core) (r : BitVec 5) (x : Dword) : (c.writeG r x).td = c.td := by
  unfold Core.writeG; split <;> rfl
@[simp] theorem Core.writeG_st (c : Core) (r : BitVec 5) (x : Dword) : (c.writeG r x).st = c.st := by
  unfold Core.writeG; split <;> rfl
@[simp] theorem Core.writeG_mp (c : Core) (r : BitVec 5) (x : Dword) : (c.writeG r x).mp = c.mp := by
  unfold Core.writeG; split <;> rfl
@[simp] theorem Core.writeG_mesh (c : Core) (r : BitVec 5) (x : Dword) : (c.writeG r x).mesh = c.mesh := by
  unfold Core.writeG; split <;> rfl
@[simp] theorem Core.writeG_rl (c : Core) (r : BitVec 5) (x : Dword) : (c.writeG r x).rl = c.rl := by
  unfold Core.writeG; split <;> rfl
@[simp] theorem Core.writeG_bar (c : Core) (r : BitVec 5) (x : Dword) : (c.writeG r x).bar = c.bar := by
  unfold Core.writeG; split <;> rfl
@[simp] theorem Core.writeG_frit (c : Core) (r : BitVec 5) (x : Dword) : (c.writeG r x).frit = c.frit := by
  unfold Core.writeG; split <;> rfl
@[simp] theorem Core.writeG_marker (c : Core) (r : BitVec 5) (x : Dword) : (c.writeG r x).marker = c.marker := by
  unfold Core.writeG; split <;> rfl
@[simp] theorem Core.writeG_decoded (c : Core) (r : BitVec 5) (x : Dword) : (c.writeG r x).decoded = c.decoded := by
  unfold Core.writeG; split <;> rfl
@[simp] theorem Core.writeG_wq (c : Core) (r : BitVec 5) (x : Dword) : (c.writeG r x).wq = c.wq := by
  unfold Core.writeG; split <;> rfl
@[simp] theorem Core.writeG_sq (c : Core) (r : BitVec 5) (x : Dword) : (c.writeG r x).sq = c.sq := by
  unfold Core.writeG; split <;> rfl
@[simp] theorem Core.writeG_fills (c : Core) (r : BitVec 5) (x : Dword) : (c.writeG r x).fills = c.fills := by
  unfold Core.writeG; split <;> rfl
@[simp] theorem Core.writeG_tok (c : Core) (r : BitVec 5) (x : Dword) : (c.writeG r x).tok = c.tok := by
  unfold Core.writeG; split <;> rfl
@[simp] theorem Core.writeG_pend (c : Core) (r : BitVec 5) (x : Dword) : (c.writeG r x).pend = c.pend := by
  unfold Core.writeG; split <;> rfl
@[simp] theorem Core.writeG_owed (c : Core) (r : BitVec 5) (x : Dword) : (c.writeG r x).owed = c.owed := by
  unfold Core.writeG; split <;> rfl
@[simp] theorem Core.writeG_fresh (c : Core) (r : BitVec 5) (x : Dword) : (c.writeG r x).fresh = c.fresh := by
  unfold Core.writeG; split <;> rfl
@[simp] theorem Core.writeG_gone (c : Core) (r : BitVec 5) (x : Dword) : (c.writeG r x).gone = c.gone := by
  unfold Core.writeG; split <;> rfl
@[simp] theorem Core.writeG_loops (c : Core) (r : BitVec 5) (x : Dword) : (c.writeG r x).loops = c.loops := by
  unfold Core.writeG; split <;> rfl
@[simp] theorem Core.writeG_pc (c : Core) (r : BitVec 5) (x : Dword) : (c.writeG r x).pc = c.pc := by
  unfold Core.writeG; split <;> rfl
@[simp] theorem Core.writeG_seq (c : Core) (r : BitVec 5) (x : Dword) : (c.writeG r x).seq = c.seq := by
  unfold Core.writeG; split <;> rfl
@[simp] theorem Core.writeG_arrived (c : Core) (r : BitVec 5) (x : Dword) : (c.writeG r x).arrived = c.arrived := by
  unfold Core.writeG; split <;> rfl
@[simp] theorem Core.writeG_hold (c : Core) (r : BitVec 5) (x : Dword) : (c.writeG r x).hold = c.hold := by
  unfold Core.writeG; split <;> rfl
@[simp] theorem Core.writeG_stopped (c : Core) (r : BitVec 5) (x : Dword) : (c.writeG r x).stopped = c.stopped := by
  unfold Core.writeG; split <;> rfl
@[simp] theorem Core.writeG_monitor (c : Core) (r : BitVec 5) (x : Dword) : (c.writeG r x).monitor = c.monitor := by
  unfold Core.writeG; split <;> rfl
@[simp] theorem Core.writeG_ports (c : Core) (r : BitVec 5) (x : Dword) : (c.writeG r x).ports = c.ports := by
  unfold Core.writeG; split <;> rfl
@[simp] theorem Core.writeG_logged (c : Core) (r : BitVec 5) (x : Dword) : (c.writeG r x).logged = c.logged := by
  unfold Core.writeG; split <;> rfl
@[simp] theorem Core.writeG_pushes (c : Core) (r : BitVec 5) (x : Dword) : (c.writeG r x).pushes = c.pushes := by
  unfold Core.writeG; split <;> rfl
@[simp] theorem Core.writeG_stores (c : Core) (r : BitVec 5) (x : Dword) : (c.writeG r x).stores = c.stores := by
  unfold Core.writeG; split <;> rfl
@[simp] theorem Core.writeG_waiting (c : Core) (r : BitVec 5) (x : Dword) : (c.writeG r x).waiting = c.waiting := by
  unfold Core.writeG; split <;> rfl
@[simp] theorem Core.writeG_xwait (c : Core) (r : BitVec 5) (x : Dword) : (c.writeG r x).xwait = c.xwait := by
  unfold Core.writeG; split <;> rfl
@[simp] theorem Core.writeG_fwait (c : Core) (r : BitVec 5) (x : Dword) : (c.writeG r x).fwait = c.fwait := by
  unfold Core.writeG; split <;> rfl
@[simp] theorem Core.writeG_ahead (c : Core) (r : BitVec 5) (x : Dword) : (c.writeG r x).ahead = c.ahead := by
  unfold Core.writeG; split <;> rfl
@[simp] theorem Core.writeG_remote (c : Core) (r : BitVec 5) (x : Dword) : (c.writeG r x).remote = c.remote := by
  unfold Core.writeG; split <;> rfl
@[simp] theorem Core.writeG_steps (c : Core) (r : BitVec 5) (x : Dword) : (c.writeG r x).steps = c.steps := by
  unfold Core.writeG; split <;> rfl
@[simp] theorem Core.writeG_xfers (c : Core) (r : BitVec 5) (x : Dword) : (c.writeG r x).xfers = c.xfers := by
  unfold Core.writeG; split <;> rfl
@[simp] theorem Core.writeG_blocked (c : Core) (r : BitVec 5) (x : Dword) : (c.writeG r x).blocked = c.blocked := by
  unfold Core.writeG; split <;> rfl
@[simp] theorem Core.writeG_lastStep (c : Core) (r : BitVec 5) (x : Dword) : (c.writeG r x).lastStep = c.lastStep := by
  unfold Core.writeG; split <;> rfl
@[simp] theorem Core.writeG_tref (c : Core) (r : BitVec 5) (x : Dword) : (c.writeG r x).tref = c.tref := by
  unfold Core.writeG; split <;> rfl
@[simp] theorem Core.writeG_tvalid (c : Core) (r : BitVec 5) (x : Dword) : (c.writeG r x).tvalid = c.tvalid := by
  unfold Core.writeG; split <;> rfl
@[simp] theorem Core.writeG_wreq (c : Core) (r : BitVec 5) (x : Dword) : (c.writeG r x).wreq = c.wreq := by
  unfold Core.writeG; split <;> rfl
@[simp] theorem Core.writeG_stall (c : Core) (r : BitVec 5) (x : Dword) : (c.writeG r x).stall = c.stall := by
  unfold Core.writeG; split <;> rfl
@[simp] theorem Core.writeG_wrapped (c : Core) (r : BitVec 5) (x : Dword) : (c.writeG r x).wrapped = c.wrapped := by
  unfold Core.writeG; split <;> rfl
@[simp] theorem Core.writeG_pending (c : Core) (r : BitVec 5) (x : Dword) : (c.writeG r x).pending = c.pending := by
  unfold Core.writeG; split <;> rfl
@[simp] theorem Core.writeG_cut (c : Core) (r : BitVec 5) (x : Dword) : (c.writeG r x).cut = c.cut := by
  unfold Core.writeG; split <;> rfl
@[simp] theorem Core.writeG_abandon (c : Core) (r : BitVec 5) (x : Dword) : (c.writeG r x).abandon = c.abandon := by
  unfold Core.writeG; split <;> rfl
@[simp] theorem Core.writeG_wsel (c : Core) (r : BitVec 5) (x : Dword) : (c.writeG r x).wsel = c.wsel := by
  unfold Core.writeG; split <;> rfl
@[simp] theorem Core.writeG_tr1 (c : Core) (r : BitVec 5) (x : Dword) : (c.writeG r x).tr1 = c.tr1 := by
  unfold Core.writeG; split <;> rfl
@[simp] theorem Core.writeG_tr2 (c : Core) (r : BitVec 5) (x : Dword) : (c.writeG r x).tr2 = c.tr2 := by
  unfold Core.writeG; split <;> rfl
@[simp] theorem Core.writeG_tepc2 (c : Core) (r : BitVec 5) (x : Dword) : (c.writeG r x).tepc2 = c.tepc2 := by
  unfold Core.writeG; split <;> rfl
@[simp] theorem Core.writeG_missKiln (c : Core) (r : BitVec 5) (x : Dword) : (c.writeG r x).missKiln = c.missKiln := by
  unfold Core.writeG; split <;> rfl
@[simp] theorem Core.writeG_fsyn1 (c : Core) (r : BitVec 5) (x : Dword) : (c.writeG r x).fsyn1 = c.fsyn1 := by
  unfold Core.writeG; split <;> rfl
@[simp] theorem Core.writeG_fva1 (c : Core) (r : BitVec 5) (x : Dword) : (c.writeG r x).fva1 = c.fva1 := by
  unfold Core.writeG; split <;> rfl
@[simp] theorem Core.writeG_fsyn2 (c : Core) (r : BitVec 5) (x : Dword) : (c.writeG r x).fsyn2 = c.fsyn2 := by
  unfold Core.writeG; split <;> rfl
@[simp] theorem Core.writeG_fva2 (c : Core) (r : BitVec 5) (x : Dword) : (c.writeG r x).fva2 = c.fva2 := by
  unfold Core.writeG; split <;> rfl
@[simp] theorem Core.writeG_fipa2 (c : Core) (r : BitVec 5) (x : Dword) : (c.writeG r x).fipa2 = c.fipa2 := by
  unfold Core.writeG; split <;> rfl
@[simp] theorem Core.writeG_records (c : Core) (r : BitVec 5) (x : Dword) : (c.writeG r x).records = c.records := by
  unfold Core.writeG; split <;> rfl
@[simp] theorem Core.writeG_recOvf (c : Core) (r : BitVec 5) (x : Dword) : (c.writeG r x).recOvf = c.recOvf := by
  unfold Core.writeG; split <;> rfl
@[simp] theorem Core.writeG_flips (c : Core) (r : BitVec 5) (x : Dword) : (c.writeG r x).flips = c.flips := by
  unfold Core.writeG; split <;> rfl
@[simp] theorem Core.writeG_pfdrop (c : Core) (r : BitVec 5) (x : Dword) : (c.writeG r x).pfdrop = c.pfdrop := by
  unfold Core.writeG; split <;> rfl
@[simp] theorem Core.writeG_icache (c : Core) (r : BitVec 5) (x : Dword) : (c.writeG r x).icache = c.icache := by
  unfold Core.writeG; split <;> rfl
@[simp] theorem Core.writeG_l1 (c : Core) (r : BitVec 5) (x : Dword) : (c.writeG r x).l1 = c.l1 := by
  unfold Core.writeG; split <;> rfl
@[simp] theorem Core.writeG_tlb (c : Core) (r : BitVec 5) (x : Dword) : (c.writeG r x).tlb = c.tlb := by
  unfold Core.writeG; split <;> rfl
@[simp] theorem Core.writeG_xtlb (c : Core) (r : BitVec 5) (x : Dword) : (c.writeG r x).xtlb = c.xtlb := by
  unfold Core.writeG; split <;> rfl
@[simp] theorem Core.writeG_seed (c : Core) (r : BitVec 5) (x : Dword) : (c.writeG r x).seed = c.seed := by
  unfold Core.writeG; split <;> rfl
@[simp] theorem Core.writeG_known (c : Core) (r : BitVec 5) (x : Dword) : (c.writeG r x).known = c.known := by
  unfold Core.writeG; split <;> rfl
@[simp] theorem Core.writeG_job (c : Core) (r : BitVec 5) (x : Dword) : (c.writeG r x).job = c.job := by
  unfold Core.writeG; split <;> rfl
@[simp] theorem Core.writeG_xasked (c : Core) (r : BitVec 5) (x : Dword) : (c.writeG r x).xasked = c.xasked := by
  unfold Core.writeG; split <;> rfl
@[simp] theorem Core.writeG_invals (c : Core) (r : BitVec 5) (x : Dword) : (c.writeG r x).invals = c.invals := by
  unfold Core.writeG; split <;> rfl
@[simp] theorem Core.writeG_synced (c : Core) (r : BitVec 5) (x : Dword) : (c.writeG r x).synced = c.synced := by
  unfold Core.writeG; split <;> rfl
@[simp] theorem Core.writeG_index (c : Core) (r : BitVec 5) (x : Dword) : (c.writeG r x).index = c.index := by
  unfold Core.writeG; split <;> rfl
@[simp] theorem Core.writeG_spres (c : Core) (r : BitVec 5) (x : Dword) : (c.writeG r x).spres = c.spres := by
  unfold Core.writeG; split <;> rfl
@[simp] theorem Core.writeG_timed (c : Core) (r : BitVec 5) (x : Dword) : (c.writeG r x).timed = c.timed := by
  unfold Core.writeG; split <;> rfl
@[simp] theorem Core.writeG_products (c : Core) (r : BitVec 5) (x : Dword) : (c.writeG r x).products = c.products := by
  unfold Core.writeG; split <;> rfl
@[simp] theorem Core.writeG_boundary (c : Core) (r : BitVec 5) (x : Dword) : (c.writeG r x).boundary = c.boundary := by
  unfold Core.writeG; split <;> rfl
@[simp] theorem Core.logWrites_state (c : Core) (n : Nat) : (c.logWrites n).state = c.state := by
  unfold Core.logWrites; split <;> rfl
@[simp] theorem Core.logWrites_retired (c : Core) (n : Nat) : (c.logWrites n).retired = c.retired := by
  unfold Core.logWrites; split <;> rfl
@[simp] theorem Core.logWrites_before (c : Core) (n : Nat) : (c.logWrites n).before = c.before := by
  unfold Core.logWrites; split <;> rfl
@[simp] theorem Core.logWrites_again (c : Core) (n : Nat) : (c.logWrites n).again = c.again := by
  unfold Core.logWrites; split <;> rfl
@[simp] theorem Core.logWrites_pl (c : Core) (n : Nat) : (c.logWrites n).pl = c.pl := by
  unfold Core.logWrites; split <;> rfl
@[simp] theorem Core.logWrites_part (c : Core) (n : Nat) : (c.logWrites n).part = c.part := by
  unfold Core.logWrites; split <;> rfl
@[simp] theorem Core.logWrites_vf (c : Core) (n : Nat) : (c.logWrites n).vf = c.vf := by
  unfold Core.logWrites; split <;> rfl
@[simp] theorem Core.logWrites_pasid (c : Core) (n : Nat) : (c.logWrites n).pasid = c.pasid := by
  unfold Core.logWrites; split <;> rfl
@[simp] theorem Core.logWrites_jobPasid (c : Core) (n : Nat) : (c.logWrites n).jobPasid = c.jobPasid := by
  unfold Core.logWrites; split <;> rfl
@[simp] theorem Core.logWrites_g (c : Core) (n : Nat) : (c.logWrites n).g = c.g := by
  unfold Core.logWrites; split <;> rfl
@[simp] theorem Core.logWrites_cx (c : Core) (n : Nat) : (c.logWrites n).cx = c.cx := by
  unfold Core.logWrites; split <;> rfl
@[simp] theorem Core.logWrites_cm (c : Core) (n : Nat) : (c.logWrites n).cm = c.cm := by
  unfold Core.logWrites; split <;> rfl
@[simp] theorem Core.logWrites_cv (c : Core) (n : Nat) : (c.logWrites n).cv = c.cv := by
  unfold Core.logWrites; split <;> rfl
@[simp] theorem Core.logWrites_v (c : Core) (n : Nat) : (c.logWrites n).v = c.v := by
  unfold Core.logWrites; split <;> rfl
@[simp] theorem Core.logWrites_vshape (c : Core) (n : Nat) : (c.logWrites n).vshape = c.vshape := by
  unfold Core.logWrites; split <;> rfl
@[simp] theorem Core.logWrites_acc (c : Core) (n : Nat) : (c.logWrites n).acc = c.acc := by
  unfold Core.logWrites; split <;> rfl
@[simp] theorem Core.logWrites_td (c : Core) (n : Nat) : (c.logWrites n).td = c.td := by
  unfold Core.logWrites; split <;> rfl
@[simp] theorem Core.logWrites_st (c : Core) (n : Nat) : (c.logWrites n).st = c.st := by
  unfold Core.logWrites; split <;> rfl
@[simp] theorem Core.logWrites_mp (c : Core) (n : Nat) : (c.logWrites n).mp = c.mp := by
  unfold Core.logWrites; split <;> rfl
@[simp] theorem Core.logWrites_mesh (c : Core) (n : Nat) : (c.logWrites n).mesh = c.mesh := by
  unfold Core.logWrites; split <;> rfl
@[simp] theorem Core.logWrites_rl (c : Core) (n : Nat) : (c.logWrites n).rl = c.rl := by
  unfold Core.logWrites; split <;> rfl
@[simp] theorem Core.logWrites_bar (c : Core) (n : Nat) : (c.logWrites n).bar = c.bar := by
  unfold Core.logWrites; split <;> rfl
@[simp] theorem Core.logWrites_frit (c : Core) (n : Nat) : (c.logWrites n).frit = c.frit := by
  unfold Core.logWrites; split <;> rfl
@[simp] theorem Core.logWrites_marker (c : Core) (n : Nat) : (c.logWrites n).marker = c.marker := by
  unfold Core.logWrites; split <;> rfl
@[simp] theorem Core.logWrites_decoded (c : Core) (n : Nat) : (c.logWrites n).decoded = c.decoded := by
  unfold Core.logWrites; split <;> rfl
@[simp] theorem Core.logWrites_wq (c : Core) (n : Nat) : (c.logWrites n).wq = c.wq := by
  unfold Core.logWrites; split <;> rfl
@[simp] theorem Core.logWrites_sq (c : Core) (n : Nat) : (c.logWrites n).sq = c.sq := by
  unfold Core.logWrites; split <;> rfl
@[simp] theorem Core.logWrites_fills (c : Core) (n : Nat) : (c.logWrites n).fills = c.fills := by
  unfold Core.logWrites; split <;> rfl
@[simp] theorem Core.logWrites_tok (c : Core) (n : Nat) : (c.logWrites n).tok = c.tok := by
  unfold Core.logWrites; split <;> rfl
@[simp] theorem Core.logWrites_pend (c : Core) (n : Nat) : (c.logWrites n).pend = c.pend := by
  unfold Core.logWrites; split <;> rfl
@[simp] theorem Core.logWrites_owed (c : Core) (n : Nat) : (c.logWrites n).owed = c.owed := by
  unfold Core.logWrites; split <;> rfl
@[simp] theorem Core.logWrites_fresh (c : Core) (n : Nat) : (c.logWrites n).fresh = c.fresh := by
  unfold Core.logWrites; split <;> rfl
@[simp] theorem Core.logWrites_gone (c : Core) (n : Nat) : (c.logWrites n).gone = c.gone := by
  unfold Core.logWrites; split <;> rfl
@[simp] theorem Core.logWrites_loops (c : Core) (n : Nat) : (c.logWrites n).loops = c.loops := by
  unfold Core.logWrites; split <;> rfl
@[simp] theorem Core.logWrites_pc (c : Core) (n : Nat) : (c.logWrites n).pc = c.pc := by
  unfold Core.logWrites; split <;> rfl
@[simp] theorem Core.logWrites_seq (c : Core) (n : Nat) : (c.logWrites n).seq = c.seq := by
  unfold Core.logWrites; split <;> rfl
@[simp] theorem Core.logWrites_arrived (c : Core) (n : Nat) : (c.logWrites n).arrived = c.arrived := by
  unfold Core.logWrites; split <;> rfl
@[simp] theorem Core.logWrites_hold (c : Core) (n : Nat) : (c.logWrites n).hold = c.hold := by
  unfold Core.logWrites; split <;> rfl
@[simp] theorem Core.logWrites_stopped (c : Core) (n : Nat) : (c.logWrites n).stopped = c.stopped := by
  unfold Core.logWrites; split <;> rfl
@[simp] theorem Core.logWrites_monitor (c : Core) (n : Nat) : (c.logWrites n).monitor = c.monitor := by
  unfold Core.logWrites; split <;> rfl
@[simp] theorem Core.logWrites_ports (c : Core) (n : Nat) : (c.logWrites n).ports = c.ports := by
  unfold Core.logWrites; split <;> rfl
@[simp] theorem Core.logWrites_pushes (c : Core) (n : Nat) : (c.logWrites n).pushes = c.pushes := by
  unfold Core.logWrites; split <;> rfl
@[simp] theorem Core.logWrites_stores (c : Core) (n : Nat) : (c.logWrites n).stores = c.stores := by
  unfold Core.logWrites; split <;> rfl
@[simp] theorem Core.logWrites_waiting (c : Core) (n : Nat) : (c.logWrites n).waiting = c.waiting := by
  unfold Core.logWrites; split <;> rfl
@[simp] theorem Core.logWrites_xwait (c : Core) (n : Nat) : (c.logWrites n).xwait = c.xwait := by
  unfold Core.logWrites; split <;> rfl
@[simp] theorem Core.logWrites_fwait (c : Core) (n : Nat) : (c.logWrites n).fwait = c.fwait := by
  unfold Core.logWrites; split <;> rfl
@[simp] theorem Core.logWrites_ahead (c : Core) (n : Nat) : (c.logWrites n).ahead = c.ahead := by
  unfold Core.logWrites; split <;> rfl
@[simp] theorem Core.logWrites_remote (c : Core) (n : Nat) : (c.logWrites n).remote = c.remote := by
  unfold Core.logWrites; split <;> rfl
@[simp] theorem Core.logWrites_steps (c : Core) (n : Nat) : (c.logWrites n).steps = c.steps := by
  unfold Core.logWrites; split <;> rfl
@[simp] theorem Core.logWrites_xfers (c : Core) (n : Nat) : (c.logWrites n).xfers = c.xfers := by
  unfold Core.logWrites; split <;> rfl
@[simp] theorem Core.logWrites_blocked (c : Core) (n : Nat) : (c.logWrites n).blocked = c.blocked := by
  unfold Core.logWrites; split <;> rfl
@[simp] theorem Core.logWrites_lastStep (c : Core) (n : Nat) : (c.logWrites n).lastStep = c.lastStep := by
  unfold Core.logWrites; split <;> rfl
@[simp] theorem Core.logWrites_tref (c : Core) (n : Nat) : (c.logWrites n).tref = c.tref := by
  unfold Core.logWrites; split <;> rfl
@[simp] theorem Core.logWrites_tvalid (c : Core) (n : Nat) : (c.logWrites n).tvalid = c.tvalid := by
  unfold Core.logWrites; split <;> rfl
@[simp] theorem Core.logWrites_wreq (c : Core) (n : Nat) : (c.logWrites n).wreq = c.wreq := by
  unfold Core.logWrites; split <;> rfl
@[simp] theorem Core.logWrites_stall (c : Core) (n : Nat) : (c.logWrites n).stall = c.stall := by
  unfold Core.logWrites; split <;> rfl
@[simp] theorem Core.logWrites_wrapped (c : Core) (n : Nat) : (c.logWrites n).wrapped = c.wrapped := by
  unfold Core.logWrites; split <;> rfl
@[simp] theorem Core.logWrites_pending (c : Core) (n : Nat) : (c.logWrites n).pending = c.pending := by
  unfold Core.logWrites; split <;> rfl
@[simp] theorem Core.logWrites_cut (c : Core) (n : Nat) : (c.logWrites n).cut = c.cut := by
  unfold Core.logWrites; split <;> rfl
@[simp] theorem Core.logWrites_abandon (c : Core) (n : Nat) : (c.logWrites n).abandon = c.abandon := by
  unfold Core.logWrites; split <;> rfl
@[simp] theorem Core.logWrites_wsel (c : Core) (n : Nat) : (c.logWrites n).wsel = c.wsel := by
  unfold Core.logWrites; split <;> rfl
@[simp] theorem Core.logWrites_tr1 (c : Core) (n : Nat) : (c.logWrites n).tr1 = c.tr1 := by
  unfold Core.logWrites; split <;> rfl
@[simp] theorem Core.logWrites_tr2 (c : Core) (n : Nat) : (c.logWrites n).tr2 = c.tr2 := by
  unfold Core.logWrites; split <;> rfl
@[simp] theorem Core.logWrites_tepc2 (c : Core) (n : Nat) : (c.logWrites n).tepc2 = c.tepc2 := by
  unfold Core.logWrites; split <;> rfl
@[simp] theorem Core.logWrites_missKiln (c : Core) (n : Nat) : (c.logWrites n).missKiln = c.missKiln := by
  unfold Core.logWrites; split <;> rfl
@[simp] theorem Core.logWrites_fsyn1 (c : Core) (n : Nat) : (c.logWrites n).fsyn1 = c.fsyn1 := by
  unfold Core.logWrites; split <;> rfl
@[simp] theorem Core.logWrites_fva1 (c : Core) (n : Nat) : (c.logWrites n).fva1 = c.fva1 := by
  unfold Core.logWrites; split <;> rfl
@[simp] theorem Core.logWrites_fsyn2 (c : Core) (n : Nat) : (c.logWrites n).fsyn2 = c.fsyn2 := by
  unfold Core.logWrites; split <;> rfl
@[simp] theorem Core.logWrites_fva2 (c : Core) (n : Nat) : (c.logWrites n).fva2 = c.fva2 := by
  unfold Core.logWrites; split <;> rfl
@[simp] theorem Core.logWrites_fipa2 (c : Core) (n : Nat) : (c.logWrites n).fipa2 = c.fipa2 := by
  unfold Core.logWrites; split <;> rfl
@[simp] theorem Core.logWrites_records (c : Core) (n : Nat) : (c.logWrites n).records = c.records := by
  unfold Core.logWrites; split <;> rfl
@[simp] theorem Core.logWrites_recOvf (c : Core) (n : Nat) : (c.logWrites n).recOvf = c.recOvf := by
  unfold Core.logWrites; split <;> rfl
@[simp] theorem Core.logWrites_flips (c : Core) (n : Nat) : (c.logWrites n).flips = c.flips := by
  unfold Core.logWrites; split <;> rfl
@[simp] theorem Core.logWrites_pfdrop (c : Core) (n : Nat) : (c.logWrites n).pfdrop = c.pfdrop := by
  unfold Core.logWrites; split <;> rfl
@[simp] theorem Core.logWrites_icache (c : Core) (n : Nat) : (c.logWrites n).icache = c.icache := by
  unfold Core.logWrites; split <;> rfl
@[simp] theorem Core.logWrites_l1 (c : Core) (n : Nat) : (c.logWrites n).l1 = c.l1 := by
  unfold Core.logWrites; split <;> rfl
@[simp] theorem Core.logWrites_tlb (c : Core) (n : Nat) : (c.logWrites n).tlb = c.tlb := by
  unfold Core.logWrites; split <;> rfl
@[simp] theorem Core.logWrites_xtlb (c : Core) (n : Nat) : (c.logWrites n).xtlb = c.xtlb := by
  unfold Core.logWrites; split <;> rfl
@[simp] theorem Core.logWrites_seed (c : Core) (n : Nat) : (c.logWrites n).seed = c.seed := by
  unfold Core.logWrites; split <;> rfl
@[simp] theorem Core.logWrites_known (c : Core) (n : Nat) : (c.logWrites n).known = c.known := by
  unfold Core.logWrites; split <;> rfl
@[simp] theorem Core.logWrites_job (c : Core) (n : Nat) : (c.logWrites n).job = c.job := by
  unfold Core.logWrites; split <;> rfl
@[simp] theorem Core.logWrites_xasked (c : Core) (n : Nat) : (c.logWrites n).xasked = c.xasked := by
  unfold Core.logWrites; split <;> rfl
@[simp] theorem Core.logWrites_invals (c : Core) (n : Nat) : (c.logWrites n).invals = c.invals := by
  unfold Core.logWrites; split <;> rfl
@[simp] theorem Core.logWrites_synced (c : Core) (n : Nat) : (c.logWrites n).synced = c.synced := by
  unfold Core.logWrites; split <;> rfl
@[simp] theorem Core.logWrites_index (c : Core) (n : Nat) : (c.logWrites n).index = c.index := by
  unfold Core.logWrites; split <;> rfl
@[simp] theorem Core.logWrites_spres (c : Core) (n : Nat) : (c.logWrites n).spres = c.spres := by
  unfold Core.logWrites; split <;> rfl
@[simp] theorem Core.logWrites_timed (c : Core) (n : Nat) : (c.logWrites n).timed = c.timed := by
  unfold Core.logWrites; split <;> rfl
@[simp] theorem Core.logWrites_products (c : Core) (n : Nat) : (c.logWrites n).products = c.products := by
  unfold Core.logWrites; split <;> rfl
@[simp] theorem Core.logWrites_boundary (c : Core) (n : Nat) : (c.logWrites n).boundary = c.boundary := by
  unfold Core.logWrites; split <;> rfl
@[simp] theorem Core.advance_state (c : Core) (st : Stream) (k : Ctl) : (c.advance st k).state = c.state := by
  cases k <;> rfl
@[simp] theorem Core.advance_retired (c : Core) (st : Stream) (k : Ctl) : (c.advance st k).retired = c.retired := by
  cases k <;> rfl
@[simp] theorem Core.advance_before (c : Core) (st : Stream) (k : Ctl) : (c.advance st k).before = c.before := by
  cases k <;> rfl
@[simp] theorem Core.advance_again (c : Core) (st : Stream) (k : Ctl) : (c.advance st k).again = c.again := by
  cases k <;> rfl
@[simp] theorem Core.advance_pl (c : Core) (st : Stream) (k : Ctl) : (c.advance st k).pl = c.pl := by
  cases k <;> rfl
@[simp] theorem Core.advance_part (c : Core) (st : Stream) (k : Ctl) : (c.advance st k).part = c.part := by
  cases k <;> rfl
@[simp] theorem Core.advance_vf (c : Core) (st : Stream) (k : Ctl) : (c.advance st k).vf = c.vf := by
  cases k <;> rfl
@[simp] theorem Core.advance_pasid (c : Core) (st : Stream) (k : Ctl) : (c.advance st k).pasid = c.pasid := by
  cases k <;> rfl
@[simp] theorem Core.advance_jobPasid (c : Core) (st : Stream) (k : Ctl) : (c.advance st k).jobPasid = c.jobPasid := by
  cases k <;> rfl
@[simp] theorem Core.advance_g (c : Core) (st : Stream) (k : Ctl) : (c.advance st k).g = c.g := by
  cases k <;> rfl
@[simp] theorem Core.advance_cx (c : Core) (st : Stream) (k : Ctl) : (c.advance st k).cx = c.cx := by
  cases k <;> rfl
@[simp] theorem Core.advance_cm (c : Core) (st : Stream) (k : Ctl) : (c.advance st k).cm = c.cm := by
  cases k <;> rfl
@[simp] theorem Core.advance_cv (c : Core) (st : Stream) (k : Ctl) : (c.advance st k).cv = c.cv := by
  cases k <;> rfl
@[simp] theorem Core.advance_v (c : Core) (st : Stream) (k : Ctl) : (c.advance st k).v = c.v := by
  cases k <;> rfl
@[simp] theorem Core.advance_vshape (c : Core) (st : Stream) (k : Ctl) : (c.advance st k).vshape = c.vshape := by
  cases k <;> rfl
@[simp] theorem Core.advance_acc (c : Core) (st : Stream) (k : Ctl) : (c.advance st k).acc = c.acc := by
  cases k <;> rfl
@[simp] theorem Core.advance_td (c : Core) (st : Stream) (k : Ctl) : (c.advance st k).td = c.td := by
  cases k <;> rfl
@[simp] theorem Core.advance_st (c : Core) (st : Stream) (k : Ctl) : (c.advance st k).st = c.st := by
  cases k <;> rfl
@[simp] theorem Core.advance_mp (c : Core) (st : Stream) (k : Ctl) : (c.advance st k).mp = c.mp := by
  cases k <;> rfl
@[simp] theorem Core.advance_mesh (c : Core) (st : Stream) (k : Ctl) : (c.advance st k).mesh = c.mesh := by
  cases k <;> rfl
@[simp] theorem Core.advance_rl (c : Core) (st : Stream) (k : Ctl) : (c.advance st k).rl = c.rl := by
  cases k <;> rfl
@[simp] theorem Core.advance_bar (c : Core) (st : Stream) (k : Ctl) : (c.advance st k).bar = c.bar := by
  cases k <;> rfl
@[simp] theorem Core.advance_frit (c : Core) (st : Stream) (k : Ctl) : (c.advance st k).frit = c.frit := by
  cases k <;> rfl
@[simp] theorem Core.advance_marker (c : Core) (st : Stream) (k : Ctl) : (c.advance st k).marker = c.marker := by
  cases k <;> rfl
@[simp] theorem Core.advance_decoded (c : Core) (st : Stream) (k : Ctl) : (c.advance st k).decoded = c.decoded := by
  cases k <;> rfl
@[simp] theorem Core.advance_wq (c : Core) (st : Stream) (k : Ctl) : (c.advance st k).wq = c.wq := by
  cases k <;> rfl
@[simp] theorem Core.advance_sq (c : Core) (st : Stream) (k : Ctl) : (c.advance st k).sq = c.sq := by
  cases k <;> rfl
@[simp] theorem Core.advance_fills (c : Core) (st : Stream) (k : Ctl) : (c.advance st k).fills = c.fills := by
  cases k <;> rfl
@[simp] theorem Core.advance_tok (c : Core) (st : Stream) (k : Ctl) : (c.advance st k).tok = c.tok := by
  cases k <;> rfl
@[simp] theorem Core.advance_pend (c : Core) (st : Stream) (k : Ctl) : (c.advance st k).pend = c.pend := by
  cases k <;> rfl
@[simp] theorem Core.advance_owed (c : Core) (st : Stream) (k : Ctl) : (c.advance st k).owed = c.owed := by
  cases k <;> rfl
@[simp] theorem Core.advance_fresh (c : Core) (st : Stream) (k : Ctl) : (c.advance st k).fresh = c.fresh := by
  cases k <;> rfl
@[simp] theorem Core.advance_gone (c : Core) (st : Stream) (k : Ctl) : (c.advance st k).gone = c.gone := by
  cases k <;> rfl
@[simp] theorem Core.advance_stopped (c : Core) (st : Stream) (k : Ctl) : (c.advance st k).stopped = c.stopped := by
  cases k <;> rfl
@[simp] theorem Core.advance_monitor (c : Core) (st : Stream) (k : Ctl) : (c.advance st k).monitor = c.monitor := by
  cases k <;> rfl
@[simp] theorem Core.advance_ports (c : Core) (st : Stream) (k : Ctl) : (c.advance st k).ports = c.ports := by
  cases k <;> rfl
@[simp] theorem Core.advance_logged (c : Core) (st : Stream) (k : Ctl) : (c.advance st k).logged = c.logged := by
  cases k <;> rfl
@[simp] theorem Core.advance_pushes (c : Core) (st : Stream) (k : Ctl) : (c.advance st k).pushes = c.pushes := by
  cases k <;> rfl
@[simp] theorem Core.advance_stores (c : Core) (st : Stream) (k : Ctl) : (c.advance st k).stores = c.stores := by
  cases k <;> rfl
@[simp] theorem Core.advance_waiting (c : Core) (st : Stream) (k : Ctl) : (c.advance st k).waiting = c.waiting := by
  cases k <;> rfl
@[simp] theorem Core.advance_xwait (c : Core) (st : Stream) (k : Ctl) : (c.advance st k).xwait = c.xwait := by
  cases k <;> rfl
@[simp] theorem Core.advance_fwait (c : Core) (st : Stream) (k : Ctl) : (c.advance st k).fwait = c.fwait := by
  cases k <;> rfl
@[simp] theorem Core.advance_ahead (c : Core) (st : Stream) (k : Ctl) : (c.advance st k).ahead = c.ahead := by
  cases k <;> rfl
@[simp] theorem Core.advance_remote (c : Core) (st : Stream) (k : Ctl) : (c.advance st k).remote = c.remote := by
  cases k <;> rfl
@[simp] theorem Core.advance_steps (c : Core) (st : Stream) (k : Ctl) : (c.advance st k).steps = c.steps := by
  cases k <;> rfl
@[simp] theorem Core.advance_xfers (c : Core) (st : Stream) (k : Ctl) : (c.advance st k).xfers = c.xfers := by
  cases k <;> rfl
@[simp] theorem Core.advance_blocked (c : Core) (st : Stream) (k : Ctl) : (c.advance st k).blocked = c.blocked := by
  cases k <;> rfl
@[simp] theorem Core.advance_lastStep (c : Core) (st : Stream) (k : Ctl) : (c.advance st k).lastStep = c.lastStep := by
  cases k <;> rfl
@[simp] theorem Core.advance_tref (c : Core) (st : Stream) (k : Ctl) : (c.advance st k).tref = c.tref := by
  cases k <;> rfl
@[simp] theorem Core.advance_tvalid (c : Core) (st : Stream) (k : Ctl) : (c.advance st k).tvalid = c.tvalid := by
  cases k <;> rfl
@[simp] theorem Core.advance_wreq (c : Core) (st : Stream) (k : Ctl) : (c.advance st k).wreq = c.wreq := by
  cases k <;> rfl
@[simp] theorem Core.advance_wrapped (c : Core) (st : Stream) (k : Ctl) : (c.advance st k).wrapped = c.wrapped := by
  cases k <;> rfl
@[simp] theorem Core.advance_pending (c : Core) (st : Stream) (k : Ctl) : (c.advance st k).pending = c.pending := by
  cases k <;> rfl
@[simp] theorem Core.advance_cut (c : Core) (st : Stream) (k : Ctl) : (c.advance st k).cut = c.cut := by
  cases k <;> rfl
@[simp] theorem Core.advance_abandon (c : Core) (st : Stream) (k : Ctl) : (c.advance st k).abandon = c.abandon := by
  cases k <;> rfl
@[simp] theorem Core.advance_wsel (c : Core) (st : Stream) (k : Ctl) : (c.advance st k).wsel = c.wsel := by
  cases k <;> rfl
@[simp] theorem Core.advance_tr1 (c : Core) (st : Stream) (k : Ctl) : (c.advance st k).tr1 = c.tr1 := by
  cases k <;> rfl
@[simp] theorem Core.advance_tr2 (c : Core) (st : Stream) (k : Ctl) : (c.advance st k).tr2 = c.tr2 := by
  cases k <;> rfl
@[simp] theorem Core.advance_tepc2 (c : Core) (st : Stream) (k : Ctl) : (c.advance st k).tepc2 = c.tepc2 := by
  cases k <;> rfl
@[simp] theorem Core.advance_missKiln (c : Core) (st : Stream) (k : Ctl) : (c.advance st k).missKiln = c.missKiln := by
  cases k <;> rfl
@[simp] theorem Core.advance_fsyn1 (c : Core) (st : Stream) (k : Ctl) : (c.advance st k).fsyn1 = c.fsyn1 := by
  cases k <;> rfl
@[simp] theorem Core.advance_fva1 (c : Core) (st : Stream) (k : Ctl) : (c.advance st k).fva1 = c.fva1 := by
  cases k <;> rfl
@[simp] theorem Core.advance_fsyn2 (c : Core) (st : Stream) (k : Ctl) : (c.advance st k).fsyn2 = c.fsyn2 := by
  cases k <;> rfl
@[simp] theorem Core.advance_fva2 (c : Core) (st : Stream) (k : Ctl) : (c.advance st k).fva2 = c.fva2 := by
  cases k <;> rfl
@[simp] theorem Core.advance_fipa2 (c : Core) (st : Stream) (k : Ctl) : (c.advance st k).fipa2 = c.fipa2 := by
  cases k <;> rfl
@[simp] theorem Core.advance_records (c : Core) (st : Stream) (k : Ctl) : (c.advance st k).records = c.records := by
  cases k <;> rfl
@[simp] theorem Core.advance_recOvf (c : Core) (st : Stream) (k : Ctl) : (c.advance st k).recOvf = c.recOvf := by
  cases k <;> rfl
@[simp] theorem Core.advance_flips (c : Core) (st : Stream) (k : Ctl) : (c.advance st k).flips = c.flips := by
  cases k <;> rfl
@[simp] theorem Core.advance_pfdrop (c : Core) (st : Stream) (k : Ctl) : (c.advance st k).pfdrop = c.pfdrop := by
  cases k <;> rfl
@[simp] theorem Core.advance_icache (c : Core) (st : Stream) (k : Ctl) : (c.advance st k).icache = c.icache := by
  cases k <;> rfl
@[simp] theorem Core.advance_l1 (c : Core) (st : Stream) (k : Ctl) : (c.advance st k).l1 = c.l1 := by
  cases k <;> rfl
@[simp] theorem Core.advance_tlb (c : Core) (st : Stream) (k : Ctl) : (c.advance st k).tlb = c.tlb := by
  cases k <;> rfl
@[simp] theorem Core.advance_xtlb (c : Core) (st : Stream) (k : Ctl) : (c.advance st k).xtlb = c.xtlb := by
  cases k <;> rfl
@[simp] theorem Core.advance_seed (c : Core) (st : Stream) (k : Ctl) : (c.advance st k).seed = c.seed := by
  cases k <;> rfl
@[simp] theorem Core.advance_known (c : Core) (st : Stream) (k : Ctl) : (c.advance st k).known = c.known := by
  cases k <;> rfl
@[simp] theorem Core.advance_job (c : Core) (st : Stream) (k : Ctl) : (c.advance st k).job = c.job := by
  cases k <;> rfl
@[simp] theorem Core.advance_xasked (c : Core) (st : Stream) (k : Ctl) : (c.advance st k).xasked = c.xasked := by
  cases k <;> rfl
@[simp] theorem Core.advance_invals (c : Core) (st : Stream) (k : Ctl) : (c.advance st k).invals = c.invals := by
  cases k <;> rfl
@[simp] theorem Core.advance_synced (c : Core) (st : Stream) (k : Ctl) : (c.advance st k).synced = c.synced := by
  cases k <;> rfl
@[simp] theorem Core.advance_index (c : Core) (st : Stream) (k : Ctl) : (c.advance st k).index = c.index := by
  cases k <;> rfl
@[simp] theorem Core.advance_spres (c : Core) (st : Stream) (k : Ctl) : (c.advance st k).spres = c.spres := by
  cases k <;> rfl
@[simp] theorem Core.advance_timed (c : Core) (st : Stream) (k : Ctl) : (c.advance st k).timed = c.timed := by
  cases k <;> rfl
@[simp] theorem Core.advance_products (c : Core) (st : Stream) (k : Ctl) : (c.advance st k).products = c.products := by
  cases k <;> rfl
@[simp] theorem Core.advance_boundary (c : Core) (st : Stream) (k : Ctl) : (c.advance st k).boundary = c.boundary := by
  cases k <;> rfl

end Sys2Proof.Machine
end

