-- ==== Sys2Proof/Laws/Dispatch.lean ====
section
/-! SUPPORT. The arm of each row: what `exec` calls for it. -/

namespace Sys2Proof.Machine

@[simp] theorem exec_add (gd : BitVec 5) (gs1 : BitVec 5) (gs2 : BitVec 5) (s : State) : exec (.add gd gs1 gs2) s = execAdd gd gs1 gs2 s := rfl
@[simp] theorem exec_sub (gd : BitVec 5) (gs1 : BitVec 5) (gs2 : BitVec 5) (s : State) : exec (.sub gd gs1 gs2) s = execSub gd gs1 gs2 s := rfl
@[simp] theorem exec_mul (gd : BitVec 5) (gs1 : BitVec 5) (gs2 : BitVec 5) (s : State) : exec (.mul gd gs1 gs2) s = execMul gd gs1 gs2 s := rfl
@[simp] theorem exec_mulh (gd : BitVec 5) (gs1 : BitVec 5) (gs2 : BitVec 5) (s : State) : exec (.mulh gd gs1 gs2) s = execMulh gd gs1 gs2 s := rfl
@[simp] theorem exec_mulhu (gd : BitVec 5) (gs1 : BitVec 5) (gs2 : BitVec 5) (s : State) : exec (.mulhu gd gs1 gs2) s = execMulhu gd gs1 gs2 s := rfl
@[simp] theorem exec_madd (gd : BitVec 5) (gs1 : BitVec 5) (gs2 : BitVec 5) (s : State) : exec (.madd gd gs1 gs2) s = execMadd gd gs1 gs2 s := rfl
@[simp] theorem exec_div (gd : BitVec 5) (gs1 : BitVec 5) (gs2 : BitVec 5) (s : State) : exec (.div gd gs1 gs2) s = execDiv gd gs1 gs2 s := rfl
@[simp] theorem exec_divu (gd : BitVec 5) (gs1 : BitVec 5) (gs2 : BitVec 5) (s : State) : exec (.divu gd gs1 gs2) s = execDivu gd gs1 gs2 s := rfl
@[simp] theorem exec_rem (gd : BitVec 5) (gs1 : BitVec 5) (gs2 : BitVec 5) (s : State) : exec (.rem gd gs1 gs2) s = execRem gd gs1 gs2 s := rfl
@[simp] theorem exec_remu (gd : BitVec 5) (gs1 : BitVec 5) (gs2 : BitVec 5) (s : State) : exec (.remu gd gs1 gs2) s = execRemu gd gs1 gs2 s := rfl
@[simp] theorem exec_and (gd : BitVec 5) (gs1 : BitVec 5) (gs2 : BitVec 5) (s : State) : exec (.and gd gs1 gs2) s = execAnd gd gs1 gs2 s := rfl
@[simp] theorem exec_or (gd : BitVec 5) (gs1 : BitVec 5) (gs2 : BitVec 5) (s : State) : exec (.or gd gs1 gs2) s = execOr gd gs1 gs2 s := rfl
@[simp] theorem exec_xor (gd : BitVec 5) (gs1 : BitVec 5) (gs2 : BitVec 5) (s : State) : exec (.xor gd gs1 gs2) s = execXor gd gs1 gs2 s := rfl
@[simp] theorem exec_andn (gd : BitVec 5) (gs1 : BitVec 5) (gs2 : BitVec 5) (s : State) : exec (.andn gd gs1 gs2) s = execAndn gd gs1 gs2 s := rfl
@[simp] theorem exec_shl (gd : BitVec 5) (gs1 : BitVec 5) (gs2 : BitVec 5) (s : State) : exec (.shl gd gs1 gs2) s = execShl gd gs1 gs2 s := rfl
@[simp] theorem exec_shr (gd : BitVec 5) (gs1 : BitVec 5) (gs2 : BitVec 5) (s : State) : exec (.shr gd gs1 gs2) s = execShr gd gs1 gs2 s := rfl
@[simp] theorem exec_sar (gd : BitVec 5) (gs1 : BitVec 5) (gs2 : BitVec 5) (s : State) : exec (.sar gd gs1 gs2) s = execSar gd gs1 gs2 s := rfl
@[simp] theorem exec_slt (gd : BitVec 5) (gs1 : BitVec 5) (gs2 : BitVec 5) (s : State) : exec (.slt gd gs1 gs2) s = execSlt gd gs1 gs2 s := rfl
@[simp] theorem exec_sltu (gd : BitVec 5) (gs1 : BitVec 5) (gs2 : BitVec 5) (s : State) : exec (.sltu gd gs1 gs2) s = execSltu gd gs1 gs2 s := rfl
@[simp] theorem exec_min (gd : BitVec 5) (gs1 : BitVec 5) (gs2 : BitVec 5) (s : State) : exec (.min gd gs1 gs2) s = execMin gd gs1 gs2 s := rfl
@[simp] theorem exec_max (gd : BitVec 5) (gs1 : BitVec 5) (gs2 : BitVec 5) (s : State) : exec (.max gd gs1 gs2) s = execMax gd gs1 gs2 s := rfl
@[simp] theorem exec_minu (gd : BitVec 5) (gs1 : BitVec 5) (gs2 : BitVec 5) (s : State) : exec (.minu gd gs1 gs2) s = execMinu gd gs1 gs2 s := rfl
@[simp] theorem exec_maxu (gd : BitVec 5) (gs1 : BitVec 5) (gs2 : BitVec 5) (s : State) : exec (.maxu gd gs1 gs2) s = execMaxu gd gs1 gs2 s := rfl
@[simp] theorem exec_clz (gd : BitVec 5) (gs1 : BitVec 5) (s : State) : exec (.clz gd gs1) s = execClz gd gs1 s := rfl
@[simp] theorem exec_popc (gd : BitVec 5) (gs1 : BitVec 5) (s : State) : exec (.popc gd gs1) s = execPopc gd gs1 s := rfl
@[simp] theorem exec_sel (gd : BitVec 5) (gs1 : BitVec 5) (gs2 : BitVec 5) (gc : BitVec 5) (s : State) : exec (.sel gd gs1 gs2 gc) s = execSel gd gs1 gs2 gc s := rfl
@[simp] theorem exec_addi (gd : BitVec 5) (gs1 : BitVec 5) (imm : BitVec 15) (s : State) : exec (.addi gd gs1 imm) s = execAddi gd gs1 imm s := rfl
@[simp] theorem exec_andi (gd : BitVec 5) (gs1 : BitVec 5) (imm : BitVec 15) (s : State) : exec (.andi gd gs1 imm) s = execAndi gd gs1 imm s := rfl
@[simp] theorem exec_ori (gd : BitVec 5) (gs1 : BitVec 5) (imm : BitVec 15) (s : State) : exec (.ori gd gs1 imm) s = execOri gd gs1 imm s := rfl
@[simp] theorem exec_xori (gd : BitVec 5) (gs1 : BitVec 5) (imm : BitVec 15) (s : State) : exec (.xori gd gs1 imm) s = execXori gd gs1 imm s := rfl
@[simp] theorem exec_slti (gd : BitVec 5) (gs1 : BitVec 5) (imm : BitVec 15) (s : State) : exec (.slti gd gs1 imm) s = execSlti gd gs1 imm s := rfl
@[simp] theorem exec_sltiu (gd : BitVec 5) (gs1 : BitVec 5) (imm : BitVec 15) (s : State) : exec (.sltiu gd gs1 imm) s = execSltiu gd gs1 imm s := rfl
@[simp] theorem exec_shli (gd : BitVec 5) (gs1 : BitVec 5) (n : BitVec 6) (s : State) : exec (.shli gd gs1 n) s = execShli gd gs1 n s := rfl
@[simp] theorem exec_shri (gd : BitVec 5) (gs1 : BitVec 5) (n : BitVec 6) (s : State) : exec (.shri gd gs1 n) s = execShri gd gs1 n s := rfl
@[simp] theorem exec_sari (gd : BitVec 5) (gs1 : BitVec 5) (n : BitVec 6) (s : State) : exec (.sari gd gs1 n) s = execSari gd gs1 n s := rfl
@[simp] theorem exec_bfx (gd : BitVec 5) (gs1 : BitVec 5) (lsb : BitVec 6) (width : BitVec 7) (s : State) : exec (.bfx gd gs1 lsb width) s = execBfx gd gs1 lsb width s := rfl
@[simp] theorem exec_bfi (gd : BitVec 5) (gs1 : BitVec 5) (lsb : BitVec 6) (width : BitVec 7) (s : State) : exec (.bfi gd gs1 lsb width) s = execBfi gd gs1 lsb width s := rfl
@[simp] theorem exec_lui (gd : BitVec 5) (imm : BitVec 20) (s : State) : exec (.lui gd imm) s = execLui gd imm s := rfl
@[simp] theorem exec_addpc (gd : BitVec 5) (imm : BitVec 20) (s : State) : exec (.addpc gd imm) s = execAddpc gd imm s := rfl
@[simp] theorem exec_ldr (gd : BitVec 5) (imm : BitVec 20) (s : State) : exec (.ldr gd imm) s = execLdr gd imm s := rfl
@[simp] theorem exec_bcc (cond : BitVec 4) (gs1 : BitVec 5) (gs2 : BitVec 5) (off : BitVec 11) (s : State) : exec (.bcc cond gs1 gs2 off) s = execBcc cond gs1 gs2 off s := rfl
@[simp] theorem exec_j (off : BitVec 25) (s : State) : exec (.j off) s = execJ off s := rfl
@[simp] theorem exec_jl (off : BitVec 25) (s : State) : exec (.jl off) s = execJl off s := rfl
@[simp] theorem exec_jr (gs1 : BitVec 5) (imm : BitVec 15) (s : State) : exec (.jr gs1 imm) s = execJr gs1 imm s := rfl
@[simp] theorem exec_jlr (gd : BitVec 5) (gs1 : BitVec 5) (imm : BitVec 15) (s : State) : exec (.jlr gd gs1 imm) s = execJlr gd gs1 imm s := rfl
@[simp] theorem exec_loop (gs1 : BitVec 5) (len : BitVec 15) (s : State) : exec (.loop gs1 len) s = execLoop gs1 len s := rfl
@[simp] theorem exec_loopi (count : BitVec 10) (len : BitVec 10) (s : State) : exec (.loopi count len) s = execLoopi count len s := rfl
@[simp] theorem exec_rend (s : State) : exec (.rend) s = execRend s := rfl
@[simp] theorem exec_nop (s : State) : exec (.nop) s = execNop s := rfl
@[simp] theorem exec_yield (s : State) : exec (.yield) s = execYield s := rfl
@[simp] theorem exec_kread (gd : BitVec 5) (s : State) : exec (.kread gd) s = execKread gd s := rfl
@[simp] theorem exec_pwin (gd : BitVec 5) (gs1 : BitVec 5) (s : State) : exec (.pwin gd gs1) s = execPwin gd gs1 s := rfl
@[simp] theorem exec_tkwait (left : BitVec 1) (right : BitVec 1) (s : State) : exec (.tkwait left right) s = execTkwait left right s := rfl
@[simp] theorem exec_tkpost (left : BitVec 1) (right : BitVec 1) (s : State) : exec (.tkpost left right) s = execTkpost left right s := rfl
@[simp] theorem exec_barInit (gs1 : BitVec 5) (gs2 : BitVec 5) (s : State) : exec (.barInit gs1 gs2) s = execBarInit gs1 gs2 s := rfl
@[simp] theorem exec_barArr (gs1 : BitVec 5) (s : State) : exec (.barArr gs1) s = execBarArr gs1 s := rfl
@[simp] theorem exec_barArrDrop (gs1 : BitVec 5) (s : State) : exec (.barArrDrop gs1) s = execBarArrDrop gs1 s := rfl
@[simp] theorem exec_barArrJoin (gs1 : BitVec 5) (s : State) : exec (.barArrJoin gs1) s = execBarArrJoin gs1 s := rfl
@[simp] theorem exec_barWait (gs1 : BitVec 5) (s : State) : exec (.barWait gs1) s = execBarWait gs1 s := rfl
@[simp] theorem exec_monarm (gbase : BitVec 5) (off : BitVec 10) (s : State) : exec (.monarm gbase off) s = execMonarm gbase off s := rfl
@[simp] theorem exec_mwait (gd : BitVec 5) (gs1 : BitVec 5) (gs2 : BitVec 5) (s : State) : exec (.mwait gd gs1 gs2) s = execMwait gd gs1 gs2 s := rfl
@[simp] theorem exec_mwaitW (gd : BitVec 5) (gs1 : BitVec 5) (gs2 : BitVec 5) (s : State) : exec (.mwaitW gd gs1 gs2) s = execMwaitW gd gs1 gs2 s := rfl
@[simp] theorem exec_fence (scope : BitVec 3) (before : BitVec 4) (after : BitVec 4) (s : State) : exec (.fence scope before after) s = execFence scope before after s := rfl
@[simp] theorem exec_fenceHb (s : State) : exec (.fenceHb) s = execFenceHb s := rfl
@[simp] theorem exec_fenceStk (s : State) : exec (.fenceStk) s = execFenceStk s := rfl
@[simp] theorem exec_ld (gd : BitVec 5) (gbase : BitVec 5) (size : BitVec 3) (order : BitVec 2) (off : BitVec 10) (s : State) : exec (.ld gd gbase size order off) s = execLd gd gbase size order off s := rfl
@[simp] theorem exec_ldu (gd : BitVec 5) (gbase : BitVec 5) (size : BitVec 3) (order : BitVec 2) (off : BitVec 10) (s : State) : exec (.ldu gd gbase size order off) s = execLdu gd gbase size order off s := rfl
@[simp] theorem exec_st (g : BitVec 5) (gbase : BitVec 5) (size : BitVec 3) (order : BitVec 2) (off : BitVec 10) (s : State) : exec (.st g gbase size order off) s = execSt g gbase size order off s := rfl
@[simp] theorem exec_ldq (q : BitVec 2) (gbase : BitVec 5) (order : BitVec 1) (off : BitVec 10) (s : State) : exec (.ldq q gbase order off) s = execLdq q gbase order off s := rfl
@[simp] theorem exec_stq (q : BitVec 1) (gbase : BitVec 5) (order : BitVec 1) (off : BitVec 10) (s : State) : exec (.stq q gbase order off) s = execStq q gbase order off s := rfl
@[simp] theorem exec_pref (level : BitVec 1) (gbase : BitVec 5) (off : BitVec 10) (s : State) : exec (.pref level gbase off) s = execPref level gbase off s := rfl
@[simp] theorem exec_ipref (target : BitVec 2) (gbase : BitVec 5) (off : BitVec 10) (s : State) : exec (.ipref target gbase off) s = execIpref target gbase off s := rfl
@[simp] theorem exec_clean (gbase : BitVec 5) (off : BitVec 10) (s : State) : exec (.clean gbase off) s = execClean gbase off s := rfl
@[simp] theorem exec_invl (gbase : BitVec 5) (off : BitVec 10) (s : State) : exec (.invl gbase off) s = execInvl gbase off s := rfl
@[simp] theorem exec_amoAdd (gd : BitVec 5) (gs1 : BitVec 5) (gs2 : BitVec 5) (size : BitVec 1) (order : BitVec 3) (s : State) : exec (.amoAdd gd gs1 gs2 size order) s = execAmoAdd gd gs1 gs2 size order s := rfl
@[simp] theorem exec_amoAnd (gd : BitVec 5) (gs1 : BitVec 5) (gs2 : BitVec 5) (size : BitVec 1) (order : BitVec 3) (s : State) : exec (.amoAnd gd gs1 gs2 size order) s = execAmoAnd gd gs1 gs2 size order s := rfl
@[simp] theorem exec_amoOr (gd : BitVec 5) (gs1 : BitVec 5) (gs2 : BitVec 5) (size : BitVec 1) (order : BitVec 3) (s : State) : exec (.amoOr gd gs1 gs2 size order) s = execAmoOr gd gs1 gs2 size order s := rfl
@[simp] theorem exec_amoXor (gd : BitVec 5) (gs1 : BitVec 5) (gs2 : BitVec 5) (size : BitVec 1) (order : BitVec 3) (s : State) : exec (.amoXor gd gs1 gs2 size order) s = execAmoXor gd gs1 gs2 size order s := rfl
@[simp] theorem exec_amoMin (gd : BitVec 5) (gs1 : BitVec 5) (gs2 : BitVec 5) (size : BitVec 1) (order : BitVec 3) (s : State) : exec (.amoMin gd gs1 gs2 size order) s = execAmoMin gd gs1 gs2 size order s := rfl
@[simp] theorem exec_amoMax (gd : BitVec 5) (gs1 : BitVec 5) (gs2 : BitVec 5) (size : BitVec 1) (order : BitVec 3) (s : State) : exec (.amoMax gd gs1 gs2 size order) s = execAmoMax gd gs1 gs2 size order s := rfl
@[simp] theorem exec_amoMinu (gd : BitVec 5) (gs1 : BitVec 5) (gs2 : BitVec 5) (size : BitVec 1) (order : BitVec 3) (s : State) : exec (.amoMinu gd gs1 gs2 size order) s = execAmoMinu gd gs1 gs2 size order s := rfl
@[simp] theorem exec_amoMaxu (gd : BitVec 5) (gs1 : BitVec 5) (gs2 : BitVec 5) (size : BitVec 1) (order : BitVec 3) (s : State) : exec (.amoMaxu gd gs1 gs2 size order) s = execAmoMaxu gd gs1 gs2 size order s := rfl
@[simp] theorem exec_amoSwap (gd : BitVec 5) (gs1 : BitVec 5) (gs2 : BitVec 5) (size : BitVec 1) (order : BitVec 3) (s : State) : exec (.amoSwap gd gs1 gs2 size order) s = execAmoSwap gd gs1 gs2 size order s := rfl
@[simp] theorem exec_amoFadd (gd : BitVec 5) (gs1 : BitVec 5) (gs2 : BitVec 5) (order : BitVec 3) (s : State) : exec (.amoFadd gd gs1 gs2 order) s = execAmoFadd gd gs1 gs2 order s := rfl
@[simp] theorem exec_cas (gd : BitVec 5) (gs1 : BitVec 5) (gs2 : BitVec 5) (size : BitVec 1) (order : BitVec 3) (s : State) : exec (.cas gd gs1 gs2 size order) s = execCas gd gs1 gs2 size order s := rfl
@[simp] theorem exec_qputV (gs1 : BitVec 5) (s : State) : exec (.qputV gs1) s = execQputV gs1 s := rfl
@[simp] theorem exec_qputM (gs1 : BitVec 5) (s : State) : exec (.qputM gs1) s = execQputM gs1 s := rfl
@[simp] theorem exec_qputX (gs1 : BitVec 5) (s : State) : exec (.qputX gs1) s = execQputX gs1 s := rfl
@[simp] theorem exec_qget (gd : BitVec 5) (s : State) : exec (.qget gd) s = execQget gd s := rfl
@[simp] theorem exec_rngset (ga : BitVec 5) (gb : BitVec 5) (ring : BitVec 4) (s : State) : exec (.rngset ga gb ring) s = execRngset ga gb ring s := rfl
@[simp] theorem exec_rngstat (ga : BitVec 5) (ring : BitVec 4) (s : State) : exec (.rngstat ga ring) s = execRngstat ga ring s := rfl
@[simp] theorem exec_sdset (ga : BitVec 5) (w : BitVec 2) (ring : BitVec 4) (s : State) : exec (.sdset ga w ring) s = execSdset ga w ring s := rfl
@[simp] theorem exec_sdget (ga : BitVec 5) (w : BitVec 2) (ring : BitVec 4) (s : State) : exec (.sdget ga w ring) s = execSdget ga w ring s := rfl
@[simp] theorem exec_epush (ga : BitVec 5) (port : BitVec 3) (s : State) : exec (.epush ga port) s = execEpush ga port s := rfl
@[simp] theorem exec_epushEnd (ga : BitVec 5) (port : BitVec 3) (s : State) : exec (.epushEnd ga port) s = execEpushEnd ga port s := rfl
@[simp] theorem exec_epop (ga : BitVec 5) (port : BitVec 3) (s : State) : exec (.epop ga port) s = execEpop ga port s := rfl
@[simp] theorem exec_epoll (ga : BitVec 5) (port : BitVec 3) (s : State) : exec (.epoll ga port) s = execEpoll ga port s := rfl
@[simp] theorem exec_estat (ga : BitVec 5) (port : BitVec 3) (s : State) : exec (.estat ga port) s = execEstat ga port s := rfl
@[simp] theorem exec_tlocR (ga : BitVec 5) (gb : BitVec 5) (mp : BitVec 4) (s : State) : exec (.tlocR ga gb mp) s = execTlocR ga gb mp s := rfl
@[simp] theorem exec_tlocD (ga : BitVec 5) (gb : BitVec 5) (mp : BitVec 4) (s : State) : exec (.tlocD ga gb mp) s = execTlocD ga gb mp s := rfl
@[simp] theorem exec_tsmap (ga : BitVec 5) (gb : BitVec 5) (mp : BitVec 4) (s : State) : exec (.tsmap ga gb mp) s = execTsmap ga gb mp s := rfl
@[simp] theorem exec_tmesh (ga : BitVec 5) (s : State) : exec (.tmesh ga) s = execTmesh ga s := rfl
@[simp] theorem exec_reshard (ga : BitVec 5) (gb : BitVec 5) (mps : BitVec 4) (mpd : BitVec 4) (s : State) : exec (.reshard ga gb mps mpd) s = execReshard ga gb mps mpd s := rfl
@[simp] theorem exec_rstat (ga : BitVec 5) (gb : BitVec 5) (s : State) : exec (.rstat ga gb) s = execRstat ga gb s := rfl
@[simp] theorem exec_smv (ga : BitVec 5) (gb : BitVec 5) (ring : BitVec 4) (s : State) : exec (.smv ga gb ring) s = execSmv ga gb ring s := rfl
@[simp] theorem exec_sysr (ga : BitVec 5) (num : BitVec 12) (s : State) : exec (.sysr ga num) s = execSysr ga num s := rfl
@[simp] theorem exec_sysw (ga : BitVec 5) (num : BitVec 12) (s : State) : exec (.sysw ga num) s = execSysw ga num s := rfl
@[simp] theorem exec_ecall (n : BitVec 15) (s : State) : exec (.ecall n) s = execEcall n s := rfl
@[simp] theorem exec_trap (n : BitVec 15) (s : State) : exec (.trap n) s = execTrap n s := rfl
@[simp] theorem exec_tret (s : State) : exec (.tret) s = execTret s := rfl
@[simp] theorem exec_tlbinvVa (ga : BitVec 5) (gb : BitVec 5) (s : State) : exec (.tlbinvVa ga gb) s = execTlbinvVa ga gb s := rfl
@[simp] theorem exec_tlbinvPasid (ga : BitVec 5) (gb : BitVec 5) (s : State) : exec (.tlbinvPasid ga gb) s = execTlbinvPasid ga gb s := rfl
@[simp] theorem exec_tlbinvIpa (ga : BitVec 5) (gb : BitVec 5) (s : State) : exec (.tlbinvIpa ga gb) s = execTlbinvIpa ga gb s := rfl
@[simp] theorem exec_tlbinvPart (ga : BitVec 5) (gb : BitVec 5) (s : State) : exec (.tlbinvPart ga gb) s = execTlbinvPart ga gb s := rfl
@[simp] theorem exec_tlbsync (s : State) : exec (.tlbsync) s = execTlbsync s := rfl
@[simp] theorem exec_icinv (ga : BitVec 5) (mask : BitVec 4) (s : State) : exec (.icinv ga mask) s = execIcinv ga mask s := rfl
@[simp] theorem exec_icinvAll (ga : BitVec 5) (mask : BitVec 4) (s : State) : exec (.icinvAll ga mask) s = execIcinvAll ga mask s := rfl
@[simp] theorem exec_halt (s : State) : exec (.halt) s = execHalt s := rfl
@[simp] theorem exec_vadd (sync : BitVec 4) (vd : BitVec 5) (vs1 : BitVec 5) (vs2 : BitVec 5) (rnd : BitVec 2) (ovf : BitVec 1) (sopd : BitVec 3) (s : State) : exec (.vadd sync vd vs1 vs2 rnd ovf sopd) s = execVadd sync vd vs1 vs2 rnd ovf sopd s := rfl
@[simp] theorem exec_vsub (sync : BitVec 4) (vd : BitVec 5) (vs1 : BitVec 5) (vs2 : BitVec 5) (rnd : BitVec 2) (ovf : BitVec 1) (sopd : BitVec 3) (s : State) : exec (.vsub sync vd vs1 vs2 rnd ovf sopd) s = execVsub sync vd vs1 vs2 rnd ovf sopd s := rfl
@[simp] theorem exec_vmul (sync : BitVec 4) (vd : BitVec 5) (vs1 : BitVec 5) (vs2 : BitVec 5) (rnd : BitVec 2) (ovf : BitVec 1) (sopd : BitVec 3) (s : State) : exec (.vmul sync vd vs1 vs2 rnd ovf sopd) s = execVmul sync vd vs1 vs2 rnd ovf sopd s := rfl
@[simp] theorem exec_vfma (sync : BitVec 4) (vd : BitVec 5) (vs1 : BitVec 5) (vs2 : BitVec 5) (rnd : BitVec 2) (ovf : BitVec 1) (sopd : BitVec 3) (s : State) : exec (.vfma sync vd vs1 vs2 rnd ovf sopd) s = execVfma sync vd vs1 vs2 rnd ovf sopd s := rfl
@[simp] theorem exec_vfms (sync : BitVec 4) (vd : BitVec 5) (vs1 : BitVec 5) (vs2 : BitVec 5) (rnd : BitVec 2) (ovf : BitVec 1) (sopd : BitVec 3) (s : State) : exec (.vfms sync vd vs1 vs2 rnd ovf sopd) s = execVfms sync vd vs1 vs2 rnd ovf sopd s := rfl
@[simp] theorem exec_vmin (sync : BitVec 4) (vd : BitVec 5) (vs1 : BitVec 5) (vs2 : BitVec 5) (sopd : BitVec 3) (s : State) : exec (.vmin sync vd vs1 vs2 sopd) s = execVmin sync vd vs1 vs2 sopd s := rfl
@[simp] theorem exec_vmax (sync : BitVec 4) (vd : BitVec 5) (vs1 : BitVec 5) (vs2 : BitVec 5) (sopd : BitVec 3) (s : State) : exec (.vmax sync vd vs1 vs2 sopd) s = execVmax sync vd vs1 vs2 sopd s := rfl
@[simp] theorem exec_vabs (sync : BitVec 4) (vd : BitVec 5) (vs1 : BitVec 5) (s : State) : exec (.vabs sync vd vs1) s = execVabs sync vd vs1 s := rfl
@[simp] theorem exec_vneg (sync : BitVec 4) (vd : BitVec 5) (vs1 : BitVec 5) (s : State) : exec (.vneg sync vd vs1) s = execVneg sync vd vs1 s := rfl
@[simp] theorem exec_vfrcp (sync : BitVec 4) (vd : BitVec 5) (vs1 : BitVec 5) (s : State) : exec (.vfrcp sync vd vs1) s = execVfrcp sync vd vs1 s := rfl
@[simp] theorem exec_vfrsq (sync : BitVec 4) (vd : BitVec 5) (vs1 : BitVec 5) (s : State) : exec (.vfrsq sync vd vs1) s = execVfrsq sync vd vs1 s := rfl
@[simp] theorem exec_vfexp2 (sync : BitVec 4) (vd : BitVec 5) (vs1 : BitVec 5) (s : State) : exec (.vfexp2 sync vd vs1) s = execVfexp2 sync vd vs1 s := rfl
@[simp] theorem exec_vflog2 (sync : BitVec 4) (vd : BitVec 5) (vs1 : BitVec 5) (s : State) : exec (.vflog2 sync vd vs1) s = execVflog2 sync vd vs1 s := rfl
@[simp] theorem exec_vftanh (sync : BitVec 4) (vd : BitVec 5) (vs1 : BitVec 5) (s : State) : exec (.vftanh sync vd vs1) s = execVftanh sync vd vs1 s := rfl
@[simp] theorem exec_vcmpeq (sync : BitVec 4) (vd : BitVec 5) (vs1 : BitVec 5) (vs2 : BitVec 5) (sopd : BitVec 3) (s : State) : exec (.vcmpeq sync vd vs1 vs2 sopd) s = execVcmpeq sync vd vs1 vs2 sopd s := rfl
@[simp] theorem exec_vcmplt (sync : BitVec 4) (vd : BitVec 5) (vs1 : BitVec 5) (vs2 : BitVec 5) (sopd : BitVec 3) (s : State) : exec (.vcmplt sync vd vs1 vs2 sopd) s = execVcmplt sync vd vs1 vs2 sopd s := rfl
@[simp] theorem exec_vcmple (sync : BitVec 4) (vd : BitVec 5) (vs1 : BitVec 5) (vs2 : BitVec 5) (sopd : BitVec 3) (s : State) : exec (.vcmple sync vd vs1 vs2 sopd) s = execVcmple sync vd vs1 vs2 sopd s := rfl
@[simp] theorem exec_vsel (sync : BitVec 4) (vd : BitVec 5) (vs1 : BitVec 5) (vs2 : BitVec 5) (sopd : BitVec 3) (s : State) : exec (.vsel sync vd vs1 vs2 sopd) s = execVsel sync vd vs1 vs2 sopd s := rfl
@[simp] theorem exec_viadd (sync : BitVec 4) (vd : BitVec 5) (vs1 : BitVec 5) (vs2 : BitVec 5) (sopd : BitVec 3) (s : State) : exec (.viadd sync vd vs1 vs2 sopd) s = execViadd sync vd vs1 vs2 sopd s := rfl
@[simp] theorem exec_visub (sync : BitVec 4) (vd : BitVec 5) (vs1 : BitVec 5) (vs2 : BitVec 5) (sopd : BitVec 3) (s : State) : exec (.visub sync vd vs1 vs2 sopd) s = execVisub sync vd vs1 vs2 sopd s := rfl
@[simp] theorem exec_vimul (sync : BitVec 4) (vd : BitVec 5) (vs1 : BitVec 5) (vs2 : BitVec 5) (sopd : BitVec 3) (s : State) : exec (.vimul sync vd vs1 vs2 sopd) s = execVimul sync vd vs1 vs2 sopd s := rfl
@[simp] theorem exec_vimin (sync : BitVec 4) (vd : BitVec 5) (vs1 : BitVec 5) (vs2 : BitVec 5) (sopd : BitVec 3) (s : State) : exec (.vimin sync vd vs1 vs2 sopd) s = execVimin sync vd vs1 vs2 sopd s := rfl
@[simp] theorem exec_vimax (sync : BitVec 4) (vd : BitVec 5) (vs1 : BitVec 5) (vs2 : BitVec 5) (sopd : BitVec 3) (s : State) : exec (.vimax sync vd vs1 vs2 sopd) s = execVimax sync vd vs1 vs2 sopd s := rfl
@[simp] theorem exec_vand (sync : BitVec 4) (vd : BitVec 5) (vs1 : BitVec 5) (vs2 : BitVec 5) (sopd : BitVec 3) (s : State) : exec (.vand sync vd vs1 vs2 sopd) s = execVand sync vd vs1 vs2 sopd s := rfl
@[simp] theorem exec_vor (sync : BitVec 4) (vd : BitVec 5) (vs1 : BitVec 5) (vs2 : BitVec 5) (sopd : BitVec 3) (s : State) : exec (.vor sync vd vs1 vs2 sopd) s = execVor sync vd vs1 vs2 sopd s := rfl
@[simp] theorem exec_vxor (sync : BitVec 4) (vd : BitVec 5) (vs1 : BitVec 5) (vs2 : BitVec 5) (sopd : BitVec 3) (s : State) : exec (.vxor sync vd vs1 vs2 sopd) s = execVxor sync vd vs1 vs2 sopd s := rfl
@[simp] theorem exec_vshl (sync : BitVec 4) (vd : BitVec 5) (vs1 : BitVec 5) (vs2 : BitVec 5) (sopd : BitVec 3) (s : State) : exec (.vshl sync vd vs1 vs2 sopd) s = execVshl sync vd vs1 vs2 sopd s := rfl
@[simp] theorem exec_vshr (sync : BitVec 4) (vd : BitVec 5) (vs1 : BitVec 5) (vs2 : BitVec 5) (sopd : BitVec 3) (s : State) : exec (.vshr sync vd vs1 vs2 sopd) s = execVshr sync vd vs1 vs2 sopd s := rfl
@[simp] theorem exec_vsar (sync : BitVec 4) (vd : BitVec 5) (vs1 : BitVec 5) (vs2 : BitVec 5) (sopd : BitVec 3) (s : State) : exec (.vsar sync vd vs1 vs2 sopd) s = execVsar sync vd vs1 vs2 sopd s := rfl
@[simp] theorem exec_vcvt (sync : BitVec 4) (vd : BitVec 5) (vs1 : BitVec 5) (fmt : BitVec 5) (rnd : BitVec 2) (ovf : BitVec 1) (inf : BitVec 1) (s : State) : exec (.vcvt sync vd vs1 fmt rnd ovf inf) s = execVcvt sync vd vs1 fmt rnd ovf inf s := rfl
@[simp] theorem exec_vqnt (sync : BitVec 4) (vd : BitVec 5) (vs1 : BitVec 5) (vs2 : BitVec 5) (rnd : BitVec 2) (ovf : BitVec 1) (inf : BitVec 1) (sopd : BitVec 3) (s : State) : exec (.vqnt sync vd vs1 vs2 rnd ovf inf sopd) s = execVqnt sync vd vs1 vs2 rnd ovf inf sopd s := rfl
@[simp] theorem exec_vdqnt (sync : BitVec 4) (vd : BitVec 5) (vs1 : BitVec 5) (vs2 : BitVec 5) (inf : BitVec 1) (sopd : BitVec 3) (s : State) : exec (.vdqnt sync vd vs1 vs2 inf sopd) s = execVdqnt sync vd vs1 vs2 inf sopd s := rfl
@[simp] theorem exec_vrsum (sync : BitVec 4) (vd : BitVec 5) (vs1 : BitVec 5) (s : State) : exec (.vrsum sync vd vs1) s = execVrsum sync vd vs1 s := rfl
@[simp] theorem exec_vrmax (sync : BitVec 4) (vd : BitVec 5) (vs1 : BitVec 5) (s : State) : exec (.vrmax sync vd vs1) s = execVrmax sync vd vs1 s := rfl
@[simp] theorem exec_vrmin (sync : BitVec 4) (vd : BitVec 5) (vs1 : BitVec 5) (s : State) : exec (.vrmin sync vd vs1) s = execVrmin sync vd vs1 s := rfl
@[simp] theorem exec_vperm (sync : BitVec 4) (vd : BitVec 5) (vs1 : BitVec 5) (vs2 : BitVec 5) (sopd : BitVec 3) (s : State) : exec (.vperm sync vd vs1 vs2 sopd) s = execVperm sync vd vs1 vs2 sopd s := rfl
@[simp] theorem exec_vbcast (sync : BitVec 4) (vd : BitVec 5) (vs1 : BitVec 5) (vs2 : BitVec 5) (sopd : BitVec 3) (s : State) : exec (.vbcast sync vd vs1 vs2 sopd) s = execVbcast sync vd vs1 vs2 sopd s := rfl
@[simp] theorem exec_vrot (sync : BitVec 4) (vd : BitVec 5) (vs1 : BitVec 5) (vs2 : BitVec 5) (sopd : BitVec 3) (s : State) : exec (.vrot sync vd vs1 vs2 sopd) s = execVrot sync vd vs1 vs2 sopd s := rfl
@[simp] theorem exec_vrd (sync : BitVec 4) (vd : BitVec 5) (ring : BitVec 4) (s : State) : exec (.vrd sync vd ring) s = execVrd sync vd ring s := rfl
@[simp] theorem exec_vmov (sync : BitVec 4) (vd : BitVec 5) (vs2 : BitVec 5) (sopd : BitVec 3) (s : State) : exec (.vmov sync vd vs2 sopd) s = execVmov sync vd vs2 sopd s := rfl
@[simp] theorem exec_vext (sync : BitVec 4) (vd : BitVec 5) (vs1 : BitVec 5) (vs2 : BitVec 5) (sopd : BitVec 3) (s : State) : exec (.vext sync vd vs1 vs2 sopd) s = execVext sync vd vs1 vs2 sopd s := rfl
@[simp] theorem exec_vshape (sync : BitVec 4) (vs2 : BitVec 5) (sopd : BitVec 3) (s : State) : exec (.vshape sync vs2 sopd) s = execVshape sync vs2 sopd s := rfl
@[simp] theorem exec_vloop (sync : BitVec 4) (cn : BitVec 4) (len : BitVec 10) (s : State) : exec (.vloop sync cn len) s = execVloop sync cn len s := rfl
@[simp] theorem exec_vbcc (sync : BitVec 4) (cond : BitVec 4) (ca : BitVec 4) (cb : BitVec 4) (off : BitVec 10) (s : State) : exec (.vbcc sync cond ca cb off) s = execVbcc sync cond ca cb off s := rfl
@[simp] theorem exec_vrend (sync : BitVec 4) (s : State) : exec (.vrend sync) s = execVrend sync s := rfl
@[simp] theorem exec_vnop (sync : BitVec 4) (s : State) : exec (.vnop sync) s = execVnop sync s := rfl
@[simp] theorem exec_vcli (sync : BitVec 4) (cd : BitVec 4) (imm : BitVec 18) (s : State) : exec (.vcli sync cd imm) s = execVcli sync cd imm s := rfl
@[simp] theorem exec_vcadd (sync : BitVec 4) (cd : BitVec 4) (ca : BitVec 4) (imm : BitVec 14) (s : State) : exec (.vcadd sync cd ca imm) s = execVcadd sync cd ca imm s := rfl
@[simp] theorem exec_mma (sync : BitVec 4) (acc : BitVec 2) (sta : BitVec 4) (stb : BitVec 4) (ta : BitVec 1) (tb : BitVec 1) (ow : BitVec 1) (pa : BitVec 1) (pb : BitVec 1) (last : BitVec 1) (stamp : BitVec 8) (s : State) : exec (.mma sync acc sta stb ta tb ow pa pb last stamp) s = execMma sync acc sta stb ta tb ow pa pb last stamp s := rfl
@[simp] theorem exec_mmat (sync : BitVec 4) (acc : BitVec 2) (sta : BitVec 4) (stb : BitVec 4) (ta : BitVec 1) (tb : BitVec 1) (ow : BitVec 1) (pa : BitVec 1) (pb : BitVec 1) (last : BitVec 1) (stamp : BitVec 8) (s : State) : exec (.mmat sync acc sta stb ta tb ow pa pb last stamp) s = execMmat sync acc sta stb ta tb ow pa pb last stamp s := rfl
@[simp] theorem exec_mzero (sync : BitVec 4) (acc : BitVec 2) (s : State) : exec (.mzero sync acc) s = execMzero sync acc s := rfl
@[simp] theorem exec_mdrain (sync : BitVec 4) (acc : BitVec 2) (ring : BitVec 4) (last : BitVec 1) (s : State) : exec (.mdrain sync acc ring last) s = execMdrain sync acc ring last s := rfl
@[simp] theorem exec_mfill (sync : BitVec 4) (acc : BitVec 2) (ring : BitVec 4) (pa : BitVec 1) (s : State) : exec (.mfill sync acc ring pa) s = execMfill sync acc ring pa s := rfl
@[simp] theorem exec_macc (sync : BitVec 4) (acc : BitVec 2) (src : BitVec 2) (s : State) : exec (.macc sync acc src) s = execMacc sync acc src s := rfl
@[simp] theorem exec_mstamp (sync : BitVec 4) (s : State) : exec (.mstamp sync) s = execMstamp sync s := rfl
@[simp] theorem exec_mwin (sync : BitVec 4) (n : BitVec 8) (s : State) : exec (.mwin sync n) s = execMwin sync n s := rfl
@[simp] theorem exec_mloop (sync : BitVec 4) (cn : BitVec 4) (len : BitVec 10) (s : State) : exec (.mloop sync cn len) s = execMloop sync cn len s := rfl
@[simp] theorem exec_mbcc (sync : BitVec 4) (cond : BitVec 4) (ca : BitVec 4) (cb : BitVec 4) (off : BitVec 12) (s : State) : exec (.mbcc sync cond ca cb off) s = execMbcc sync cond ca cb off s := rfl
@[simp] theorem exec_mrend (sync : BitVec 4) (s : State) : exec (.mrend sync) s = execMrend sync s := rfl
@[simp] theorem exec_mnop (sync : BitVec 4) (s : State) : exec (.mnop sync) s = execMnop sync s := rfl
@[simp] theorem exec_xtd (sync : BitVec 4) (td : BitVec 3) (cb : BitVec 4) (s : State) : exec (.xtd sync td cb) s = execXtd sync td cb s := rfl
@[simp] theorem exec_xtdi (sync : BitVec 4) (td : BitVec 3) (f : BitVec 4) (imm : BitVec 16) (s : State) : exec (.xtdi sync td f imm) s = execXtdi sync td f imm s := rfl
@[simp] theorem exec_xcopy (sync : BitVec 4) (td : BitVec 3) (ring : BitVec 4) (ci : BitVec 4) (s : State) : exec (.xcopy sync td ring ci) s = execXcopy sync td ring ci s := rfl
@[simp] theorem exec_xput (sync : BitVec 4) (td : BitVec 3) (ring : BitVec 4) (ci : BitVec 4) (s : State) : exec (.xput sync td ring ci) s = execXput sync td ring ci s := rfl
@[simp] theorem exec_xcvt (sync : BitVec 4) (td : BitVec 3) (ring : BitVec 4) (ci : BitVec 4) (fmt : BitVec 5) (rnd : BitVec 2) (ovf : BitVec 1) (inf : BitVec 1) (tr : BitVec 1) (ts : BitVec 1) (s : State) : exec (.xcvt sync td ring ci fmt rnd ovf inf tr ts) s = execXcvt sync td ring ci fmt rnd ovf inf tr ts s := rfl
@[simp] theorem exec_xgath (sync : BitVec 4) (td : BitVec 3) (ring : BitVec 4) (ci : BitVec 4) (sti : BitVec 4) (s : State) : exec (.xgath sync td ring ci sti) s = execXgath sync td ring ci sti s := rfl
@[simp] theorem exec_xscat (sync : BitVec 4) (td : BitVec 3) (ring : BitVec 4) (ci : BitVec 4) (sti : BitVec 4) (s : State) : exec (.xscat sync td ring ci sti) s = execXscat sync td ring ci sti s := rfl
@[simp] theorem exec_xwopen (sync : BitVec 4) (td : BitVec 3) (ring : BitVec 4) (s : State) : exec (.xwopen sync td ring) s = execXwopen sync td ring s := rfl
@[simp] theorem exec_xwadv (sync : BitVec 4) (td : BitVec 3) (ring : BitVec 4) (ci : BitVec 4) (s : State) : exec (.xwadv sync td ring ci) s = execXwadv sync td ring ci s := rfl
@[simp] theorem exec_xkvq (sync : BitVec 4) (td : BitVec 3) (ring : BitVec 4) (ci : BitVec 4) (fmt : BitVec 5) (rnd : BitVec 2) (ovf : BitVec 1) (s : State) : exec (.xkvq sync td ring ci fmt rnd ovf) s = execXkvq sync td ring ci fmt rnd ovf s := rfl
@[simp] theorem exec_xfill (sync : BitVec 4) (td : BitVec 3) (ring : BitVec 4) (ci : BitVec 4) (s : State) : exec (.xfill sync td ring ci) s = execXfill sync td ring ci s := rfl
@[simp] theorem exec_xftl (sync : BitVec 4) (td : BitVec 3) (table : BitVec 3) (s : State) : exec (.xftl sync td table) s = execXftl sync td table s := rfl
@[simp] theorem exec_xpeer (sync : BitVec 4) (td : BitVec 3) (ring : BitVec 4) (ci : BitVec 4) (s : State) : exec (.xpeer sync td ring ci) s = execXpeer sync td ring ci s := rfl
@[simp] theorem exec_xwait (sync : BitVec 4) (td : BitVec 3) (s : State) : exec (.xwait sync td) s = execXwait sync td s := rfl
@[simp] theorem exec_xwaitAll (sync : BitVec 4) (s : State) : exec (.xwaitAll sync) s = execXwaitAll sync s := rfl
@[simp] theorem exec_xqget (sync : BitVec 4) (cd : BitVec 4) (s : State) : exec (.xqget sync cd) s = execXqget sync cd s := rfl
@[simp] theorem exec_xcli (sync : BitVec 4) (cd : BitVec 4) (imm : BitVec 16) (s : State) : exec (.xcli sync cd imm) s = execXcli sync cd imm s := rfl
@[simp] theorem exec_xcadd (sync : BitVec 4) (cd : BitVec 4) (ca : BitVec 4) (imm : BitVec 12) (s : State) : exec (.xcadd sync cd ca imm) s = execXcadd sync cd ca imm s := rfl
@[simp] theorem exec_xcmul (sync : BitVec 4) (cd : BitVec 4) (ca : BitVec 4) (cb : BitVec 4) (s : State) : exec (.xcmul sync cd ca cb) s = execXcmul sync cd ca cb s := rfl
@[simp] theorem exec_xloop (sync : BitVec 4) (cn : BitVec 4) (len : BitVec 10) (s : State) : exec (.xloop sync cn len) s = execXloop sync cn len s := rfl
@[simp] theorem exec_xbcc (sync : BitVec 4) (cond : BitVec 4) (ca : BitVec 4) (cb : BitVec 4) (off : BitVec 8) (s : State) : exec (.xbcc sync cond ca cb off) s = execXbcc sync cond ca cb off s := rfl
@[simp] theorem exec_xrend (sync : BitVec 4) (s : State) : exec (.xrend sync) s = execXrend sync s := rfl
@[simp] theorem exec_xnop (sync : BitVec 4) (s : State) : exec (.xnop sync) s = execXnop sync s := rfl
@[simp] theorem exec_notify (fn queue : Nat) (value : Dword) (s : State) : exec (.notify fn queue value) s = execNotify fn queue value s := rfl
@[simp] theorem exec_queueMap (die slot pqn : Nat) (s : State) : exec (.queueMap die slot pqn) s = execQueueMap die slot pqn s := rfl
@[simp] theorem exec_queueUnmap (die slot : Nat) (s : State) : exec (.queueUnmap die slot) s = execQueueUnmap die slot s := rfl
@[simp] theorem exec_commandFetch (die slot : Nat) (s : State) : exec (.commandFetch die slot) s = execCommandFetch die slot s := rfl
@[simp] theorem exec_nodeDispatch (part : Nat) (s : State) : exec (.nodeDispatch part) s = execNodeDispatch part s := rfl
@[simp] theorem exec_startJob (part die : Nat) (s : State) : exec (.startJob part die) s = execStartJob part die s := rfl
@[simp] theorem exec_iterationRetirement (core : Nat) (s : State) : exec (.iterationRetirement core) s = execIterationRetirement core s := rfl
@[simp] theorem exec_nodeBoundary (part : Nat) (s : State) : exec (.nodeBoundary part) s = execNodeBoundary part s := rfl
@[simp] theorem exec_park (core : Nat) (s : State) : exec (.park core) s = execPark core s := rfl
@[simp] theorem exec_unpark (core : Nat) (s : State) : exec (.unpark core) s = execUnpark core s := rfl
@[simp] theorem exec_stopcore (core : Nat) (s : State) : exec (.stopcore core) s = execStopcore core s := rfl
@[simp] theorem exec_savecore (core : Nat) (s : State) : exec (.savecore core) s = execSavecore core s := rfl
@[simp] theorem exec_restorecore (core : Nat) (s : State) : exec (.restorecore core) s = execRestorecore core s := rfl
@[simp] theorem exec_corestart (core : Nat) (s : State) : exec (.corestart core) s = execCorestart core s := rfl
@[simp] theorem exec_rstore (core : Nat) (s : State) : exec (.rstore core) s = execRstore core s := rfl
@[simp] theorem exec_msend (core : Nat) (s : State) : exec (.msend core) s = execMsend core s := rfl
@[simp] theorem exec_swrite (core : Nat) (s : State) : exec (.swrite core) s = execSwrite core s := rfl
@[simp] theorem exec_stab (core : Nat) (s : State) : exec (.stab core) s = execStab core s := rfl
@[simp] theorem exec_stackSideProduct (core : Nat) (s : State) : exec (.stackSideProduct core) s = execStackSideProduct core s := rfl
@[simp] theorem exec_reshardPlan (core : Nat) (s : State) : exec (.reshardPlan core) s = execReshardPlan core s := rfl
@[simp] theorem exec_reshardDigestTimeout (die n : Nat) (s : State) : exec (.reshardDigestTimeout die n) s = execReshardDigestTimeout die n s := rfl
@[simp] theorem exec_reshardPiece (die n : Nat) (s : State) : exec (.reshardPiece die n) s = execReshardPiece die n s := rfl
@[simp] theorem exec_ep3ArrivalPush (die n : Nat) (s : State) : exec (.ep3ArrivalPush die n) s = execEp3ArrivalPush die n s := rfl
@[simp] theorem exec_transferCompletion (core n : Nat) (s : State) : exec (.transferCompletion core n) s = execTransferCompletion core n s := rfl
@[simp] theorem exec_stepRetirement (core : Nat) (s : State) : exec (.stepRetirement core) s = execStepRetirement core s := rfl
@[simp] theorem exec_decodeChunk (core ring chunk : Nat) (s : State) : exec (.decodeChunk core ring chunk) s = execDecodeChunk core ring chunk s := rfl
@[simp] theorem exec_l2Eviction (node tile : Nat) (s : State) : exec (.l2Eviction node tile) s = execL2Eviction node tile s := rfl
@[simp] theorem exec_scrub (node tile : Nat) (s : State) : exec (.scrub node tile) s = execScrub node tile s := rfl
@[simp] theorem exec_stallFault (core : Nat) (s : State) : exec (.stallFault core) s = execStallFault core s := rfl
@[simp] theorem exec_kilnTickBoundary (s : State) : exec (.kilnTickBoundary) s = execKilnTickBoundary s := rfl
@[simp] theorem exec_trapEntry (core : Nat) (s : State) : exec (.trapEntry core) s = execTrapEntry core s := rfl
@[simp] theorem exec_drainTimeout (core : Nat) (s : State) : exec (.drainTimeout core) s = execDrainTimeout core s := rfl
@[simp] theorem exec_asynchronousRecord (core : Nat) (s : State) : exec (.asynchronousRecord core) s = execAsynchronousRecord core s := rfl
@[simp] theorem exec_arpop (core : Nat) (value : Dword) (s : State) : exec (.arpop core value) s = execArpop core value s := rfl
@[simp] theorem exec_stateWindowAccess (core : Nat) (write : Bool) (value : Dword) (s : State) : exec (.stateWindowAccess core write value) s = execStateWindowAccess core write value s := rfl
@[simp] theorem exec_pbench (die part : Nat) (value : Dword) (s : State) : exec (.pbench die part value) s = execPbench die part value s := rfl
@[simp] theorem exec_pnset (die part : Nat) (value : Dword) (s : State) : exec (.pnset die part value) s = execPnset die part value s := rfl
@[simp] theorem exec_vfbind (vf : Nat) (value : Dword) (s : State) : exec (.vfbind vf value) s = execVfbind vf value s := rfl
@[simp] theorem exec_budgetRegisterWrite (die part : Nat) (value : Dword) (s : State) : exec (.budgetRegisterWrite die part value) s = execBudgetRegisterWrite die part value s := rfl
@[simp] theorem exec_ntokWrite (die : Nat) (value : Dword) (s : State) : exec (.ntokWrite die value) s = execNtokWrite die value s := rfl
@[simp] theorem exec_scownWrite (die index : Nat) (value : Dword) (s : State) : exec (.scownWrite die index value) s = execScownWrite die index value s := rfl
@[simp] theorem exec_domcfgWrite (die : Nat) (value : Dword) (s : State) : exec (.domcfgWrite die value) s = execDomcfgWrite die value s := rfl
@[simp] theorem exec_registerWrite (fn offset : Nat) (value : Dword) (s : State) : exec (.registerWrite fn offset value) s = execRegisterWrite fn offset value s := rfl
@[simp] theorem exec_keyGen (die : Nat) (s : State) : exec (.keyGen die) s = execKeyGen die s := rfl
@[simp] theorem exec_keyDerive (die : Nat) (s : State) : exec (.keyDerive die) s = execKeyDerive die s := rfl
@[simp] theorem exec_keyImport (die : Nat) (s : State) : exec (.keyImport die) s = execKeyImport die s := rfl
@[simp] theorem exec_keyExport (die : Nat) (s : State) : exec (.keyExport die) s = execKeyExport die s := rfl
@[simp] theorem exec_keySweep (die : Nat) (s : State) : exec (.keySweep die) s = execKeySweep die s := rfl
@[simp] theorem exec_keyRetire (die : Nat) (s : State) : exec (.keyRetire die) s = execKeyRetire die s := rfl
@[simp] theorem exec_keyZeroise (die : Nat) (s : State) : exec (.keyZeroise die) s = execKeyZeroise die s := rfl
@[simp] theorem exec_attestationRequest (fn : Nat) (s : State) : exec (.attestationRequest fn) s = execAttestationRequest fn s := rfl
@[simp] theorem exec_retireCore (s : State) : exec (.retireCore) s = execRetireCore s := rfl
@[simp] theorem exec_retireBench (s : State) : exec (.retireBench) s = execRetireBench s := rfl
@[simp] theorem exec_retireChan (s : State) : exec (.retireChan) s = execRetireChan s := rfl
@[simp] theorem exec_retireLink (s : State) : exec (.retireLink) s = execRetireLink s := rfl
@[simp] theorem exec_fwupdate (s : State) : exec (.fwupdate) s = execFwupdate s := rfl
@[simp] theorem exec_ckptBuddy (s : State) : exec (.ckptBuddy) s = execCkptBuddy s := rfl
@[simp] theorem exec_ckptCxl (s : State) : exec (.ckptCxl) s = execCkptCxl s := rfl
@[simp] theorem exec_restoreBuddy (s : State) : exec (.restoreBuddy) s = execRestoreBuddy s := rfl
@[simp] theorem exec_restoreCxl (s : State) : exec (.restoreCxl) s = execRestoreCxl s := rfl
@[simp] theorem exec_imageLoader (s : State) : exec (.imageLoader) s = execImageLoader s := rfl
@[simp] theorem exec_boot (s : State) : exec (.boot) s = execBoot s := rfl
@[simp] theorem exec_readyTimeout (s : State) : exec (.readyTimeout) s = execReadyTimeout s := rfl
@[simp] theorem exec_thermalAction (die degrees : Nat) (s : State) : exec (.thermalAction die degrees) s = execThermalAction die degrees s := rfl
@[simp] theorem exec_dieReset (die : Nat) (s : State) : exec (.dieReset die) s = execDieReset die s := rfl
@[simp] theorem exec_pwrite (n : Nat) (s : State) : exec (.pwrite n) s = execPwrite n s := rfl
@[simp] theorem exec_pread (n : Nat) (s : State) : exec (.pread n) s = execPread n s := rfl
@[simp] theorem exec_rdata (n : Nat) (s : State) : exec (.rdata n) s = execRdata n s := rfl
@[simp] theorem exec_patom (n : Nat) (s : State) : exec (.patom n) s = execPatom n s := rfl
@[simp] theorem exec_adata (n : Nat) (s : State) : exec (.adata n) s = execAdata n s := rfl
@[simp] theorem exec_ack (n : Nat) (s : State) : exec (.ack n) s = execAck n s := rfl
@[simp] theorem exec_nack (n : Nat) (s : State) : exec (.nack n) s = execNack n s := rfl
@[simp] theorem exec_flitRetry (die n : Nat) (s : State) : exec (.flitRetry die n) s = execFlitRetry die n s := rfl
@[simp] theorem exec_xlatreq (n : Nat) (s : State) : exec (.xlatreq n) s = execXlatreq n s := rfl
@[simp] theorem exec_xlatrsp (n : Nat) (s : State) : exec (.xlatrsp n) s = execXlatrsp n s := rfl
@[simp] theorem exec_announce (n : Nat) (s : State) : exec (.announce n) s = execAnnounce n s := rfl
@[simp] theorem exec_annack (n : Nat) (s : State) : exec (.annack n) s = execAnnack n s := rfl
@[simp] theorem exec_ctrl (n : Nat) (s : State) : exec (.ctrl n) s = execCtrl n s := rfl
@[simp] theorem exec_requestTimeout (die msgid : Nat) (s : State) : exec (.requestTimeout die msgid) s = execRequestTimeout die msgid s := rfl
@[simp] theorem exec_frame (die port : Nat) (s : State) : exec (.frame die port) s = execFrame die port s := rfl
@[simp] theorem exec_linkAcknowledgement (die port : Nat) (ok : Bool) (s : State) : exec (.linkAcknowledgement die port ok) s = execLinkAcknowledgement die port ok s := rfl
@[simp] theorem exec_linkDown (die port : Nat) (s : State) : exec (.linkDown die port) s = execLinkDown die port s := rfl
@[simp] theorem exec_linkTraining (die port : Nat) (s : State) : exec (.linkTraining die port) s = execLinkTraining die port s := rfl
@[simp] theorem exec_rekey (die port : Nat) (s : State) : exec (.rekey die port) s = execRekey die port s := rfl
@[simp] theorem exec_atsInvalidation (vf pasid : Nat) (base len : Dword) (s : State) : exec (.atsInvalidation vf pasid base len) s = execAtsInvalidation vf pasid base len s := rfl
@[simp] theorem exec_pageRequestGroupClose (n : Nat) (s : State) : exec (.pageRequestGroupClose n) s = execPageRequestGroupClose n s := rfl
@[simp] theorem exec_pageRequestResponse (n code : Nat) (s : State) : exec (.pageRequestResponse n code) s = execPageRequestResponse n code s := rfl
@[simp] theorem exec_storePerformed (core n : Nat) (s : State) : exec (.storePerformed core n) s = execStorePerformed core n s := rfl
@[simp] theorem exec_queueEntryFill (core q : Nat) (s : State) : exec (.queueEntryFill core q) s = execQueueEntryFill core q s := rfl
@[simp] theorem exec_softError (node addr bit : Nat) (s : State) : exec (.softError node addr bit) s = execSoftError node addr bit s := rfl

end Sys2Proof.Machine
end

