-- ==== Sys2Proof/Laws/Memory.lean ====
section
/-! SUPPORT. Memory: a byte read after a write, and the canonical form that every operation keeps (R5). -/

namespace Sys2Proof.Machine

/-- What is known of the head of a list in canonical form. -/
theorem Memory.wfFrom_cons (lo : Option Nat) (k : Nat) (b : Byte) (rest : List Host.Cell) :
    Memory.wfFrom lo ((k, b) :: rest) = true ↔
      (∀ l, lo = some l → l < k) ∧ b ≠ Memory.unlisted ∧ Memory.wfFrom (some k) rest = true := by
  cases lo <;> simp [Memory.wfFrom, and_assoc]

/-- A lower bound may be lowered, or dropped. -/
theorem Memory.wfFrom_mono {lo lo' : Option Nat} {m : List Host.Cell} (h : Memory.wfFrom lo m = true)
    (low : ∀ l', lo' = some l' → ∃ l, lo = some l ∧ l' ≤ l) : Memory.wfFrom lo' m = true := by
  rcases m with _ | ⟨⟨k, b⟩, rest⟩
  · rfl
  · rw [Memory.wfFrom_cons] at h ⊢
    refine ⟨fun l' h' => ?_, h.2⟩
    obtain ⟨l, hl, le⟩ := low l' h'
    exact Nat.lt_of_le_of_lt le (h.1 l hl)

/-- A bound that some entry lies above is no bound at all. -/
theorem Memory.wfFrom_none {lo : Option Nat} {m : List Host.Cell} (h : Memory.wfFrom lo m = true) :
    Memory.wfFrom none m = true := Memory.wfFrom_mono h (by simp)

/-- Below the first address, nothing is listed. -/
theorem Memory.read_below {m : List Host.Cell} {l a : Nat} (h : Memory.wfFrom (some l) m = true) (le : a ≤ l) :
    Memory.read m a = Memory.unlisted := by
  rcases m with _ | ⟨⟨k, b⟩, rest⟩
  · rfl
  · rw [Memory.wfFrom_cons] at h
    have := h.1 l rfl
    simp [Memory.read, show ¬ a = k by omega, show a < k by omega]

/-- A write keeps the canonical form above any bound below its address. -/
theorem Memory.wfFrom_write {lo : Option Nat} {m : List Host.Cell} {a : Nat} (b : Byte) (h : Memory.wfFrom lo m = true)
    (above : ∀ l, lo = some l → l < a) : Memory.wfFrom lo (Memory.write m a b) = true := by
  induction m generalizing lo with
  | nil =>
    by_cases hb : b = Memory.unlisted
    · simp [Memory.write, Memory.cons, hb, Memory.wfFrom]
    · rw [Memory.write, Memory.cons, if_neg hb, Memory.wfFrom_cons]
      exact ⟨above, hb, rfl⟩
  | cons c rest ih =>
    rcases c with ⟨k, x⟩
    have h' := h
    rw [Memory.wfFrom_cons] at h'
    rw [Memory.write]
    by_cases hk : a = k
    · subst hk
      rw [if_pos rfl, Memory.cons]
      split
      · exact Memory.wfFrom_mono h'.2.2 fun l hl => ⟨a, rfl, Nat.le_of_lt (above l hl)⟩
      · rw [Memory.wfFrom_cons]
        exact ⟨above, ‹_›, h'.2.2⟩
    · rw [if_neg hk]
      by_cases lt : a < k
      · rw [if_pos lt, Memory.cons]
        split
        · exact h
        · rw [Memory.wfFrom_cons, Memory.wfFrom_cons]
          exact ⟨above, ‹_›, by simpa using lt, h'.2⟩
      · rw [if_neg lt, Memory.wfFrom_cons]
        exact ⟨h'.1, h'.2.1, ih h'.2.2 (by simp; omega)⟩

/-- A write keeps the canonical form. -/
theorem Memory.wf_write {m : List Host.Cell} (a : Nat) (b : Byte) (h : Memory.wf m = true) :
    Memory.wf (Memory.write m a b) = true := Memory.wfFrom_write b h (by simp)

/-- Writes at consecutive addresses keep the canonical form. -/
theorem Memory.wf_writeN {m : List Host.Cell} (a : Nat) (bs : List Byte) (h : Memory.wf m = true) :
    Memory.wf (Memory.writeN m a bs) = true := by
  induction bs generalizing m a with
  | nil => exact h
  | cons b rest ih => exact ih _ (Memory.wf_write a b h)

/-- Dropping entries keeps the canonical form above any bound. -/
theorem Memory.wfFrom_filter {lo : Option Nat} {m : List Host.Cell} (p : Host.Cell → Bool)
    (h : Memory.wfFrom lo m = true) : Memory.wfFrom lo (m.filter p) = true := by
  induction m generalizing lo with
  | nil => rfl
  | cons c rest ih =>
    rcases c with ⟨k, x⟩
    rw [Memory.wfFrom_cons] at h
    rw [List.filter_cons]
    split
    · rw [Memory.wfFrom_cons]
      exact ⟨h.1, h.2.1, ih h.2.2⟩
    · exact Memory.wfFrom_mono (ih h.2.2) fun l hl => ⟨k, rfl, Nat.le_of_lt (h.1 l hl)⟩

/-- Dropping entries keeps the canonical form. -/
theorem Memory.wf_filter {m : List Host.Cell} (p : Host.Cell → Bool) (h : Memory.wf m = true) :
    Memory.wf (m.filter p) = true := Memory.wfFrom_filter p h

/-- What a list headed by `Memory.cons` reads. -/
theorem Memory.read_cons (a : Nat) (b : Byte) {rest : List Host.Cell} (h : Memory.wfFrom (some a) rest = true) (x : Nat) :
    Memory.read (Memory.cons a b rest) x =
      if x = a then b else if x < a then Memory.unlisted else Memory.read rest x := by
  rw [Memory.cons]
  split
  · rename_i hb
    by_cases hx : x ≤ a
    · rw [Memory.read_below h hx]; grind
    · rw [if_neg (by omega), if_neg (by omega)]
  · rfl

/-- A byte read after a write: the byte written at its address, and what stood before everywhere else. -/
theorem Memory.read_write {m : List Host.Cell} (h : Memory.wf m = true) (a : Nat) (b : Byte) (x : Nat) :
    Memory.read (Memory.write m a b) x = if x = a then b else Memory.read m x := by
  suffices ∀ lo, Memory.wfFrom lo m = true →
      Memory.read (Memory.write m a b) x = if x = a then b else Memory.read m x from this none h
  clear h
  intro lo h
  induction m generalizing lo with
  | nil =>
    rw [Memory.write, Memory.read_cons a b rfl]
    split <;> simp [Memory.read]
  | cons c rest ih =>
    rcases c with ⟨k, y⟩
    have h' := (Memory.wfFrom_cons lo k y rest).1 h
    rw [Memory.write]
    by_cases hk : a = k
    · subst hk
      rw [if_pos rfl, Memory.read_cons a b h'.2.2]
      simp only [Memory.read]; grind
    · rw [if_neg hk]
      by_cases lt : a < k
      · rw [if_pos lt, Memory.read_cons a b ((Memory.wfFrom_cons _ _ _ _).2 ⟨by simpa using lt, h'.2⟩)]
        simp only [Memory.read]; grind
      · rw [if_neg lt, Memory.read, Memory.read, ih _ h'.2.2]; grind

/-- A write leaves every other byte alone. -/
theorem Memory.read_write_ne {m : List Host.Cell} (h : Memory.wf m = true) {a x : Nat} (b : Byte) (ne : x ≠ a) :
    Memory.read (Memory.write m a b) x = Memory.read m x := by rw [Memory.read_write h, if_neg ne]

/-- Writes at consecutive addresses: what each byte reads after them. -/
theorem Memory.read_writeN {m : List Host.Cell} (h : Memory.wf m = true) (a : Nat) (bs : List Byte) (x : Nat) :
    Memory.read (Memory.writeN m a bs) x =
      if a ≤ x ∧ x < a + bs.length then bs.getD (x - a) 0 else Memory.read m x := by
  induction bs generalizing m a with
  | nil => simp [Memory.writeN, show ¬ (a ≤ x ∧ x < a) by omega]
  | cons b rest ih =>
    rw [Memory.writeN, ih (Memory.wf_write a b h), Memory.read_write h]
    by_cases hx : x = a
    · subst hx; simp
    · by_cases hr : a + 1 ≤ x ∧ x < a + 1 + rest.length
      · rw [if_pos hr, if_pos (by simp; omega), show x - a = x - (a + 1) + 1 by omega]; simp
      · rw [if_neg hr, if_neg hx, if_neg (by simp; omega)]

/-- Bytes read at consecutive addresses. -/
theorem Memory.readN_length (m : List Host.Cell) (a n : Nat) : (Memory.readN m a n).length = n := by
  induction n generalizing a with
  | zero => rfl
  | succ n ih => simp [Memory.readN, ih]

/-- What is written at consecutive addresses is read there. -/
theorem Memory.readN_writeN {m : List Host.Cell} (h : Memory.wf m = true) (a : Nat) (bs : List Byte) :
    Memory.readN (Memory.writeN m a bs) a bs.length = bs := by
  have key : ∀ n b, Memory.readN (Memory.writeN m a bs) b n =
      (List.range n).map fun i => Memory.read (Memory.writeN m a bs) (b + i) := by
    intro n
    induction n with
    | zero => intro b; rfl
    | succ n ih =>
      intro b
      rw [Memory.readN, ih, List.range_succ_eq_map]
      simp [List.map_map, Function.comp_def, Nat.add_assoc, Nat.add_comm 1]
  rw [key]
  apply List.ext_getElem
  · simp
  · intro i h1 h2
    simp only [List.getElem_map, List.getElem_range, Memory.read_writeN h]
    rw [if_pos (by omega)]
    simp [h2]

end Sys2Proof.Machine
end

