-- ==== Sys2Proof/Laws/Words.lean ====
section
/-! SUPPORT. What running one word can do: it holds, traps, or retires; and what retirement does to its core. -/

namespace Sys2Proof.Machine

/-! ### Words without wait or post bits -/

@[simp] theorem waits_zero (st : Stream) : waits st 0#4 = [] := by cases st <;> rfl
@[simp] theorem posts_zero (st : Stream) : posts st 0#2 = [] := by cases st <;> rfl
@[simp] theorem postBits_zero : postBits 0#4 = 0#2 := by decide

@[simp] theorem Core.tokens_zero (c : Core) (st : Stream) : c.tokens st 0#4 = true := by simp [Core.tokens]
@[simp] theorem Core.take_zero (c : Core) (st : Stream) : c.take st 0#4 = c := by simp [Core.take]
@[simp] theorem Core.post_zero (c : Core) (st : Stream) : c.post st 0#2 = c := by simp [Core.post]
@[simp] theorem Core.room_zero (c : Core) (st : Stream) : c.room st 0#2 = true := by simp [Core.room]
@[simp] theorem Core.postOrOwe_zero (c : Core) (st : Stream) : c.postOrOwe st 0#2 = c := by simp [Core.postOrOwe]

/-! ### Computations of a word: what each step of one does -/

theorem M.run_bind {α β : Type} (x : M α) (f : α → M β) (s : State) :
    (x >>= f).run.run s = match x.run.run s with
      | (.ok a, s') => (f a).run.run s'
      | (.error e, s') => (.error e, s') := by
  show (match x.run.run s with
    | (a, s') => (ExceptT.bindCont f a).run s') = _
  rcases x.run.run s with ⟨_ | _, _⟩ <;> rfl

theorem M.bind_ok {α β : Type} {x : M α} {f : α → M β} {s s' : State} {a : α} (h : x.run.run s = (.ok a, s')) :
    (x >>= f).run.run s = (f a).run.run s' := by rw [M.run_bind, h]

theorem M.bind_error {α β : Type} {x : M α} {f : α → M β} {s s' : State} {e : Stop}
    (h : x.run.run s = (.error e, s')) : (x >>= f).run.run s = (.error e, s') := by rw [M.run_bind, h]

theorem M.run_pure {α : Type} (a : α) (s : State) : (pure a : M α).run.run s = (.ok a, s) := rfl
theorem M.run_get (s : State) : (get : M State).run.run s = (.ok s, s) := rfl
theorem M.run_set (t s : State) : (set t : M PUnit).run.run s = (.ok ⟨⟩, t) := rfl
theorem M.run_modify (f : State → State) (s : State) : (modify f : M PUnit).run.run s = (.ok ⟨⟩, f s) := rfl
theorem M.run_core (s : State) : M.core.run.run s = (.ok s.core, s) := rfl
theorem M.run_mapCore (f : Core → Core) (s : State) : (M.mapCore f).run.run s = (.ok ⟨⟩, s.mapCore f) := rfl
theorem M.run_hold {α : Type} (h : Hold) (s : State) : (M.hold h : M α).run.run s = (.error (.hold h), s) := rfl
theorem M.run_keep {α : Type} (h : Hold) (s : State) : (M.keep h : M α).run.run s = (.error (.keep h), s) := rfl
theorem M.run_trap {α : Type} (t : Trap) (s : State) : (M.trap t : M α).run.run s = (.error (.trap t), s) := rfl

theorem M.run_until (b : Bool) (h : Hold) (s : State) :
    (M.until b h).run.run s = if b then (.ok ⟨⟩, s) else (.error (.hold h), s) := by cases b <;> rfl

theorem M.run_check (b : Bool) (t : Trap) (s : State) :
    (M.check b t).run.run s = if b then (.ok ⟨⟩, s) else (.error (.trap t), s) := by cases b <;> rfl

theorem M.run_ite {α : Type} (p : Prop) [Decidable p] (x y : M α) (s : State) :
    (if p then x else y).run.run s = if p then x.run.run s else y.run.run s := by split <;> rfl

theorem M.run_operandOpen {α : Type} (s : State) :
    (M.operandOpen : M α).run.run s = (.error (.trap { cls := 0x08, sub := (s.draw 32).1 }), (s.draw 32).2) := rfl

/-! ### finishWord -/

theorem finishWord_ok (i : Instr) (st : Stream) (sync : BitVec 4) (s s' : State) (k : Ctl) :
    finishWord i st sync s (.ok k, s') =
      .next (s'.mapCore fun c => ((c.take st sync).advance st k).postOrOwe st (postBits sync)) := rfl

theorem finishWord_hold (i : Instr) (st : Stream) (sync : BitVec 4) (s s' : State) (h : Hold) :
    finishWord i st sync s (.error (.hold h), s') = .next (s.held st h) := rfl

theorem finishWord_keep (i : Instr) (st : Stream) (sync : BitVec 4) (s s' : State) (h : Hold) :
    finishWord i st sync s (.error (.keep h), s') = .next (s'.held st h) := rfl

theorem finishWord_trap (i : Instr) (st : Stream) (sync : BitVec 4) (s s' : State) (t : Trap) :
    finishWord i st sync s (.error (.trap t), s') =
      .next (s'.raise s.me (some st) t (s.core.pcOf st) (wordOf i)) := rfl

/-- A word answers a next state whatever its computation does. -/
theorem finishWord_next (i : Instr) (st : Stream) (sync : BitVec 4) (s : State) (r : Except Stop Ctl × State) :
    ∃ t, finishWord i st sync s r = .next t := by
  rcases r with ⟨r, s'⟩
  rcases r with e | k
  · cases e <;> exact ⟨_, rfl⟩
  · exact ⟨_, rfl⟩

/-! ### runReg, runOther, runWord, runValue -/

theorem runReg_ok {i : Instr} {writes : Core → Nat} {body : M Ctl} {s s' : State} {k : Ctl}
    (room : s.core.logRoom (writes s.core) = true) (run : body.run.run s = (.ok k, s')) :
    runReg i writes body s = .next (s'.mapCore fun c => (c.logWrites (writes s.core)).advance .s k) := by
  have h : ((do let k ← body; M.mapCore (fun c => c.logWrites (writes s.core)); return k : M Ctl).run.run s) =
      (.ok k, s'.mapCore fun c => c.logWrites (writes s.core)) := by
    rw [M.bind_ok run, M.bind_ok (M.run_mapCore _ _), M.run_pure]
  simp only [runReg, room, if_true, h, finishWord_ok, State.mapCore_mapCore]
  simp

theorem runOther_ok {i : Instr} {sync : BitVec 4} {body : M Ctl} {s s' : State} {k : Ctl}
    (free : s.core.untaken = false) (tokens : s.core.tokens .s sync = true) (run : body.run.run s = (.ok k, s')) :
    runOther i sync body s =
      .next (s'.mapCore fun c => ((c.take .s sync).advance .s k).postOrOwe .s (postBits sync)) := by
  simp [runOther, free, tokens, run, finishWord_ok]

theorem runOther_ok_zero {i : Instr} {body : M Ctl} {s s' : State} {k : Ctl}
    (free : s.core.untaken = false) (run : body.run.run s = (.ok k, s')) :
    runOther i 0 body s = .next (s'.mapCore fun c => c.advance .s k) := by
  simp [runOther, free, run, finishWord_ok]

theorem runOther_trap {i : Instr} {sync : BitVec 4} {body : M Ctl} {s s' : State} {t : Trap}
    (free : s.core.untaken = false) (tokens : s.core.tokens .s sync = true)
    (run : body.run.run s = (.error (.trap t), s')) :
    runOther i sync body s = .next (s'.raise s.me (some .s) t (s.core.pcOf .s) (wordOf i)) := by
  simp [runOther, free, tokens, run, finishWord_trap]

theorem runWord_ok {i : Instr} {st : Stream} {sync : BitVec 4} {body : M Ctl} {s s' : State} {k : Ctl}
    (tokens : s.core.tokens st sync = true) (order : st = .m → postBits sync ≠ 0 → s.core.steps = [])
    (run : body.run.run s = (.ok k, s')) :
    runWord i st sync body s =
      .next (s'.mapCore fun c => ((c.take st sync).advance st k).postOrOwe st (postBits sync)) := by
  have h : ¬(st = .m ∧ postBits sync ≠ 0 ∧ (!s.core.steps.isEmpty) = true) := by
    rintro ⟨a, b, c⟩
    simp [order a b] at c
  simp only [runWord, tokens, if_true, h, if_false, run, finishWord_ok]

theorem runReg_trap {i : Instr} {writes : Core → Nat} {body : M Ctl} {s s' : State} {t : Trap}
    (room : s.core.logRoom (writes s.core) = true) (run : body.run.run s = (.error (.trap t), s')) :
    runReg i writes body s = .next (s'.raise s.me (some .s) t (s.core.pcOf .s) (wordOf i)) := by
  dsimp only [runReg]
  rw [if_pos room, M.bind_error run, finishWord_trap]

theorem runOther_hold {i : Instr} {body : M Ctl} {s s' : State} {h : Hold} (free : s.core.untaken = false)
    (run : body.run.run s = (.error (.hold h), s')) : runOther i 0 body s = .next (s.held .s h) := by
  simp [runOther, free, run, finishWord_hold]

theorem runOther_keep {i : Instr} {body : M Ctl} {s s' : State} {h : Hold} (free : s.core.untaken = false)
    (run : body.run.run s = (.error (.keep h), s')) : runOther i 0 body s = .next (s'.held .s h) := by
  simp [runOther, free, run, finishWord_keep]

theorem runWord_stop {i : Instr} {st : Stream} {sync : BitVec 4} {body : M Ctl} {s : State}
    (tokens : s.core.tokens st sync = true) (order : st = .m → postBits sync ≠ 0 → s.core.steps = []) :
    runWord i st sync body s = finishWord i st sync s (body.run.run s) := by
  have h : ¬(st = .m ∧ postBits sync ≠ 0 ∧ (!s.core.steps.isEmpty) = true) := by
    rintro ⟨a, b, c⟩
    simp [order a b] at c
  simp only [runWord, tokens, if_true, h, if_false]

theorem untrapped_ok {i : Instr} {s : State} {run : State → Host.Outcome State Fault Refusal}
    (h : s.core.state ≠ .trapped) : untrapped i s run = run s := by simp [untrapped, h]

theorem privileged_ok {i : Instr} {pl : BitVec 2} {s : State} {run : State → Host.Outcome State Fault Refusal}
    (h : pl.toNat ≤ s.core.pl.toNat) : privileged i pl s run = run s := by
  simp [privileged, Nat.not_lt.mpr h]

theorem runValue_next {gd : BitVec 5} {f : Core → Dword} {s : State}
    (room : s.core.logRoom (gWrite gd + s.core.loopBack) = true) :
    runValue gd f s = .next (s.mapCore fun c =>
      ((c.logWrites (gWrite gd + c.loopBack)).writeG gd (f c)).advance .s .next) := by
  simp only [State.core] at room
  simp [runValue, room, State.mapCore, State.core]

end Sys2Proof.Machine
end

