-- ==== Sys2Proof/Tests/Slice0.lean ====
section
/-! SUPPORT. Tests: the checks of WellFormed, words of the spec's encoding tables, single instructions on small states, and
for each statement with hypotheses a state that meets them. -/

set_option Elab.async false

namespace Sys2Proof.Test

open Sys2Proof Sys2Proof.Machine

/-! ### WellFormed: a term for each check, which the check refuses -/

theorem test_wf_ok : (Instr.bfx 3 4 60 4).wf = true ∧ (Instr.bcc 7 1 2 0).wf = true ∧ (Instr.smv 28 1 0).wf = true ∧
    (Instr.vcvt 0 1 2 22 0 0 0).wf = true ∧ (Instr.icinv 0 8).wf = true ∧ (Instr.storePerformed 1023 5).wf = true := by decide
theorem test_wf_bitField : (Instr.bfx 3 4 0 0).wf = false ∧ (Instr.bfi 3 4 61 4).wf = false ∧ (Instr.bfx 3 4 0 65).wf = false := by
  decide
theorem test_wf_cond : (Instr.bcc 8 1 2 0).wf = false ∧ (Instr.xbcc 0 15 1 2 0).wf = false := by decide
theorem test_wf_nonzero : (Instr.loop 3 0).wf = false ∧ (Instr.loopi 0 4).wf = false ∧ (Instr.icinvAll 0 0).wf = false ∧
    (Instr.mloop 0 2 0).wf = false := by decide
theorem test_wf_someToken : (Instr.tkwait 0 0).wf = false ∧ (Instr.tkpost 0 0).wf = false := by decide
theorem test_wf_fence : (Instr.fence 6 1 1).wf = false ∧ (Instr.fence 0 0 1).wf = false ∧ (Instr.fence 0 1 0).wf = false := by decide
theorem test_wf_access : (Instr.ld 1 2 4 0 0).wf = false ∧ (Instr.ldu 1 2 3 0 0).wf = false ∧ (Instr.st 1 2 0 3 0).wf = false := by
  decide
theorem test_wf_amoOrder : (Instr.amoAdd 1 2 3 0 5).wf = false ∧ (Instr.cas 1 2 3 1 7).wf = false := by decide
theorem test_wf_port : (Instr.epush 1 5).wf = false ∧ (Instr.estat 1 7).wf = false := by decide
theorem test_wf_pair : (Instr.tlocR 0 4 1).wf = false ∧ (Instr.tlocD 3 4 1).wf = false := by decide
theorem test_wf_quad : (Instr.smv 29 1 0).wf = false := by decide
theorem test_wf_firstOfFour : (Instr.xtd 0 1 13).wf = false := by decide
theorem test_wf_sopd : (Instr.vadd 0 1 2 3 0 0 4).wf = false ∧ (Instr.vshape 0 1 0).wf = false := by decide
theorem test_wf_vdRead : (Instr.vfma 0 28 1 2 0 0 0).wf = false := by decide
theorem test_wf_format : (Instr.vcvt 0 1 2 7 0 0 0).wf = false ∧ (Instr.xcvt 0 0 0 0 15 0 0 0 0 0).wf = false ∧
    (Instr.xkvq 0 0 0 0 23 0 0).wf = false := by decide
theorem test_wf_vs2Unused : (Instr.vadd 0 1 2 16 0 0 1).wf = false ∧ (Instr.vmov 0 1 1 2).wf = false := by decide
theorem test_wf_events : (Instr.stopcore 1024).wf = false ∧ (Instr.rekey 0 6).wf = false ∧ (Instr.keyGen 4).wf = false ∧
    (Instr.nodeDispatch 16).wf = false ∧ (Instr.scrub 4096 0).wf = false ∧ (Instr.notify 193 0 0).wf = false := by decide

/-! ### Words from the spec's encoding tables -/

/-- Words with what they decode to in a stream. -/
def decodes (st : Stream) (l : List (Word × Instr)) : Bool :=
  l.all fun p => decide (decode st p.1 = .ok p.2) && decide (encode p.2 = some p.1)

/-- The scalar arithmetic words of R180's table. -/
theorem test_decode_arithmetic : decodes .s [(0x02531C00, .add 5 6 7), (0x02321401, .sub 3 4 5), (0x02531C05, .madd 5 6 7),
    (0x02742404, .mulhu 7 8 9), (0x02A5B006, .div 10 11 12), (0x02530028, .clz 5 6), (0x04531D20, .sel 5 6 7 9)] = true := by decide
theorem test_decode_immediates : decodes .s [(0x08537FFF, .addi 5 6 0x7FFF), (0x0A5300FF, .andi 5 6 0xFF),
    (0x12537FFF, .sltiu 5 6 0x7FFF), (0x18530003, .sari 5 6 3), (0x1A53040C, .bfx 5 6 8 12), (0x1C531E04, .bfi 5 6 60 4),
    (0x20500012, .lui 5 0x12), (0x225FFFFF, .addpc 5 0xFFFFF)] = true := by decide
/-- The control words of S (R95 to R110). -/
theorem test_decode_control : decodes .s [(0x304327FD, .bcc 2 3 4 0x7FD), (0x32000000, .j 0), (0x34000000, .jl 0),
    (0x36008000, .jr 1 0), (0x3A0D0007, .loop 26 7), (0x3C000C04, .loopi 3 4), (0x3C040002, .loopi 256 2),
    (0x30053801, .bcc 0 5 7 1), (0x3E000000, .rend), (0x42000000, .yield)] = true := by decide
theorem test_decode_synchronisation : decodes .s [(0x44A00000, .kread 10), (0x46B50000, .pwin 11 10), (0x48000003, .tkwait 1 1),
    (0x48000002, .tkwait 1 0), (0x4A000001, .tkpost 0 1), (0x4C042400, .barInit 8 9), (0x4E040000, .barArr 8),
    (0x4E040001, .barArrDrop 8), (0x4E040002, .barArrJoin 8), (0x50040000, .barWait 8), (0x52036000, .monarm 6 0),
    (0x54531C00, .mwait 5 6 7), (0x54531C01, .mwaitW 5 6 7)] = true := by decide
/-- Fences and the memory words of S (R285 to R297). -/
theorem test_decode_memory : decodes .s [(0x56000480, .fence 0 4 8), (0x56003CF0, .fence 3 0xC 0xF), (0x58000000, .fenceHb),
    (0x5A000000, .fenceStk), (0x60532800, .ld 5 6 2 2 0), (0x6044B402, .ld 4 9 3 1 2), (0x625303FF, .ldu 5 6 0 0 0x3FF),
    (0x64743401, .st 7 8 3 1 1), (0x6624F401, .ldq 2 9 1 1), (0x6814F000, .stq 1 9 0 0), (0x6A136001, .pref 1 6 1),
    (0x6C136000, .ipref 1 6 0), (0x6E036000, .clean 6 0), (0x70036000, .invl 6 0)] = true := by decide
theorem test_decode_atomics : decodes .s [(0x72531C2C, .amoAdd 5 6 7 1 3), (0x72031E40, .amoFadd 0 6 7 0),
    (0x74531C24, .cas 5 6 7 1 1)] = true := by decide
theorem test_decode_queues : decodes .s [(0x80028000, .qputV 5), (0x82500000, .qget 5), (0x84530002, .rngset 5 6 2),
    (0x86500002, .rngstat 5 2), (0x88500013, .sdset 5 1 3), (0x8A500023, .sdget 5 2 3), (0x90700008, .epushEnd 7 0),
    (0x92800000, .epop 8 0), (0x94800003, .epoll 8 3), (0x96800002, .estat 8 2)] = true := by decide
theorem test_decode_tensors : decodes .s [(0xAA860004, .smv 8 12 4), (0xA4500000, .tmesh 5), (0xA2530001, .tsmap 5 6 1),
    (0xA0222001, .tlocD 2 4 1), (0xA0240001, .tlocR 2 8 1), (0xA6530012, .reshard 5 6 1 2), (0xA8728000, .rstat 7 5)] = true := by
  decide
theorem test_decode_system : decodes .s [(0xC0500028, .sysr 5 0x28), (0xC2600029, .sysw 6 0x29), (0xC4000005, .ecall 5),
    (0xC6000000, .trap 0), (0xC8000000, .tret), (0xCA530000, .tlbinvVa 5 6), (0xCA030001, .tlbinvPasid 0 6),
    (0xCA530002, .tlbinvIpa 5 6), (0xCA500003, .tlbinvPart 5 0), (0xCC000000, .tlbsync), (0xCE500008, .icinv 5 8),
    (0xCE000017, .icinvAll 0 7), (0xD0000000, .halt)] = true := by decide
/-- The words that R404's table refuses. -/
theorem test_decode_refuses : decode .s 0xC0505028#32 = .error .reservedField ∧ decode .s 0xCE000010#32 = .error .reservedValue := by
  decide
/-- The V words of R200's table and V's control words. -/
theorem test_decode_vector : decodes .v [(0x04781E00, .vadd 1 28 1 28 0 0 0), (0x120821B1, .vfma 8 4 2 3 1 1 1),
    (0x300BD000, .vfexp2 0 5 29), (0x44123002, .vcmplt 0 9 3 0 2), (0x800C25A0, .vcvt 0 6 2 0x0B 1 0 0),
    (0x84781083, .vqnt 1 28 1 1 0 0 0 3), (0x90041000, .vrsum 0 2 1), (0x907C1000, .vrsum 1 30 1), (0xC2022000, .vrd 8 1 2),
    (0xC83C7E83, .vext 0 30 7 29 3), (0xCC000081, .vshape 0 1 1)] = true := by decide
theorem test_decode_vectorControl : decodes .v [(0xE0280004, .vloop 0 10 4), (0xE4044BFC, .vbcc 0 1 1 2 0x3FC),
    (0xF00C0064, .vcli 0 3 100), (0xF40CFFFF, .vcadd 0 3 3 0x3FFF), (0xEE400000, .vnop 9), (0xE8000000, .vrend 0)] = true := by decide
/-- The M words of R216's table. -/
theorem test_decode_matrix : decodes .m [(0x18004E00, .mma 8 0 0 1 0 0 1 1 1 0 0), (0x10404703, .mma 0 1 0 1 0 0 0 1 1 1 3),
    (0x208D1E00, .mmat 0 2 3 4 0 1 1 1 1 0 0), (0x30C00000, .mzero 0 3), (0x41008100, .mdrain 1 0 2 1), (0x50540400, .mfill 0 1 5 1),
    (0x60080000, .macc 0 0 2), (0x70000000, .mstamp 0), (0x80000002, .mwin 0 2), (0x90C00002, .mloop 0 12 2),
    (0xA0212FFE, .mbcc 0 2 1 2 0xFFE), (0xC9000000, .mnop 9), (0xB0000000, .mrend 0)] = true := by decide
/-- The X words of R247's table. -/
theorem test_decode_transfer : decodes .x [(0x1880A000, .xcopy 1 0 0 10), (0x1C804000, .xcopy 9 0 0 4), (0x78000000, .xqget 0 0),
    (0x08100000, .xtd 0 1 0), (0x100F4080, .xtdi 0 0 15 0x4080), (0x28004586, .xcvt 0 0 0 4 0x0B 0 0 0 1 1), (0x20104000, .xput 0 1 0 4),
    (0x71000001, .xwaitAll 2), (0x602A0000, .xftl 0 2 5), (0x4C362000, .xwadv 8 3 6 2)] = true := by decide
theorem test_decode_transferControl : decodes .x [(0x80010050, .xcli 0 1 80), (0x88044040, .xcadd 0 4 4 64),
    (0x90054B00, .xcmul 0 5 4 11), (0x980B0003, .xloop 0 11 3), (0xA00512FB, .xbcc 0 5 1 2 0xFB), (0xA8000000, .xrend 0),
    (0xB4800000, .xnop 9)] = true := by decide

/-- R37: the other words of major 0x01 with gd = 5, gs1 = 6 and gs2 = 7, whose parts are those of ADD above. -/
theorem test_decode_functions : decodes .s [(0x02531C00 + 0x002, .mul 5 6 7), (0x02531C00 + 0x003, .mulh 5 6 7),
    (0x02531C00 + 0x007, .divu 5 6 7), (0x02531C00 + 0x008, .rem 5 6 7), (0x02531C00 + 0x009, .remu 5 6 7),
    (0x02531C00 + 0x010, .and 5 6 7), (0x02531C00 + 0x011, .or 5 6 7), (0x02531C00 + 0x012, .xor 5 6 7),
    (0x02531C00 + 0x013, .andn 5 6 7), (0x02531C00 + 0x018, .shl 5 6 7), (0x02531C00 + 0x019, .shr 5 6 7),
    (0x02531C00 + 0x01A, .sar 5 6 7), (0x02531C00 + 0x020, .slt 5 6 7), (0x02531C00 + 0x021, .sltu 5 6 7),
    (0x02531C00 + 0x022, .min 5 6 7), (0x02531C00 + 0x023, .max 5 6 7), (0x02531C00 + 0x024, .minu 5 6 7),
    (0x02531C00 + 0x025, .maxu 5 6 7), (0x02530000 + 0x029, .popc 5 6)] = true := by decide
/-- R36, R38: majors by their numbers, and the operations of AMO in func10[9:6] with .D and .AR. -/
theorem test_decode_majors : decodes .s [(0x06 * 2 ^ 25 + 0x00530001, .ori 5 6 1), (0x07 * 2 ^ 25 + 0x00530001, .xori 5 6 1),
    (0x08 * 2 ^ 25 + 0x00530001, .slti 5 6 1), (0x0A * 2 ^ 25 + 0x0053003F, .shli 5 6 63), (0x0B * 2 ^ 25 + 0x00530001, .shri 5 6 1),
    (0x12 * 2 ^ 25 + 0x00500001, .ldr 5 1), (0x1C * 2 ^ 25 + 0x00530001, .jlr 5 6 1), (0x20 * 2 ^ 25, .nop),
    (0x40 * 2 ^ 25 + 5 * 2 ^ 15 + 1, .qputM 5), (0x40 * 2 ^ 25 + 5 * 2 ^ 15 + 2, .qputX 5),
    (0x48 * 2 ^ 25 + 7 * 2 ^ 20 + 4, .epush 7 4)] = true := by decide
theorem test_decode_atomicOps :
    let w (op : Word) : Word := 0x39 * 2 ^ 25 + 0x00531C00 + op * 2 ^ 6 + 0x2C
    decodes .s [(w 1, .amoAnd 5 6 7 1 3), (w 2, .amoOr 5 6 7 1 3), (w 3, .amoXor 5 6 7 1 3), (w 4, .amoMin 5 6 7 1 3),
      (w 5, .amoMax 5 6 7 1 3), (w 6, .amoMinu 5 6 7 1 3), (w 7, .amoMaxu 5 6 7 1 3), (w 8, .amoSwap 5 6 7 1 3)] = true := by decide
/-- R43: V words by their opcodes, with wl and pr set, vd = 5, vs1 = 6, vs2 = 7, and where the word has a vs2, sopd = 1. -/
theorem test_decode_vectorOps :
    let w (op : Word) : Word := op * 2 ^ 26 + 9 * 2 ^ 22 + 5 * 2 ^ 17 + 6 * 2 ^ 12
    let x (op : Word) : Word := w op + 7 * 2 ^ 7 + 1
    decodes .v [(x 0x02, .vsub 9 5 6 7 0 0 1), (x 0x03, .vmul 9 5 6 7 0 0 1), (x 0x05, .vfms 9 5 6 7 0 0 1), (x 0x06, .vmin 9 5 6 7 1),
      (x 0x07, .vmax 9 5 6 7 1), (w 0x08, .vabs 9 5 6), (w 0x09, .vneg 9 5 6), (w 0x0A, .vfrcp 9 5 6), (w 0x0B, .vfrsq 9 5 6),
      (w 0x0D, .vflog2 9 5 6), (w 0x0E, .vftanh 9 5 6), (x 0x10, .vcmpeq 9 5 6 7 1), (x 0x12, .vcmple 9 5 6 7 1),
      (x 0x13, .vsel 9 5 6 7 1), (x 0x22 + 8, .vdqnt 9 5 6 7 1 1), (w 0x25, .vrmax 9 5 6), (w 0x26, .vrmin 9 5 6),
      (x 0x28, .vperm 9 5 6 7 1), (x 0x29, .vbcast 9 5 6 7 1), (x 0x2A, .vrot 9 5 6 7 1),
      (x 0x31 - 6 * 2 ^ 12, .vmov 9 5 7 1)] = true := by decide
theorem test_decode_vectorIntegers :
    let x (op : Word) : Word := op * 2 ^ 26 + 9 * 2 ^ 22 + 5 * 2 ^ 17 + 6 * 2 ^ 12 + 7 * 2 ^ 7 + 1
    decodes .v [(x 0x14, .viadd 9 5 6 7 1), (x 0x15, .visub 9 5 6 7 1), (x 0x16, .vimul 9 5 6 7 1), (x 0x17, .vimin 9 5 6 7 1),
      (x 0x18, .vimax 9 5 6 7 1), (x 0x19, .vand 9 5 6 7 1), (x 0x1A, .vor 9 5 6 7 1), (x 0x1B, .vxor 9 5 6 7 1),
      (x 0x1C, .vshl 9 5 6 7 1), (x 0x1D, .vshr 9 5 6 7 1), (x 0x1E, .vsar 9 5 6 7 1)] = true := by decide
/-- R48: X words by their opcodes, with wl and pr set, td = 1, st = 2, ci = 3. -/
theorem test_decode_transferOps :
    let w (op : Word) : Word := op * 2 ^ 27 + 9 * 2 ^ 23 + 1 * 2 ^ 20
    decodes .x [(w 0x06 + 0x23400, .xgath 9 1 2 3 4), (w 0x07 + 0x23400, .xscat 9 1 2 3 4), (w 0x08 + 0x20000, .xwopen 9 1 2),
      (w 0x0A + 0x23000 + 0x0B * 2 ^ 7 + 2 * 2 ^ 5 + 1 * 2 ^ 4, .xkvq 9 1 2 3 0x0B 2 1), (w 0x0B + 0x23000, .xfill 9 1 2 3),
      (w 0x0D + 0x23000, .xpeer 9 1 2 3), (w 0x0E, .xwait 9 1)] = true := by decide

/-! ### Small states, and what a statement's hypotheses ask of them -/

/-- Core 1 of die 0 runs a job of partition 0, which owns bench 0; `f` sets its registers. -/
def job (f : Core → Core) (st : Stream := .s) : State := { State.reset with
  turn := (1, st)
  cores := [(1, f { state := .running, job := 1 })]
  parts := vset State.reset.parts 0 { pbench := 1, pnset := 1 }
  dies := Vector.replicate 4 { ilrows := 1024 } }

/-- The same core with some g registers set. -/
def withG (l : List (Nat × Dword)) (c : Core) : Core := { c with g := l.foldl (fun g p => vset g p.1 p.2) c.g }

/-- Whether an outcome is a next state, and that state. -/
def goesOn (o : Host.Outcome State Fault Refusal) : Bool := match o with | .next _ => true | _ => false
def after (o : Host.Outcome State Fault Refusal) : State := match o with | .next t => t | _ => State.reset

theorem next_of_goesOn {o : Host.Outcome State Fault Refusal} (h : goesOn o = true) : ∃ t, o = .next t := by
  cases o <;> first | exact ⟨_, rfl⟩ | cases h

/-- Whether a part of a word's work ends in an answer; the answer, and the state it leaves. -/
def okM {α : Type} (x : M α) (s : State) : Bool := match (x.run.run s).1 with | .ok _ => true | .error _ => false
def ansM {α : Type} (d : α) (x : M α) (s : State) : α := match (x.run.run s).1 with | .ok a => a | .error _ => d
def endM {α : Type} (x : M α) (s : State) : State := (x.run.run s).2
def okR {ε α : Type} (x : ExceptT ε (StateM State) α) (s : State) : Bool := match (x.run.run s).1 with | .ok _ => true | .error _ => false
def ansR {α : Type} (d : α) (x : R α) (s : State) : α := match (x.run.run s).1 with | .ok a => a | .error _ => d
def endR {ε α : Type} (x : ExceptT ε (StateM State) α) (s : State) : State := (x.run.run s).2
def okA (x : Except State State) : Bool := match x with | .ok _ => true | .error _ => false
def endA (x : Except State State) : State := match x with | .ok s => s | .error s => s

theorem does_of_okM {α : Type} {x : M α} {s : State} (d : α) (h : okM x s = true) :
    Claim.does x s (ansM d x s) (endM x s) := by
  unfold Claim.does ansM endM
  unfold okM at h
  generalize x.run.run s = r at h ⊢
  rcases r with ⟨_ | _, _⟩
  · cases h
  · rfl
theorem does_of_okR {α : Type} {x : R α} {s : State} (d : α) (h : okR x s = true) :
    Claim.doesR x s (ansR d x s) (endR x s) := by
  unfold Claim.doesR ansR endR
  unfold okR at h
  generalize x.run.run s = r at h ⊢
  rcases r with ⟨_ | _, _⟩
  · cases h
  · rfl

/-! ### Scalar words and control flow -/

/-- R175's table: −7 ÷ 2, 7 ÷ −2, a division by 0 and the signed overflow. -/
theorem test_divide : (after (exec (.div 3 4 5) (job (withG [(4, -7), (5, 2)])))).core.readG 3 = -3 ∧
    (after (exec (.div 3 4 5) (job (withG [(4, 0x8000000000000000), (5, -1)])))).core.readG 3 = 0x8000000000000000 := by decide
theorem test_remainder : (after (exec (.rem 3 4 5) (job (withG [(4, -7), (5, 2)])))).core.readG 3 = -1 ∧
    (after (exec (.rem 3 4 5) (job (withG [(4, 5), (5, 0)])))).core.readG 3 = 5 := by decide
theorem test_divideU : (after (exec (.divu 3 4 5) (job (withG [(4, -7), (5, 2)])))).core.readG 3 = 0x7FFFFFFFFFFFFFFC ∧
    (after (exec (.remu 3 4 5) (job (withG [(4, 0x8000000000000000), (5, -1)])))).core.readG 3 = 0x8000000000000000 := by decide
/-- R173: a sum wraps; MULH of −1 and 1 is −1; a shift by 65 is one by 1; a write of g0 is discarded. -/
theorem test_add_wraps : (after (exec (.add 3 4 5) (job (withG [(4, -1), (5, 2)])))).core.readG 3 = 1 := by decide
theorem test_mulh : (after (exec (.mulh 3 4 5) (job (withG [(4, -1), (5, 1)])))).core.readG 3 = -1 := by decide
theorem test_shl : (after (exec (.shl 3 4 5) (job (withG [(4, 3), (5, 65)])))).core.readG 3 = 6 := by decide
theorem test_clz : (after (exec (.clz 3 4) (job (withG [(4, 0)])))).core.readG 3 = 64 := by decide
theorem test_madd_g0 : (after (exec (.madd 0 4 5) (job (withG [(4, 3), (5, 65)])))).core.readG 0 = 0 := by decide
/-- R178: SLTIU against −1 writes 1 for every value but all ones. -/
theorem test_sltiu : (after (exec (.sltiu 3 4 0x7FFF) (job (withG [(4, -2)])))).core.readG 3 = 1 := by decide
/-- R179: BFI replaces its field only. -/
theorem test_bfi : (after (exec (.bfi 3 4 60 4) (job (withG [(3, -1), (4, 0x15)])))).core.readG 3 = 0x5FFFFFFFFFFFFFFF := by decide
theorem test_lui : (after (exec (.lui 3 0x80000) (job id))).core.readG 3 = 0xFFFFFFFF80000000 := by decide
/-- R95: JLR forms its target before it writes gd; an unaligned target writes nothing. -/
theorem test_jlr : let t := after (exec (.jlr 4 4 1) (job (withG [(4, 0x100)])))
    t.core.spc = 0x104 ∧ t.core.readG 4 = 4 := by decide
theorem test_bcc : (after (exec (.bcc 2 4 5 0x7FD) (job fun c => { withG [(4, -1), (5, 0)] c with pc := vset c.pc 0 0x40 }))).core.spc =
    0x34 := by decide

theorem witness_ScalarValue : ∃ (i : Instr) (s : State) (x : Dword), i.wf = true ∧ Claim.value i s.core = some (3, x) ∧
    s.core.logRoom (gWrite 3 + s.core.loopBack) = true :=
  ⟨.div 3 4 5, job (withG [(4, 0x8000000000000000), (5, -1)]), _, by decide, rfl, by decide⟩
theorem witness_ScalarFrame : ∃ (i : Instr) (s : State) (t : State), Claim.valueWord i = some 3 ∧ exec i s = .next t :=
  have ⟨t, h⟩ := next_of_goesOn (o := exec (.bfx 3 4 0 64) (job id)) (by decide)
  ⟨.bfx 3 4 0 64, job id, t, rfl, h⟩

/-- Every FIFO of tokens holds one, so that a word of any stream may start with every sync bit set. -/
def synced (c : Core) : Core := { c with tok := Vector.replicate 8 1 }

theorem mayStart_synced (st : Stream) (sync : BitVec 4) : Claim.mayStart (job synced st) st sync := by
  unfold Claim.mayStart
  cases st <;> revert sync <;> decide

theorem witness_Branches : (∃ code : BitVec 4, 8 ≤ code.toNat) ∧ (7 : BitVec 4).toNat < 8 ∧
    (job (withG [(4, 2)])).core.logRoom 1 = true ∧ (job (withG [(4, 2)])).core.logRoom (gWrite 31) = true ∧
    (∀ st sync, Claim.mayStart (job synced st) st sync) := ⟨⟨15, by decide⟩, by decide, by decide, by decide, mayStart_synced⟩

/-- A stack of `n` loops whose innermost has `rem` iterations left and runs from word 0x40 to word 0x4C. -/
def looped (n : Nat) (rem : Dword) (pc : Dword) (c : Core) : Core :=
  { c with pc := vset c.pc 0 pc
           loops := vset c.loops 0 { depth := BitVec.ofNat _ n, ent := Vector.replicate 6 { first := 0x40, past := 0x50, rem := rem } } }

theorem witness_StreamAddress :
    let at_ (n : Nat) (rem pc : Dword) (P : LoopStack → Dword → Prop) : Prop :=
      let c := (job (looped n rem pc)).core
      (c.loop .s).depth.toNat ≤ 6 ∧ P (c.loop .s) (c.pcOf .s + 4)
    at_ 0 0 0x4C (fun l _ => l.depth = 0) ∧ at_ 6 2 0x48 (fun l n => l.depth ≠ 0 ∧ l.top.past ≠ n) ∧
    at_ 6 2 0x4C (fun l n => l.depth ≠ 0 ∧ l.top.past = n ∧ 1 < l.top.rem.toNat) ∧
    at_ 6 1 0x4C (fun l n => l.depth ≠ 0 ∧ l.top.past = n ∧ l.top.rem.toNat ≤ 1) ∧
    at_ 6 1 0x4C (fun l n => l.depth ≠ 0 ∧ l.top.first.toNat ≤ (n - 4).toNat ∧ (n - 4).toNat < l.top.past.toNat) := by decide

/-- R97: an iteration more at the end of the body, and past it after the last. -/
theorem test_loop_end : (after (exec (.addi 3 3 1) (job (looped 1 2 0x4C)))).core.spc = 0x40 ∧
    (after (exec (.addi 3 3 1) (job (looped 1 1 0x4C)))).core.spc = 0x50 := by decide

theorem witness_LoopWords :
    let s := job (looped 1 5 0x40)
    s.core.logRoom (loopWrites 2 1 s.core) = true ∧
    Claim.loopAccepted (s.core.loop .s) (s.core.pcOf .s) 0xFFFFFFFF 3 ∧
    ¬ Claim.loopAccepted (s.core.loop .s) (s.core.pcOf .s) 0x100000000 3 ∧
    ¬ Claim.loopAccepted (s.core.loop .s) (s.core.pcOf .s) 2 4 ∧
    ¬ Claim.loopAccepted ((job (looped 6 5 0x40)).core.loop .s) 0x40 2 1 ∧
    (∀ st sync, Claim.mayStart (job synced st) st sync) := by
  refine ⟨by decide, ?_, ?_, ?_, ?_, mayStart_synced⟩ <;> unfold Claim.loopAccepted <;> decide

theorem witness_NoOps : (job id).core.logRoom (job id).core.loopBack = true ∧ ∀ st sync, Claim.mayStart (job synced st) st sync :=
  ⟨by decide, mayStart_synced⟩
theorem witness_ControlRegisters : Claim.mayStart (job synced .x) .x 15 ∧ Claim.mayStart (job synced .v) .v 15 :=
  ⟨mayStart_synced _ _, mayStart_synced _ _⟩
theorem witness_Rendezvous : (job id).core.untaken = false ∧ ∀ st sync, Claim.mayStart (job synced st) st sync :=
  ⟨by decide, mayStart_synced⟩
theorem test_xrend : (after (exec (.xrend 0) (job id .x))).core.state = .rendezvous := by decide
theorem test_xcmul : (after (exec (.xcmul 0 5 4 11) (job (fun c => { c with cx := vset (vset c.cx 4 3) 11 (-2) }) .x))).core.cx =
    vset (vset (vset (Vector.replicate 16 0) 4 3) 11 (-2)) 5 (-6) := by decide

/-! ### Counters, tokens, barriers and monitors -/

/-- R110's worked example: bench 7, three tokens, t = 1,000,000. -/
theorem test_pwin : (after (exec (.pwin 3 4) { State.reset with
    turn := (112, .s), cores := [(112, withG [(4, 1000000)] { state := .running, job := 1 })]
    dies := Vector.replicate 4 { ntok := 3 } })).core.readG 3 = 0x8C400000000004C0 := by decide

theorem witness_KilnWords : (job id).core.logRoom (gWrite 3 + (job id).core.loopBack) = true ∧
    ((job id).die 0).ntok.toNat = 16 ∧ ((job id).die 0).throttle ≤ 3 ∧
    Claim.holdsWindow 3 7 3906 1 ∧ Claim.holdsWindow 3 7 3911 0 ∧
    (∀ v j, 3906 < v → v < 3911 → ¬ Claim.holdsWindow 3 7 v j) := by
  refine ⟨by decide, by decide, by decide, ?_, ?_, ?_⟩ <;> unfold Claim.holdsWindow
  · decide
  · decide
  · rintro v j h1 h2 ⟨h3, h4⟩
    interval_cases v <;> interval_cases j <;> simp at h4

/-- R19: two tokens waited for are both taken; a post at 16 is owed. -/
theorem test_tkwait : (after (exec (.tkwait 1 1) (job synced))).core.tok = #v[1, 0, 1, 1, 1, 1, 0, 1] := by decide
theorem test_tkpost_full : let t := after (exec (.tkpost 1 1) (job fun c => { c with tok := vset c.tok 0 16 }))
    t.core.tok = #v[16, 0, 0, 0, 0, 0, 0, 0] ∧ vget t.core.owed 0 0 = 3 := by decide

theorem witness_TokenWords :
    (job synced).core.state ≠ .trapped ∧ (job synced).core.untaken = false ∧ (job synced).core.count 6 ≠ 0 ∧
    (job synced).core.count 1 ≠ 0 ∧ (job id).core.count 6 = 0 ∧ (job id).core.count 1 = 0 ∧
    (job fun c => { c with tok := Vector.replicate 8 15 }).core.count 7 < 16 ∧
    16 ≤ (job fun c => { c with tok := Vector.replicate 8 16 }).core.count 0 := by decide

/-- A pending store to a scratchpad address, of one byte. -/
def storing (addr : Nat) : PendingStore := {
  pc := 0, pieces := [{ va := 0, place := .scratch 1, addr := addr, len := 1, kind := .rc, l1 := false, am := false, part := 0, key := 0
                        anyOwner := false }], bytes := [0], release := false, born := 0 }

/-- Every barrier of the core expects `n` arrivals. -/
def barriers (n : BitVec 16) (c : Core) : Core := { c with bar := Vector.replicate 48 { exp := n } }

/-- R105: a drop to no expected arrivals completes the phase; a wait then goes on once. -/
theorem test_barrier_drop : let t := after (exec (.barArrDrop 3) (job fun c => barriers 1 (withG [(3, 0x2005)] c)))
    t.core.barrier 5 = { exp := 0, cmp := 1 } := by decide
theorem test_barrier_wait : (after (exec (.barWait 3) (job fun c => barriers 1 (withG [(3, 0x2005)] c)))).core.spc = 0 ∧
    (after (exec (.barWait 3) (job fun c => withG [(3, 0x2005)] { c with bar := Vector.replicate 48 { cmp := 1 } }))).core.spc = 4 := by
  decide

theorem witness_BarrierWords :
    let s := job fun c => barriers 65535 (withG [(3, 0x202F), (4, 65535)] c)
    Claim.barrierReady s 0x202F ∧ Claim.barrierReady s 0x6F ∧ Claim.barrierReady s 0x3EF ∧ Claim.barrierCore s 0x202F = s.me ∧
    s.core.performed = true ∧ (Claim.barrierOf s 0x202F).exp = 65535 ∧ (Claim.barrierOf (job id) 0x202F).exp = 0 ∧
    Claim.barrierReady (job id) 0x202F ∧
    ¬ Claim.barrierName 0x30 ∧ ¬ Claim.barrierName 0x4000 ∧ ¬ Claim.barrierName 0x2040 ∧ Claim.barrierCore s 0xAF ≠ s.me ∧
    Claim.barrierName 0x42F ∧ s.owns s.core.part (Claim.barrierCore s 0x42F) = false := by
  unfold Claim.barrierReady Claim.barrierName; decide
theorem witness_BarrierWords_hold :
    let s := job fun c => barriers 65535 (withG [(3, 0x202F)] { c with stores := [storing 0] })
    Claim.barrierReady s 0x202F ∧ s.core.performed = false ∧ (Claim.barrierOf s 0x202F).exp ≠ 0 := by
  unfold Claim.barrierReady Claim.barrierName; decide

/-- Byte `n` of the scratchpad of core 1 (R249). -/
def pad (n : Dword) : Dword := 0xFFFFFF0000100000 + n

theorem witness_Monitors :
    let s := job (withG [(5, pad 0xFFFF8), (6, 7)])
    let ps := ansM [] (monitorPieces (pad 0xFFFF8) 8) s
    let s1 := endM (monitorPieces (pad 0xFFFF8) 8) s
    Claim.free s true ∧ (s.core.monitor.on (Claim.line (pad 0xFFFF8)) = false) ∧
    Claim.does (monitorPieces (pad 0xFFFF8) 8) s ps s1 ∧
    Claim.does (loadBytes ps) (Claim.armed s1 (pad 0xFFFF8) ps) (ansM [] (loadBytes ps) (Claim.armed s1 (pad 0xFFFF8) ps))
      (endM (loadBytes ps) (Claim.armed s1 (pad 0xFFFF8) ps)) ∧
    okM (monitorPieces (pad 0xFFFF8) 1) s = true :=
  ⟨⟨by decide, by decide⟩, by decide, does_of_okM _ (by decide), does_of_okM _ (by decide), by decide⟩

theorem witness_Fences : (job id).core.untaken = false ∧
    (job fun c => { c with pl := 2 }).core.pl = 2 ∧ (job fun c => { c with pl := 2 }).core.boundary = none ∧
    (job fun c => { c with pl := 2, boundary := some 4096 }).core.boundary = some 4096 := by decide

/-! ### Memory -/

/-- Core 1 with three bytes in its scratchpad at 0x10. -/
def stored : State := { job (withG [(5, pad 0x10), (6, -2)]) with
  mem := [(Key.scratch 1 0x10, 0x80), (Key.scratch 1 0x11, 0xFF), (Key.scratch 1 0x12, 0x01)] }

/-- R287: LD extends by sign and LDU by zero, the first byte the least significant. -/
theorem test_load : (after (exec (.ld 3 5 1 0 0) stored)).core.readG 3 = 0xFFFFFFFFFFFFFF80 ∧
    (after (exec (.ldu 3 5 1 0 0) stored)).core.readG 3 = 0xFF80 := by decide
theorem test_acquire_misaligned : (after (exec (.ld 3 5 1 1 0) (job (withG [(5, pad 0x11)])))).core.pl = 1 := by decide

/-- The pieces of an access of S to that byte, and that they are found. -/
def piecesOf (s : State) (acc : Acc) (va : Dword) (n align : Nat) : List Piece := ansM [] (sPieces acc va n align) s

def page : Dword := 0xFE00000000000000

/-- Whether a translation or an access answers. -/
def good {ε α : Type} (x : Except ε α × State) : Bool := match x.1 with | .ok _ => true | .error _ => false
def goodVal {ε α : Type} (d : α) (x : Except ε α × State) : α := match x.1 with | .ok a => a | .error _ => d
/-- Core 1 with a page of its die's HBM in its TLB, at VA 0xFE00000000000000. -/
def paged (am : Bool) (l1 : Tab Moesi) (f : Core → Core) (dpa : Nat := 0) : State :=
  let e : TlbEntry := {
    part := 0, vf := 0, pasid := 0, va := 0xFE00000000000000, size := 65536, ipa := some 0, node := 0, dpa := dpa, host := false
    marked := false
    attr := { r1 := true, w1 := true, x1 := true, u := true, r2 := true, w2 := true, x2 := true, kind := .rc, c := true, am := am
              key := 0, lvl1 := 3, lvl2 := 3 } }
  { job fun c => f { c with l1 := l1, tlb := [e], xtlb := [e] } with bench := [(0, [.combined e])] }

/-- The word that stands at issue has its answer from memory. -/
def answered (c : Core) : Core := { c with waiting := .answered 0 none [[0x80, 0, 0, 0, 0, 0, 0, 0]] }

theorem witness_Loads :
    (∀ size : BitVec 3, size.toNat ≤ 3 → Claim.does (sPieces .load (pad 0x10) (2 ^ size.toNat) 1) stored
      (piecesOf stored .load (pad 0x10) (2 ^ size.toNat) 1) (endM (sPieces .load (pad 0x10) (2 ^ size.toNat) 1) stored)) ∧
    (let ps := piecesOf stored .load (pad 0x10) 8 8
     let s1 := endM (sPieces .load (pad 0x10) 8 8) stored
     Claim.address stored.core 5 0 8 = pad 0x10 ∧ stored.core.logRoom (gWrite 3 + stored.core.loopBack) = true ∧
     stored.core.untaken = false ∧ Claim.does (sPieces .load (pad 0x10) 8 8) stored ps s1 ∧
     Claim.does (loadBytes ps) s1 (ansM [] (loadBytes ps) s1) (endM (loadBytes ps) s1)) ∧
    (let s := paged true [] answered
     let ps := piecesOf s .load 0xFE00000000000040 8 8
     let s1 := endM (sPieces .load 0xFE00000000000040 8 8) s
     Claim.does (sPieces .load 0xFE00000000000040 8 8) s ps s1 ∧
     Claim.does (scAccess ps .read) s1 (ansM [] (scAccess ps .read) s1) (endM (scAccess ps .read) s1)) := by
  refine ⟨fun size h => does_of_okM _ ?_, ⟨by decide, by decide, by decide, does_of_okM _ (by decide), does_of_okM _ (by decide)⟩,
    does_of_okM _ (by decide), does_of_okM _ (by decide)⟩
  revert size; decide

theorem witness_Stores :
    let s := paged true [] answered
    let ps := piecesOf s .store 0xFE00000000000040 8 8
    let s1 := endM (sPieces .store 0xFE00000000000040 8 8) s
    s.core.untaken = false ∧ Claim.does (sPieces .store 0xFE00000000000040 8 8) s ps s1 ∧ Claim.does (soWait ps) s1 () s1 ∧
    Claim.does (scAccess ps (.write (leBytes 8 0))) s1 (ansM [] (scAccess ps (.write (leBytes 8 0))) s1)
      (endM (scAccess ps (.write (leBytes 8 0))) s1) := by
  refine ⟨by decide, does_of_okM _ (by decide), rfl, does_of_okM _ (by decide)⟩

/-- R288, R16: a halfword store is performed low byte first. -/
theorem test_store : let t := after (exec (.st 6 5 1 0 0) stored)
    let u := after (exec (.storePerformed 1 0) t)
    t.core.stores.length = 1 ∧ Memory.readN u.mem (Key.scratch 1 0x10) 3 = [0xFE, 0xFF, 0x01] := by decide

theorem witness_ScratchMemory :
    (let s := stored
     Claim.inWindow s (pad 0x10) 8 1 0x10 ∧ Claim.address s.core 5 0 8 = pad 0x10 ∧ s.core.stores = [] ∧ s.core.waiting = .none ∧
     s.core.logRoom (gWrite 3 + s.core.loopBack) = true ∧ s.wordsBad (Key.scratch 1 0x10) 8 = false) ∧
    (let p := Claim.scratchPiece stored (pad 0xFFFFC) 4 1 0xFFFFC
     let x : PendingStore := { pc := 0, pieces := [p], bytes := [1, 2, 3, 4], release := true, born := 0 }
     let s := job fun c => { c with stores := [x] }
     Memory.wf s.mem = true ∧ (s.coreAt 1).stores[0]? = some x ∧ (s.coreAt 1).storeReady 0 x = true ∧ x.pieces = [p] ∧
     p.place = .scratch 1 ∧ p.len = x.bytes.length) := by
  unfold Claim.inWindow; decide

theorem witness_QueueAccess :
    let s := job fun c => withG [(5, pad 0x100)] { c with wq := vset c.wq 4 { tail := 1 } }
    let ps := piecesOf s .load (pad 0x100) 256 8
    let s1 := endM (sPieces .load (pad 0x100) 256 8) s
    let qs := piecesOf s .store (pad 0x100) 256 256
    let s2 := endM (sPieces .store (pad 0x100) 256 256) s
    Claim.free s true ∧ 8 ≤ ((job fun c => { c with wq := vset c.wq 3 { tail := 8 } }).core.wide 3).size ∧
    (s.core.wide 0).size < 8 ∧ Claim.does (sPieces .load (pad 0x100) 256 8) s ps s1 ∧
    (∀ st ∈ s.core.stores, ∀ x ∈ st.pieces, ∀ y ∈ ps, y.ordered x = false) ∧ Claim.requests s.core = 0 ∧
    (let t := s.mapCore fun c => { c with stores := [storing 0x1FF] }
     okM (sPieces .load (pad 0x100) 256 8) t = true ∧
       ∃ st ∈ t.core.stores, ∃ x ∈ st.pieces, ∃ y ∈ piecesOf t .load (pad 0x100) 256 8, y.ordered x = true) ∧
    Claim.does (loadBytes ps) s1 (ansM [] (loadBytes ps) s1) (endM (loadBytes ps) s1) ∧
    (s.core.wide 5).size = 0 ∧ (s.core.wide 4).size ≠ 0 ∧
    Claim.does (sPieces .store (pad 0x100) 256 256) s qs s2 ∧ Claim.does (soWait qs) s2 () s2 := by
  refine ⟨⟨by decide, by decide⟩, by decide, by decide, does_of_okM _ (by decide), ?_, by decide, by decide,
    does_of_okM _ (by decide), by decide, by decide, does_of_okM _ (by decide), rfl⟩
  intro st h; cases h

/-- Core 1 with some stores pending. -/
def pendingStores (l : List PendingStore) : State := job fun c => { c with stores := l }
theorem pendingStores_requests (l : List PendingStore) : l.length ≤ Claim.requests (pendingStores l).core := by
  show l.length ≤ l.length + _ + _; omega
/-- 4096 stores outstanding, none of whose bytes LDQ reads. -/
theorem witness_QueueAccess_allowance : ∃ l : List PendingStore, 4096 ≤ Claim.requests (pendingStores l).core ∧
    okM (sPieces .load (pad 0x100) 256 8) (pendingStores l) = true ∧ ∀ st ∈ (pendingStores l).core.stores, st.pieces = [] :=
  ⟨List.replicate 4096 { storing 0 with pieces := [] }, by
    have h := pendingStores_requests (List.replicate 4096 { storing 0 with pieces := [] })
    rwa [List.length_replicate] at h, by decide +kernel, fun st h => by rw [List.eq_of_mem_replicate h]⟩

/-- R295: a matching CAS swaps and answers the old value; R294: FADD of 1.5 and −1.5 leaves +0. -/
theorem test_cas : let t := after (exec (.cas 3 5 6 0 0) (job (withG [(5, pad 0x10), (6, 9)])))
    t.core.readG 3 = 0 ∧ Memory.readN t.mem (Key.scratch 1 0x10) 4 = [9, 0, 0, 0] := by decide
theorem test_fadd : let s := job (withG [(5, pad 0x10), (6, 0xBFC00000)])
    (after (exec (.amoFadd 3 5 6 0) { s with mem := [(Key.scratch 1 0x12, 0xC0), (Key.scratch 1 0x13, 0x3F)] })).mem = [] := by decide

theorem witness_AtomicWords :
    (let s := job (withG [(5, pad 0x10), (6, 9)])
     let p := ((piecesOf s .atomic (pad 0x10) 8 8)).headD (Claim.scratchPiece s 0 0 0 0)
     let s1 := endM (sPieces .atomic (pad 0x10) 8 8) s
     let s2 := endM (M.budgeted .s [p] .modify) s1
     let work := Doing.modify .add 8 9 0
     Claim.atomic (.amoAdd 3 5 6 1 3) = some (.add, 3, 5, 6, 8, 3) ∧ Claim.atomic (.cas 3 5 6 0 0) = some (.cas, 3, 5, 6, 4, 0) ∧
     s.core.untaken = false ∧ piecesOf s .atomic (pad 0x10) 8 8 = [p] ∧ okM (sPieces .atomic (pad 0x10) 8 8) s = true ∧
     p.place = .scratch 1 ∧ s1.core.waiting = .none ∧ okM (soWait [p]) s1 = true ∧ s.core.performed = true ∧
     s.core.stores = [] ∧ okM (fillWait [p]) s1 = true ∧ okM (M.budgeted .s [p] .modify) s1 = true ∧ p.peer s1 (dieOf s1.me) = false ∧
     Claim.doesR (performPiece s1.sAgent p work) s2 (ansR [] (performPiece s1.sAgent p work) s2) (endR (performPiece s1.sAgent p work) s2)) ∧
    (let s := job fun c => withG [(5, pad 0x10), (6, 9)] { c with stores := [storing 0x17] }
     let p := ((piecesOf s .atomic (pad 0x10) 8 8)).headD (Claim.scratchPiece s 0 0 0 0)
     let f : QueueFill := { pieces := [p], data := none, found := 0, born := 0 }
     let t := job fun c => withG [(5, pad 0x10), (6, 9)] { c with fills := vset c.fills 3 [f] }
     s.core.performed = false ∧ (∃ st ∈ s.core.stores, ∃ q ∈ st.pieces, p.overlaps q = true) ∧ okM (soWait [p]) s = true ∧
     (∃ q ∈ t.core.fills.toList, ∃ f ∈ q, f.data = none ∧ ∃ x ∈ f.pieces, x.ordered p = true)) ∧
    (let s := paged true [] answered
     let s := { s with dies := vset s.dies 0 { ilrows := 1024, budget := Vector.replicate 16 0x10 } }
     let ps := piecesOf s .atomic 0xFE00000000000040 8 8
     okA (s.allow (holdNo 1 0) ps .modify) = false) ∧
    (let s := paged true [] answered
     let ps := piecesOf s .atomic 0xFE00000000000040 8 8
     let s1 := endM (sPieces .atomic 0xFE00000000000040 8 8) s
     ps.length = 1 ∧ okM (sPieces .atomic 0xFE00000000000040 8 8) s = true ∧ okM (scAccess ps .read) s1 = true) ∧
    (let p := Claim.scratchPiece stored (pad 0x10) 8 1 0x10
     Memory.wf stored.mem = true ∧ p.place = .scratch 1 ∧ p.len = 8 ∧ stored.wordsBad (Key.scratch 1 p.addr) 8 = false) := by
  refine ⟨⟨rfl, rfl, by decide, by decide, by decide, by decide, by decide, by decide, by decide, rfl, by decide, by decide, by decide,
    does_of_okR _ (by decide)⟩, by decide, by decide, by decide, by decide⟩

set_option maxRecDepth 100000 in
theorem witness_CacheLines :
    (job id).core.logRoom (job id).core.loopBack = true ∧
    (let at_ (l1 : Tab Moesi) : State := paged true l1 (withG [(5, 0xFE00000000000080)])
     let p := (piecesOf (at_ []) .load 0xFE00000000000080 1 1).headD (Claim.scratchPiece stored 0 0 0 0)
     let end_ (l1 : Tab Moesi) : State := endM (sPieces .load 0xFE00000000000080 1 1) (at_ l1)
     let line := Key.hbm 0 0 0x80
     (at_ []).core.untaken = false ∧ Claim.address (at_ []).core 5 0 128 = 0xFE00000000000080 ∧
     okM (sPieces .load 0xFE00000000000080 1 1) (at_ []) = true ∧ piecesOf (at_ []) .load 0xFE00000000000080 1 1 = [p] ∧
     ownLine p (end_ []) = none ∧ ownLine p (end_ [(line, .e)]) = some (line, .e) ∧ ownLine p (end_ [(line, .o)]) = some (line, .o) ∧
     okR (writeBack 1 line) (end_ [(line, .m)]) = true) := by decide

/-! ### Queues, ports, tensors and the system words -/

/-- R298: a put takes the tail entry; a get of V→S answers the head. -/
theorem test_qput : let t := after (exec (.qputM 5) (job (withG [(5, 77)])))
    (t.core.scalar 2).size = 1 ∧ (t.core.scalar 2).top = 77 := by decide
theorem test_qget : (after (exec (.qget 5) (job fun c => { c with sq := vset c.sq 1 { slot := vset (Vector.replicate 16 0) 3 9, head := 3, tail := 4 } }))).core.readG 5 =
    9 := by decide
/-- R247: an empty S→X queue holds X at its word. -/
theorem test_xqget_holds : let t := after (exec (.xqget 0 1) (job id .x))
    t.core.pcOf .x = 0 ∧ vget t.core.hold .none 1 = .emptyScalar 3 := by decide

theorem witness_ScalarQueues : Claim.free (job id) true ∧ Claim.mayStart (job synced .x) .x 15 ∧
    ((job id).core.scalar 3).size = 0 ∧ ((job fun c => { c with sq := vset c.sq 0 { tail := 16 } }).core.scalar 0).size = 16 :=
  ⟨⟨by decide, by decide⟩, mayStart_synced _ _, by decide, by decide⟩

/-- A ring of 512 bytes at 0x1000 of the scratchpad, of a format, with a head and a tail. -/
def ring (fmt head tail : Dword) : Desc := { w0 := 0x0000020000001000, w1 := fmt, w2 := tail * 2 ^ 32 + head }
def withRing (n : Nat) (d : Desc) (c : Core) : Core := { c with st := vset c.st n d }

/-- R299: a ring of 512 bytes with one complete entry of 256. -/
theorem test_rngstat : (after (exec (.rngstat 5 2) (job (withRing 2 (ring 0 0 256))))).core.readG 5 = 0x0000010000000100 := by decide

theorem witness_RingWords :
    Claim.free (job id) true ∧
    (Claim.ringWord0 0x001000000000000 ∧ Claim.ringWord2 (bits 0x001000000000000 52 32) 0x8000000000000000) ∧
    (Claim.ringWord0 0x0000000000100000 ∧ Claim.ringWord2 0 0) ∧
    ¬ (Claim.ringWord0 0x0000010000100000 ∧ Claim.ringWord2 (bits 0x0000010000100000 52 32) 0) ∧
    (job id).core.state ≠ .trapped ∧ (job id).core.logRoom (gWrite 5 + (job id).core.loopBack) = true ∧
    (let s := job fun c => withRing 2 ((ring 0 0 256).reserve 256) { c with hold := vset c.hold 0 (.device 18) }
     vget s.core.hold .none 0 = .device 18 ∧ vget (job id).core.hold .none 0 ≠ .device 18 ∧ (s.core.desc 2).accepts 2 1 = false ∧
     ¬ (bits (s.core.desc 2).w3 20 0 = 0 ∧ s.core.ringUsed 2 = false)) ∧
    (let d := ring 0 0 256
     Claim.ringWord0 d.w0 ∧ Claim.ringWord2 (bits d.w0 52 32) d.w2 ∧ Claim.avail d + bits d.w3 20 0 ≤ bits d.w0 52 32) := by
  unfold Claim.free Claim.ringWord0 Claim.ringWord2
  refine ⟨by decide, by decide, by decide, by decide, by decide, by decide, by decide, ?_⟩
  exact ⟨by decide, by decide, by decide⟩

/-- Core 1 with a port in some state. -/
def withPort (n : Nat) (p : Port) (c : Core) : Core := { c with ports := vset c.ports n p }

/-- A command of some words. -/
def command (words : List Dword) (ctx : Dword := 0) : Command := {
  words := words, tagPc := 0, tagSeq := 0, g := Vector.replicate 32 0, loops := {}, whole := true, job := 1, ctx := ctx
  order := 0, rsv := none }

/-- R303: a push to ep3 is an illegal operand (class 0x08) with detail 0x40. -/
theorem test_epush_ep3 : vget (after (exec (.epush 5 3) (job id))).core.tr1 0 0 = 0x0008010000000040 := by decide
/-- R303: a word past the command's last is an illegal operand; R304: EPOLL of an idle port answers STATUS 0xFF. -/
theorem test_epush_nw : (after (exec (.epush 5 0) (job (withG [(5, 0)])))).core.pl = 1 := by decide
theorem test_epoll : (after (exec (.epoll 5 0) (job id))).core.readG 5 = 0xFF00000000000000 := by decide

theorem witness_EnginePorts :
    Claim.mayUse (job id) 0 true ∧ Claim.mayUse (job id) 0 false ∧ Claim.mayUse (job fun c => { c with pl := 1 }) 4 true ∧
    (let s := job (withPort 0 { results := List.replicate 32 0 })
     Claim.rout (vget s.core.ports {} 0) + (vget s.core.ports {} 0).results.length = 32 ∧ bit 0x80000000 31 = true ∧
     s.core.logRoom s.core.loopBack = true) ∧
    (let s := job (withPort 0 { part := some (command [0x0002000000000000, 1]) })
     ([0x0002000000000000, 1] : List Dword).length = bits 0x0002000000000000 55 48 ∧ s.core.logRoom s.core.loopBack = true) ∧
    (let s := job (withPort 0 { results := [5], active := [{ header := 0x80000000, pc := 0, job := 1, born := 0 }] })
     s.core.untaken = false ∧ (vget s.core.ports {} 0).results = 5 :: [] ∧ Claim.rout (vget s.core.ports {} 0) ≠ 0 ∧
     Claim.fifoWords (vget s.core.ports {} 0) ≤ 32 ∧ s.core.logRoom (gWrite 5 + s.core.loopBack) = true) ∧
    ((job id).core.state ≠ .trapped ∧ (job id).core.logRoom (job id).core.loopBack = true) ∧
    (vget (job id).core.ports {} 3).results = [] := by
  unfold Claim.mayUse; dsimp only; decide

/-- Die 1 of a package whose four nodes are partition 0's, with tensor 7 of R320's worked example: FP32, (10, 16), strides
(16, 1), BASE 0xFE00000010000000. -/
def tensors (f : Core → Core) : State :=
  let t : BitVec 512 := 0x1000000001000000000000000000000000000000000000000100000000A00000010000000400007
  { job f with
    turn := (257, .s)
    cores := [(257, f { state := .running, job := 1, mesh := 0xB003, mp := vset (Vector.replicate 16 0) 1 0x00000000000010000000000000460001 })]
    parts := vset State.reset.parts 0 { pbench := 0x0001000100010001, pnset := 0x11001
                                        tensors := [(7, t), (8, t + 1)] } }

/-- R320's worked example: rows 6 and 8 seen from D1. -/
theorem test_tloc : let t := after (exec (.tlocR 2 4 1) (tensors (withG [(4, 7), (5, 6), (6, 5)])))
    t.core.readG 2 = 0xFE00000010000114 ∧ t.core.readG 3 = 1 := by decide +kernel
theorem test_tlocD : let t := after (exec (.tlocD 2 4 1) (tensors (withG [(4, 7), (5, 6), (6, 5)])))
    t.core.readG 2 = 0xFE00000010000054 ∧ t.core.readG 3 = 16 := by decide +kernel
theorem test_tlocR_owner : let t := after (exec (.tlocR 2 4 1) (tensors (withG [(4, 7), (5, 8), (6, 0)])))
    t.core.readG 2 = 0xFE00000010000040 ∧ t.core.readG 3 = 17 := by decide +kernel

theorem witness_TensorLocation :
    let s := tensors (withG [(4, 7), (5, 9), (6, 15)])
    ∃ t, s.tensor s.core.part.toNat (s.core.readG 4).toNat = some t ∧ t.rank = 2 ∧ (s.core.readG 4).toNat < 2 ^ 16 ∧
      (29 : BitVec 5).toNat + t.rank ≤ 31 ∧
      (∀ d, d < t.rank → (Claim.tlocIndex s.core 4 t.rank).getD d 0 < t.ext.getD d 0) ∧
      (ShardMap.of (vget s.core.mp 0 1)).validFor t.rank (naxOf s.core.mesh) = true ∧
      (ShardMap.of (vget s.core.mp 0 1)).role.contains rolePartial = false ∧
      s.core.logRoom (gWrite 2 + gWrite 3 + s.core.loopBack) = true := by
  refine ⟨{ id := 7, fmt := 0, ext := [10, 16], stride := [16, 1], base := 0xFE00000010000000 }, ?_⟩
  decide +kernel

/-- Each operand fault of TLOC: no tensor 9, an index past g31, row 10 of ten, a map of another rank, and a partial role. -/
theorem witness_TensorLocation_faults :
    let s (g : List (Nat × Dword)) := tensors (withG g)
    let a := s [(4, 9)]
    let b := s [(30, 7)]
    let c := s [(4, 7), (5, 10), (6, 15)]
    let d := s [(4, 7), (5, 9), (6, 15)]
    let room (s : State) : Bool := s.core.logRoom (gWrite 2 + gWrite 3 + s.core.loopBack)
    let ext (s : State) : List Nat := ((s.tensor 0 7).map (·.ext)).getD []
    let map (x : BitVec 128) : ShardMap := ShardMap.of x
    (room a = true ∧ a.tensor 0 (bits (a.core.readG 4) 15 0) = none) ∧
    (room b = true ∧ (b.tensor 0 (b.core.readG 30).toNat).isSome = true ∧ 31 < (30 : BitVec 5).toNat + (ext b).length) ∧
    (room c = true ∧ ¬ ∀ e, e < 2 → (Claim.tlocIndex c.core 4 2).getD e 0 < (ext c).getD e 0) ∧
    (room d = true ∧ (∀ e, e < 2 → (Claim.tlocIndex d.core 4 2).getD e 0 < (ext d).getD e 0) ∧
      (map 3).validFor 2 (naxOf d.core.mesh) = false) ∧
    (∃ x : BitVec 128, (map x).validFor 2 (naxOf d.core.mesh) = true ∧ (map x).role.contains rolePartial = true) := by
  refine ⟨by decide +kernel, by decide +kernel, by decide +kernel, by decide +kernel, ⟨7, by decide +kernel⟩⟩

theorem witness_MapReads :
    (job id).core.untaken = false ∧ (bits 0x3FFFF 63 18 = 0 ∧ Claim.rolesOk 0x7654) ∧ ¬ Claim.rolesOk 0x8000 ∧
    bits 0x40000 63 18 ≠ 0 ∧ (tensors id).meshOk 0 0xB003 = true ∧ (tensors id).meshOk 0 0xB002 = false ∧
    (blockOf false 10 4 3) = (9, 1) ∧ (blockOf true 10 4 3) = (8, 2) := by
  unfold Claim.rolesOk; decide +kernel

theorem witness_ReshardWords :
    let s := tensors (withG [(4, 0x30008), (5, 7)])
    let h : Dword := 0x2001000880000100
    s.core.state ≠ .trapped ∧ s.core.logRoom s.core.loopBack = true ∧ (0x30008 : Dword).toNat < 2 ^ 18 ∧ (7 : Dword).toNat < 2 ^ 16 ∧
    reshardFault (s.images h 7) 7 8 = none ∧ reshardFault (s.images h 7) 7 7 = some 0x58 ∧ (0, 8) ∉ s.reshardsInFlight 1 ∧
    (vget s.core.ports {} 1).part = none ∧
    (0, 8) ∈ ({ s with cores := s.cores ++ [(258, withPort 1 { fifo := [command [h, 7]] } {})] }).reshardsInFlight 1 ∧
    s.core.untaken = false := by decide +kernel
/-- A reshard to tensor 8 of partition 0. -/
def reshard : Reshard := { part := 0, dst := 8, core := 257, job := 1, ctx := 0, pc := 0, header := 0, source := 7
                           images := { mapS := 0, mapD := 0, mesh := 0, src := none, dst := none }, taken := 0 }
theorem witness_ReshardWords_progress :
    let r := reshard
    (∀ q ∈ ([] : List Reshard), ¬ (q.part = 0 ∧ q.dst = 8)) ∧ [r] = [] ++ r :: [] ∧ (r.part = 0 ∧ r.dst = 8) ∧ r.nstep < 16 ∧
      r.step < 8 ∧ r.landed < 2 ^ 40 := by decide

/-- SMV of a product of one tile of BF16 weights in a channel page, with its result in ring 4. -/
def product : State := paged true [] (fun c => withRing 4 (ring 0 0 0)
  (withG [(8, 0xFE00000000000000), (9, 0), (10, 1), (11, 0), (12, 0x200)] c)) (2 ^ 37 + 2 ^ 21)

theorem witness_StackProductPush :
    let s := product
    let ranges := weightRanges (formatDesc 1) 0xFE00000000000000 0 1 0
    let ps := ansM [] (rangePieces (s.core.req s.me .s .smvRead) ranges) s
    let s2 := endM (rangePieces (s.core.req s.me .s .smvRead) ranges) s
    let vec : Piece := { Claim.scratchPiece s 0 64 s.me 0x200 with va := 0 }
    s.core.state ≠ .trapped ∧ s.core.logRoom s.core.loopBack = true ∧ (vget s.core.ports {} 2).part = none ∧
    (bits 0 63 42 = 0 ∧ bits 0 31 10 = 0 ∧ formatOk 1 = true ∧ (s.core.desc 4).isFrit = false ∧
      Fmt.ofCode (s.core.desc 4).fmt = some .fp32 ∧ (s.core.desc 4).sstride = 0 ∧ 256 ≤ (s.core.desc 4).size ∧
      0x200 % 2 = 0 ∧ 0x200 + 64 * 1 ≤ 0x100000) ∧
    formatOk 7 = false ∧
    okM (Claim.streamWord s false 0xFE00000000000000 1) s = true ∧
    okM (rangePieces (s.core.req s.me .s .smvRead) ranges) s = true ∧
    (∀ p ∈ ps, p.channelHome s2 (dieOf s.me) = true) ∧ okM (loadBytes [vec]) s2 = true ∧
    (vget (withPort 2 { part := some (command [0]) } {}).ports {} 2).part ≠ none := by
  refine ⟨by decide, by decide, by decide, by decide, by decide, by decide, ?_, ?_, ?_, by decide⟩ <;> decide +kernel

/-! ### System words and traps -/

/-- Core 1 at a level, in a handler of a trap from PL0 where `h` is set. -/
def level (pl : BitVec 2) (h : Bool) (f : Core → Core := id) : State :=
  job fun c => f { c with pl := pl, state := if h then .trapped else .running, before := .running }

theorem witness_SystemRegisters :
    let s := level 1 false
    s.core.untaken = false ∧ 1 ≤ s.core.pl.toNat ∧
    Claim.sysFault s.core 0x006 false (Trap.operand 0x70) ∧ Claim.sysFault s.core 0xC00 true Trap.privilege ∧
    Claim.sysFault s.core 0x801 false Trap.privilege ∧ Claim.sysFault s.core 0x028 false (Trap.operand 0x71) ∧
    Claim.sysAllowed s.core 0x005 true ∧ Claim.sysAllowed (level 1 true).core 0x041 false ∧ Claim.sysAllowed s.core 0xB10 false ∧
    Claim.sysAllowed (level 2 false).core 0xCFF true ∧ (0x00F, (0 : Dword)) ∉ Claim.sysReads s ∧
    (0x00E, s.core.tepc2) ∈ Claim.sysReads s := by
  have no (c : Core) (n : Nat) (h : Claim.sysLevel n false = none) : Claim.sysFault c n false (Trap.operand 0x70) := by
    unfold Claim.sysFault; rw [h]
  refine ⟨by decide, by decide, no _ _ (by decide), ?_, ?_, ?_, ⟨1, by decide, by decide, ?_, ?_⟩, ⟨1, by decide, by decide, ?_, ?_⟩,
    ⟨1, by decide, by decide, ?_, ?_⟩, ⟨2, by decide, by decide, ?_, ?_⟩, by decide, by decide⟩
  · exact .inl ⟨by decide, rfl⟩
  · exact .inr (.inl ⟨by decide, by decide, .inl (by decide), rfl⟩)
  · refine .inr (.inr ⟨by decide, ?_, .inl (by decide), by decide, rfl⟩)
    unfold Claim.sysForeign; decide
  all_goals first | (unfold Claim.sysForeign; decide) | (unfold Claim.sysOfCut; decide)

/-- What SYSR and SYSW of the state window, the records, the result FIFOs and the key commands are stated for. -/
theorem witness_SystemRegisters_window :
    let s := level 1 true fun c => { c with wsel := BitVec.ofNat 64 (3 * 2 ^ 56 + 7168), records := [{ syn := 1, addr := 2, det := 3, job := 1 }] }
    Claim.wsel s.core = (3, 8 * 896) ∧ 8 * 896 < Claim.windowBytes.getD 2 0 ∧ Claim.windowBytes.getD 2 0 ≤ 8 * 897 ∧
    s.core.records = { syn := 1, addr := 2, det := 3, job := 1 } :: [] ∧ s.core.records.length < 256 ∧
    (∀ k : Nat, k < 5 → (vget s.core.ports {} k).results.length ≤ 32) ∧ bits (32 : Dword) 5 0 ≤ 32 ∧ s.me < 1024 ∧
    (s.die 0).keycmd = none ∧ bits (0x8000000000000000 : Dword) 63 60 = 8 ∧ bits (0x7000000000000000 : Dword) 63 60 = 7 ∧
    bits (2 : Dword) 1 0 ≠ 3 := by decide +kernel

/-- R401, R404: TSCR1 is written and read; WDATA moves WSEL on by 8. -/
theorem test_sysw : (after (exec (.sysw 5 5) (level 1 false (withG [(5, 77)])))).sysRead 5 = 77 := by decide
theorem test_sysr_window : (after (exec (.sysr 5 0x41) (level 1 true))).core.wsel = 8 := by decide
/-- R404: a word of PL1 at PL0 is the privilege fault: class 0x02, SUB 5, from PL0 in stream S. -/
theorem test_privilege : let t := after (exec .tlbsync (job id))
    t.core.pl = 1 ∧ vget t.core.tr1 0 0 = 0x0002010000000005 := by decide

theorem witness_Privilege :
    (job id).core.pl.toNat < 1 ∧ (level 1 false).core.pl.toNat < 2 ∧ (level 1 false).core.untaken = false ∧
    (level 1 true).core.state = .trapped ∧ (3 : BitVec 3) ≠ 4 := by decide

/-- A trap of class 0x08 at a word of S. -/
def trapOf (pl2 : Bool) : Pending := {
  trap := { cls := 0x08, sub := 5, toPl2 := pl2, syn := some { fsyn := 1, fva := 2, fipa := 3, bank2 := pl2 } }, stream := some .s
  addr := 0x40, word := 7, since := 0 }

theorem witness_TrapEntry :
    let c := (job fun c => { c with monitor := .armed 0x80 128 }).core
    let d := (level 1 true).core
    (c.pl = 0 ∧ Claim.noRewind c ∧ c.owed = Vector.replicate 4 0 ∧ (trapOf true).trap.toPl2 = true ∧ (trapOf false).trap.toPl2 = false) ∧
    (d.pl = 1 ∧ Claim.noRewind d ∧ d.owed = Vector.replicate 4 0) := by
  unfold Claim.noRewind; decide

/-- A core with two untaken commands, the older on port 0, at PL0 and at PL1: S goes back to its tag. -/
theorem witness_TrapEntry_rewound :
    let old := { command [0] with order := 3, tagPc := 0x40, rsv := some (2, 64) }
    let new := { command [1] with order := 4 }
    let f (c : Core) : Core := withPort 0 { fifo := [old] } (withPort 4 { part := some new } c)
    let c := (job f).core
    let d := f (level 1 true).core
    (c.pl = 0 ∧ c.owed = Vector.replicate 4 0 ∧ Claim.oldestCommand c old) ∧
    (d.pl = 1 ∧ d.owed = Vector.replicate 4 0 ∧ Claim.oldestCommand d old) := by
  unfold Claim.oldestCommand; decide +kernel

/-- R391: ECALL traps past its word with class 0x13 and its number; R399: TRAP names its own word. -/
theorem test_ecall : let t := after (exec (.ecall 5) (job id))
    vget t.core.tr1 0 0 = 0x0013010000000005 ∧ vget t.core.cut.pc 0 0 = 4 := by decide
theorem test_trap : let t := after (exec (.trap 9) (job id))
    vget t.core.tr1 0 0 = 0x0014010000000009 ∧ vget t.core.cut.pc 0 0 = 0 := by decide

theorem witness_EcallAndTrap : (job id).core.untaken = false ∧ (job id).core.pl = 0 ∧ (job id).core.pending = none ∧
    (level 1 true).core.pl = 1 ∧ (level 2 true).core.pl = 2 := by decide

/-- A PL2 handler of a trap from PL1. -/
def inner (c : Core) : Core := { c with tr2 := vset c.tr2 0 0x0000060000000000, tepc2 := 0x44 }

theorem witness_TrapReturn :
    let s := level 1 true
    (s.core.untaken = false ∧ s.core.pl = 1 ∧ s.core.abandon = false ∧ s.core.cutOk = true ∧ bits (vget s.core.tr1 0 0) 43 42 ≠ 3) ∧
    (s.core.state = .trapped ∧ s.core.before = .running) ∧
    ((level 2 true inner).core.pl = 2 ∧ bits (vget (level 2 true inner).core.tr2 0 0) 43 42 = 1) ∧
    (level 1 true fun c => { c with abandon := true }).core.abandon = true ∧
    (level 1 true fun c => { c with cut := { c.cut with tkcnt := 17 } }).core.cutOk = false ∧
    (level 1 true fun c => { c with cut := { c.cut with tkcnt := 16 } }).core.cutOk = true := by decide

/-- R399: back to PL1 at TEPC2, and from a cut to the cut's places. -/
theorem test_tret_inner : let t := after (exec .tret (level 2 true inner))
    t.core.pl = 1 ∧ t.core.spc = 0x44 := by decide
theorem test_tret : let t := after (exec .tret (level 1 true fun c => { c with cut := { c.cut with pc := vset c.cut.pc 3 0x80 } }))
    t.core.pl = 0 ∧ t.core.pcOf .v = 0x80 ∧ t.core.state = .running := by decide +kernel

theorem witness_TranslationWords :
    let s := level 2 false (withG [(5, 0xFE00000000000000), (6, 15)])
    s.core.untaken = false ∧ 1 ≤ s.core.pl.toNat ∧ bits 0xFE00000000000000 63 56 = 0xFE ∧ (15 : Dword).toNat < 2 ^ 20 ∧
    (15 : Dword).toNat < 16 ∧ s.core.pl = 2 ∧ (s.tellAll [BitVec.ofNat 64 (ctrlTlbinv + 0 * 2 ^ 8 + s.core.vf.toNat * 2 ^ 16), 0, 15]).isSome = true ∧
    bits 0xFF00000000000000 63 56 ≠ 0xFE ∧ 2 ^ 20 ≤ (0x100000 : Dword).toNat ∧ 16 ≤ (16 : Dword).toNat ∧
    (level 1 false fun c => { c with synced := true }).core.synced = true ∧
    (level 1 false fun c => { c with synced := true }).core.performed = true ∧
    (level 1 false fun c => { c with synced := true }).core.invals = [] := by decide

theorem witness_CachesAndHalt : (job id).core.untaken = false ∧ (level 2 false).core.pl = 2 := by decide
/-- R405: ICINV drops the named stream's line of the address only, on its way from a peer too. -/
theorem test_icinv : let l (va : Dword) : FetchLine := { va := va, data := 0 }
    let s := job fun c => withG [(5, 0x7F)] { c with icache := Vector.replicate 4 [l 0x40, l 0x80]
                                                     fwait := Vector.replicate 4 (.peer 0x40 [0] []) }
    let c := (after (exec (.icinv 5 8) s)).core
    c.icache = #v[[l 0x80], [l 0x40, l 0x80], [l 0x40, l 0x80], [l 0x40, l 0x80]] ∧
    c.fwait = #v[.none, .peer 0x40 [0] [], .peer 0x40 [0] [], .peer 0x40 [0] []] := by decide +kernel
theorem test_halt : (after (exec .halt (level 2 false))).core.state = .offline := by decide

/-! ### The vector engine -/

/-- VSHAPE: format, narrow format and lanes (R183). -/
def shape (fmt nfmt lanes : Nat) (c : Core) : Core := { c with vshape := BitVec.ofNat 64 (fmt + nfmt * 32 + (lanes - 1) * 1024) }
/-- The lanes of a vector register, of some width. -/
def lanes (w : Nat) (l : List Nat) : BitVec 2048 := BitVec.ofNat 2048 (l.foldr (fun x n => x + 2 ^ w * n) 0)
def withV (n : Nat) (x : BitVec 2048) (c : Core) : Core := { c with v := vset c.v n x }

/-- R189: 1.5 + 2.5 in FP32; R186: a shape with no lanes in the format is an operand error. -/
theorem test_vadd : let t := after (exec (.vadd 0 3 1 2 0 0 0) (job (fun c => shape 0 0 2 (withV 1 (lanes 32 [0x3FC00000, 0]) (withV 2 (lanes 32 [0x40200000, 0x3F800000]) c))) .v))
    vget t.core.v 0 3 = lanes 32 [0x40800000, 0x3F800000] := by decide +kernel
/-- R192: NaN compares false and −0 equals +0. -/
theorem test_vcmpeq : let t := after (exec (.vcmpeq 0 3 1 2 0) (job (fun c => shape 0 0 2 (withV 1 (lanes 32 [0x7FC00000, 0x80000000]) (withV 2 (lanes 32 [0x7FC00000, 0]) c))) .v))
    vget t.core.v 0 3 = lanes 32 [0, 0xFFFFFFFF] := by decide +kernel
/-- R198: a rotation by −1 through an immediate. -/
theorem test_vrot : let t := after (exec (.vrot 0 3 1 31 3) (job (fun c => shape 4 0 4 (withV 1 (lanes 32 [1, 2, 3, 4]) c)) .v))
    vget t.core.v 0 3 = lanes 32 [2, 3, 4, 1] := by decide +kernel

/-- The word of a V instruction, for a claim about it. -/
def wordOfV (i : Instr) : Claim.VWord := (Claim.vWord i).getD { sync := 0, vd := 0, vecs := [], sv := false, result := fun _ => none }

theorem witness_VectorResult :
    let i : Instr := .vadd 15 28 28 0 0 0 2
    let w := wordOfV i
    let s := job (fun c => shape 0 0 64 { synced c with
      wq := vset c.wq 0 { tail := 1 }, sq := vset c.sq 0 { tail := 1 } }) .v
    (Claim.vWord i).isSome = true ∧ i.wf = true ∧ Claim.vReady s w ∧ (w.result s.core).isSome = true ∧
    (w.result (job synced .v).core).isSome = true ∧ ((wordOfV (.viadd 15 1 2 3 0)).result (job synced .v).core).isNone = true ∧
    Claim.vReady (job synced .v) (wordOfV (.viadd 15 27 2 3 0)) := by
  unfold Claim.vReady Claim.vRoom Claim.mayStart Claim.holdsWide Claim.hasEntry Claim.hasWide Claim.hasPlace
  refine ⟨rfl, by decide, ⟨by decide +kernel, by decide +kernel, by decide +kernel, by decide +kernel⟩,
    by decide +kernel, by decide +kernel, by decide +kernel, ⟨mayStart_synced _ _, by decide +kernel, by decide +kernel, by decide +kernel⟩⟩

theorem witness_VectorFrame :
    let i : Instr := .vmin 15 30 1 2 0
    let s := job synced .v
    ∃ t, (Claim.vWord i).isSome = true ∧ i.wf = true ∧ Claim.vReady s (wordOfV i) ∧
      ((wordOfV i).result s.core).isSome = true ∧ exec i s = .next t := by
  have ⟨t, h⟩ := next_of_goesOn (o := exec (.vmin 15 30 1 2 0) (job synced .v)) (by decide +kernel)
  refine ⟨t, rfl, by decide, ?_, by decide +kernel, h⟩
  unfold Claim.vReady Claim.vRoom Claim.holdsWide Claim.hasEntry Claim.hasWide Claim.hasPlace
  exact ⟨mayStart_synced _ _, by decide +kernel, by decide +kernel, by decide +kernel⟩

theorem witness_VectorMoves :
    let s := job (fun c => withRing 2 (ring 0 0 256) (synced c)) .v
    Claim.mayStart s .v 15 ∧ Claim.vRoom s.core 28 ∧ (s.core.desc 2).isFrit = false ∧ 256 ≤ (s.core.desc 2).avail ∧
    (s.core.desc 3).avail < 256 ∧ s.ringLoad s.me (s.core.desc 2) (s.core.desc 2).head 256 ≠ none ∧
    ({ s with ecc := [(wordKey (Key.scratch 1 0x1000), [0, 1])] }).ringLoad 1 (s.core.desc 2) 0 256 = none ∧
    ((withRing 2 (ring 0x80 0 0) {}).desc 2).isFrit = true ∧
    Shape.ofWord 0x1160 ≠ none ∧ Shape.ofWord 0xFFFFFFFFFFFFFFFF = none ∧ (s.core.scalar 0).size = 0 := by
  unfold Claim.vRoom Claim.hasWide Claim.hasPlace
  refine ⟨mayStart_synced .v 15, by decide, by decide, by decide, by decide, by decide +kernel, by decide +kernel,
    by decide, by decide, by decide, by decide⟩

/-! ### The matrix engine -/

/-- A ring of 16 KiB at `base` of a format word, with `tail` bytes complete. -/
def tile (base : Nat) (fmt : Dword) (tail : Nat) : Desc := { w0 := BitVec.ofNat 64 (base + 2 ^ 32 * 0x4000), w1 := fmt, w2 := BitVec.ofNat 64 (tail * 2 ^ 32) }

/-- BF16 entries of A in ring 1 and of B in ring 2. -/
def stepping (f : Core → Core) : State := job (fun c => f (withRing 1 (tile 0x0 1 4096) (withRing 2 (tile 0x4000 1 4096) (synced c)))) .m

theorem witness_MatrixSteps :
    (∃ o, Claim.stepOp (.mma 15 3 1 2 1 1 1 1 1 1 0) = some o ∧ (stepping id).core.stepFault o = none ∧
      (stepping id).core.tokens .m o.sync = true ∧ (stepping id).entryB o.stb = some 4096 ∧
      ((stepping id).core.desc o.stb).isFrit = false ∧ 4096 ≤ (stepping id).core.stepAvail o.sta ∧
      (stepping id).core.lastStep = none ∧ (stepping id).inWindow (stepping id).kiln.toNat = true ∧
      ((stepping id).ringLoad 1 ((stepping id).core.desc o.sta) ((stepping id).core.stepHead o.sta) 4096).isSome = true ∧
      ((stepping id).ringLoad 1 ((stepping id).core.desc o.stb) ((stepping id).core.stepHead o.stb) 4096).isSome = true) := by
  refine ⟨_, rfl, by decide +kernel, by decide +kernel, by decide +kernel, by decide +kernel, by decide +kernel, by decide +kernel,
    by decide +kernel, by decide +kernel, by decide +kernel⟩

/-- A timed step at KILN, at the last of STAMP's values, after a step 64 cycles before; and one early, and one late. -/
theorem witness_MatrixSteps_timed :
    let s (k : Dword) (f : Core → Core) : State := { stepping (fun c => f { c with timed := true, tvalid := true, tref := 64 }) with kiln := k }
    let at_ := s (64 + 64 * 255) fun c => { c with lastStep := some (64 * 255) }
    ∃ o, Claim.stepOp (.mmat 0 3 1 2 0 0 0 0 0 0 255) = some o ∧ at_.core.stepFault o = none ∧ o.stamp = 255 ∧
      (at_.core.tref + 64 * BitVec.ofNat 64 o.stamp).toNat = at_.kiln.toNat ∧ (∀ l, at_.core.lastStep = some l → l.toNat + 64 ≤ 64 + 64 * 255) ∧
      at_.inWindow (64 + 64 * 255) = true ∧
      (s 64 id).kiln.toNat < 64 + 64 * 255 ∧ ((s 64 id).core.desc o.stb).isFrit = false ∧ (s 64 id).core.stepFault o = none ∧
      64 + 64 * 255 < (s 20000 id).kiln.toNat ∧ vget (s 20000 id).core.hold .none 2 = .none := by
  refine ⟨_, rfl, by decide, rfl, by decide, ?_, by decide, by decide, by decide, by decide, by decide, by decide⟩
  intro l h
  have : (64 * 255 : Dword) = l := Option.some.inj h
  subst this
  decide

/-- A late step met again after a resumption: its tile is decoded once more, to symbols, to a fault, or not yet. -/
theorem witness_MatrixSteps_again :
    let chunk (n : Nat) (x : Option (BitVec 8192)) : Decoded := { ring := 2, entry := 0, chunk := n, syms := x, detail := 9 }
    let s (l : List Decoded) (k : Option (BitVec 32)) : State := { stepping fun c => withRing 2 (tile 0x4000 0x88 256) { c with
      timed := true, tvalid := true, tref := 64, decoded := l, again := k } with kiln := 20000 }
    let work (s : State) : Option (Option (List Nat)) := match ((tileSymbols 2 (s.core.stepHead 2) 256).run.run s).1 with
      | .ok x => some x
      | .error _ => none
    let done := s [chunk 0 (some 0), chunk 1 (some 0)] (some 0)
    let fails := s [chunk 0 none] (some 0)
    ∃ o, Claim.stepOp (.mmat 0 3 1 2 0 0 0 0 0 0 255) = some o ∧ o.stb = 2 ∧ o.stamp = 255 ∧
      (∀ u ∈ [done, fails, s [] (some 0)], u.core.stepFault o = none ∧ u.core.again = some (vget u.core.seq 0 2) ∧ (u.core.desc 2).isFrit = true ∧
        u.entryB 2 = some 256 ∧ (u.core.tref + 64 * BitVec.ofNat 64 255).toNat < u.kiln.toNat ∧ vget u.core.hold .none 2 = .none) ∧
      (work done).join.isSome = true ∧ done.core.failedBefore 2 (done.core.stepHead 2) 16384 = none ∧ work fails = none ∧
      work (s [] (some 0)) = some none ∧
      (s [chunk 0 none] none).core.again = none ∧ (s [chunk 0 none] none).core.failedBefore 2 0 16384 = some 9 := by
  refine ⟨_, rfl, rfl, rfl, ?_, ?_, ?_, ?_, ?_, ?_, ?_⟩ <;> decide +kernel

/-- A Frit entry of B whose two chunks are decoded. -/
theorem witness_MatrixSteps_frit :
    let d : Desc := tile 0x4000 0x88 256
    let s := stepping fun c => withRing 2 d { c with
      decoded := [0, 1].map fun n => { ring := 2, entry := 0, chunk := n, syms := some 0, detail := 0 } }
    d.isFrit = true ∧ s.entryB 2 = some 256 ∧ okM (tileSymbols 2 (s.core.stepHead 2) 256) s = true := by
  decide +kernel

/-- A step in flight that overwrites accumulator 3 and pops A. -/
def inFlight : MStep := { acc := 3, ow := true, last := true, sums := 0x3F800000, rings := [1, 2], pops := [(1, 4096)], start := 0, posts := 0 }

theorem witness_MatrixSteps_retire :
    let s := stepping fun c => { c with steps := [inFlight] }
    s.me < 1024 ∧ (s.coreAt s.me).steps = [inFlight] ∧ inFlight.acc < 4 ∧ inFlight.posts = 0 := by decide +kernel
/-- R208: a step with OW replaces; R205: TVALID falls with LAST. -/
theorem test_step_retires : let t := after (exec (.stepRetirement 1) (stepping fun c => { c with steps := [inFlight], tvalid := true }))
    t.core.accum 3 = 0x3F800000 ∧ t.core.tvalid = false ∧ (t.core.desc 1).avail = 0 := by decide +kernel
/-- R216: a late step is class 0x10 with the target and LATE. -/
theorem test_late : let t := after (exec (.mma 0 3 1 2 0 0 0 0 0 0 1) { stepping (fun c => { c with timed := true, tvalid := true }) with kiln := 65 })
    vget t.core.tr1 0 1 = 0x4001 ∧ bits (vget t.core.tr1 0 0) 55 48 = 0x10 := by decide +kernel
theorem test_mwin : (after (exec (.mwin 0 4) (stepping id))).core.wreq = 4 := by decide +kernel

theorem witness_MatrixWords :
    let s := stepping fun c => withRing 4 (tile 0x8000 0 0x3000) (withRing 5 (tile 0 1 8192) { c with sq := vset c.sq 2 (c.scalar 2 |> fun q => { q with tail := 1 }) })
    let busy := stepping fun c => { c with steps := [inFlight] }
    Claim.mayStart s .m 15 ∧ Claim.hasEntry s.core 2 ∧ Claim.quiet s.core [3, 0] [5] ∧ ¬ Claim.quiet busy.core [3] [] ∧
    ¬ Claim.plainRing (tile 0 2 0) ∧ Claim.plainRing (s.core.desc 4) ∧ (s.core.desc 4).size = 16384 ∧
    (tile 0 1 0).size = 16384 ∧ Claim.plainBytes (s.core.desc 5) ≤ (s.core.desc 5).avail ∧ Claim.plainBytes (s.core.desc 5) ≤ (s.core.desc 5).room ∧
    Claim.plainRing { w0 := BitVec.ofNat 64 (2 ^ 32 * 0x2000), w1 := 0 } ∧ Claim.plainBytes (tile 0 0 0) = 16384 ∧ Claim.plainRing (s.core.desc 5) ∧
    (∀ m ∈ s.core.steps, m.last = false) ∧ (s.core.desc 5).tail < (s.core.desc 5).size ∧ Memory.wf s.mem = true := by
  unfold Claim.quiet Claim.plainRing Claim.mayStart Claim.hasEntry
  refine ⟨?_, ?_, ?_, ?_, ?_, ?_, ?_, ?_, ?_, ?_, ?_, ?_, ?_, ?_, ?_, ?_⟩ <;> decide +kernel

theorem witness_MatrixWords_mfill :
    let s := stepping fun c => withRing 5 (tile 0 1 8192) c
    (s.ringLoad s.me (s.core.desc 5) (s.core.desc 5).head 8192).isSome = true := by decide +kernel

/-! ### Transfers -/

/-- A BF16 window of 4 rows of 64 columns at ROW0 = `row0` of an area of 4 by 64, PITCH 128, other fields as given. -/
def window (row0 : Nat) (fmt : Nat := 1) (node : Nat := 0) : BitVec 256 :=
  BitVec.ofNat 256 (0xFE00000000000000 + 2 ^ 64 * 128 + 2 ^ 112 * node + 2 ^ 128 * fmt + 2 ^ 144 * 4 + 2 ^ 160 * 64 + 2 ^ 176 * 4 + 2 ^ 192 * 64 +
    2 ^ 208 * row0)
/-- A core whose descriptor 0 is that window, with a ring of BF16 whose entries are complete up to `tail`. -/
def moving (x : BitVec 256) (tail : Nat) (f : Core → Core := id) : State := { paged true [] (fun c =>
  f (withRing 3 (tile 0 1 tail) { synced c with td := vset c.td 0 x })) with turn := (1, .x), tiles := [(tileKey 0 0 0, { zero := true })] }

def moved (i : Instr) (s : State) : State := after (exec i s)

/-- R231, R231: XTDI writes halfword f of a descriptor; XCOPY launches one transfer and reserves its entry. -/
theorem test_xtdi : (after (exec (.xtdi 0 7 13 0xFFFF) (moving 0 0))).core.td = vset (vset (Vector.replicate 8 0) 0 0) 7 (0xFFFF * 2 ^ 208) := by
  decide +kernel
theorem test_xcopy : let t := after (exec (.xcopy 0 0 3 2) (moving (window 0) 0))
    (t.core.desc 3).rsvd = 512 ∧ t.core.xfers.length = 1 := by decide +kernel

theorem witness_TransferWords :
    let s := moving (window 0) 512
    let t := TD.of (s.core.tdesc 0)
    let rows := Claim.rowList t.row0 4
    (∀ sync, s.core.tokens .x sync = true) ∧ entryBytes (t.wrows * t.wcols) t.w = 512 ∧ t.ok = true ∧ t.sealed = false ∧
    Claim.plainOf (s.core.desc 3) t.format 512 ∧ t.inside rows = true ∧ Claim.entryRoom (s.core.desc 3) 512 ∧
    Claim.entryThere s.core 3 512 ∧ s.core.xfers.length < 32 ∧
    okM (windowRows t false rows) s = true ∧ okM (windowRows t true rows) s = true ∧
    (TD.of (moving (window 0 + 2 ^ 133) 0 |>.core.tdesc 0)).ok = false ∧
    (∀ x ∈ s.core.xfers, x.td ≠ 0) ∧ s.core.xfers = [] ∧ (moved (.xcopy 0 0 3 2) s).core.xfers ≠ [] ∧
    ¬ (∀ x ∈ (moved (.xcopy 0 0 3 2) s).core.xfers, x.td ≠ 0) := by
  unfold Claim.plainOf Claim.entryRoom Claim.entryThere
  refine ⟨?_, ?_, ?_, ?_, ?_, ?_, ?_, ?_, ?_, ?_, ?_, ?_, ?_, ?_, ?_, ?_⟩ <;> decide +kernel

/-- A sealed window of whole tiles of the host half, which XCOPY and XPUT take. -/
theorem witness_TransferWords_sealed :
    let x : BitVec 256 := BitVec.ofNat 256 (0x10000 + 2 ^ 64 * 2048 + 2 ^ 128 * 0x101 + 2 ^ 144 + 2 ^ 160 * 1024 + 2 ^ 176 + 2 ^ 192 * 1024)
    let t := TD.of x
    t.ok = true ∧ t.sealed = true ∧ t.sealOk [0] = true ∧ t.inside [0] = true ∧ Claim.plainOf (tile 0 1 0) t.format 2048 := by
  unfold Claim.plainOf; decide +kernel

/-- XCVT of the window to INT8 elements without scales, and a window whose rows an index ring gives. -/
theorem witness_TransferWords_rows :
    let s := moving (window 0) 512 (withRing 4 (tile 0x4000 2 0))
    let g := moving (window 0) 512 (withRing 5 (tile 0x4000 4 256))
    let d := s.core.desc 4
    (Fmt.ofCode 2 = some .i8 ∧ d.isFrit = false ∧ d.fmt = 2 ∧ d.sstride = 0 ∧ entryBytes 256 8 ≤ d.size) ∧
    Claim.plainOf (g.core.desc 5) .i32 (roundUp (4 * 4) 256) ∧ roundUp (4 * 4) 256 ≤ (g.core.desc 5).avail ∧ g.core.claimed 5 = 0 ∧
    (g.ringLoad g.me (g.core.desc 5) (g.core.desc 5).head 256).isSome = true ∧
    okM (windowRows (TD.of (g.core.tdesc 0)) false [0, 0, 0, 0]) g = true ∧ okM (windowRows (TD.of (g.core.tdesc 0)) true [0, 0, 0, 0]) g = true := by
  unfold Claim.plainOf; decide +kernel
/-- XWOPEN of the whole window, XWADV by one row and by all, by none, and by more than the window has. -/
theorem witness_TransferWords_open :
    let s := moving (window 0) 0
    let t := TD.of (s.core.tdesc 0)
    Claim.plainOf (s.core.desc 3) t.format (entryBytes t.wcols t.w) ∧ Claim.entryRoom (s.core.desc 3) (t.wrows * entryBytes t.wcols t.w) ∧
    okM (windowRows t false (Claim.rowList t.row0 4)) s = true ∧ okM (windowRows t false (Claim.rowList t.row0 1)) s = true ∧
    t.inside [] = true ∧ ((s.core.readC .x 3).toNat = 0 ∧ ((moving (window 0) 0 fun c => { c with cx := vset c.cx 3 4 }).core.readC .x 3).toNat = 4 ∧
    t.wrows < ((moving (window 0) 0 fun c => { c with cx := vset c.cx 3 5 }).core.readC .x 3).toNat) := by
  unfold Claim.plainOf Claim.entryRoom; decide +kernel

/-- XKVQ of a row that leaves a full window, and of one before it is full. -/
theorem witness_TransferUnits_kvq :
    let q : BitVec 256 := BitVec.ofNat 256 (0xFE00000000001000 + 2 ^ 64 * 128 + 2 ^ 128 * 8 + 2 ^ 160 * 64 + 2 ^ 176 * 4 + 2 ^ 192 * 64)
    let s (reg : Dword) : State := moving (window 0) 0 fun c => withRing 3 (tile 0 0 256) { c with td := vset c.td 1 q, cx := vset c.cx 2 reg }
    let t := TD.of ((s 4).core.tdesc 0)
    let u := TD.of ((s 4).core.tdesc 1)
    (t.ok = true ∧ u.reserved = false ∧ t.sealed = false ∧ u.sealed = false ∧ (Fmt.ofCode 8).any Fmt.isKv = true ∧ t.format = .bf16 ∧ t.wcols = 64 ∧
      u.fmt = 8 ∧ ((s 4).core.desc 3).isFrit = false ∧ Fmt.ofCode ((s 4).core.desc 3).fmt = some .fp32 ∧ ((s 4).core.desc 3).sstride = 0) ∧
    Claim.entryThere (s 4).core 3 256 ∧ (s 4).core.xfers = [] ∧ (s 4).core.tokens .x 15 = true ∧
    ((s 4).ringLoad 1 ((s 4).core.desc 3) 0 256).isSome = true ∧ t.wrows = 4 ∧
    okM (xPieces .xread (t.addr, 128)) (s 4) = true ∧ okM (xPieces .xwrite (u.addr, 66)) (s 4) = true ∧
    okM (xPieces .xwrite (t.addr + 3 * 128, 128)) (s 3) = true := by
  unfold Claim.entryThere; decide +kernel

/-- The bytes of a Frit image of one tile: its two offsets, and its codes at 8 to 12; then a table of 256 equal frequencies. -/
def image : List (Nat × Byte) := [(0, 8), (4, 12)]
def frequencies : List (Nat × Byte) := (List.range 256).map fun k => (2 * k, 16)
/-- A core whose page, from the start of channel 0, holds some bytes. -/
def imaged (l : List (Nat × Byte)) (x : BitVec 256) (f : Core → Core := id) : State :=
  { moving x 0 f with mem := l.map fun p => (Key.hbm 0 0 p.1, p.2) }

/-- XFILL of the one tile of an image: its offsets are read, and its codes translated. -/
theorem witness_TransferUnits_fill :
    let x : BitVec 256 := BitVec.ofNat 256 (0xFE00000000000000 + 2 ^ 144)
    let s := imaged image x (withRing 3 (tile 0 0x88 0))
    let t := TD.of (s.core.tdesc 0)
    (t.reserved = false ∧ t.sealed = false ∧ (s.core.desc 3).isFrit = true ∧ (s.core.readC .x 2).toNat < t.nt ∧ (s.core.desc 3).sstride = 0) ∧
    okM (xRead t.addr 8) s = true ∧ ansM [] (xRead t.addr 8) s = [8, 0, 0, 0, 12, 0, 0, 0] ∧ 4 * (t.nt + 1) ≤ 8 ∧
    (s.core.desc 3).fritLen 4 ≤ (s.core.desc 3).size ∧ Claim.entryRoom (s.core.desc 3) 256 ∧
    okM (xPieces .xread (t.addr + 8, 4)) s = true := by
  unfold Claim.entryRoom; decide +kernel
/-- XFTL of a table of equal frequencies, and of one whose frequencies are all 0. -/
theorem witness_TransferUnits_table :
    let x : BitVec 256 := BitVec.ofNat 256 0xFE00000000000000
    let s := imaged frequencies x
    let z := imaged [] x
    let t := TD.of (s.core.tdesc 0)
    (t.reserved = false ∧ t.addr.toNat % 2 = 0 ∧ t.sealed = false ∧ s.core.tokens .x 15 = true) ∧
    okM (xRead t.addr 512) s = true ∧ (FritTable.ofImage (ansM [] (xRead t.addr 512) s)).isSome = true ∧
    okM (xRead t.addr 512) z = true ∧ FritTable.ofImage (ansM [] (xRead t.addr 512) z) = none := by
  decide +kernel
/-- XPEER of a window, of one with no row in memory, and of one whose ranges are answered. -/
theorem witness_TransferUnits_peer :
    let s := moving (window 0) 0
    let t := TD.of (s.core.tdesc 0)
    let e := moving (window 4) 0
    (t.ok = true ∧ Claim.plainOf (s.core.desc 3) t.format 512 ∧ t.inside (Claim.rowList t.row0 4) = true ∧ t.sealed = false ∧
      s.inNodeSet s.core.part.toNat t.node = true ∧ bits t.addr 63 56 = 0xFE ∧ Claim.entryRoom (s.core.desc 3) 512) ∧
    peerRanges s.core t (Claim.rowList t.row0 4) ≠ [] ∧ s.core.xwait = .none ∧
    (s.askRanges 0 (.xword 1) (peerRanges s.core t (Claim.rowList t.row0 4))).isSome = true ∧
    peerRanges e.core (TD.of (e.core.tdesc 0)) (Claim.rowList 4 4) = [] ∧
    (TD.of (e.core.tdesc 0)).row0 = 4 ∧ (moving (window 0) 0 fun c => { c with xwait := .answered 0 none [] }).core.xwait = .answered (s.core.pcOf .x) none [] := by
  unfold Claim.plainOf Claim.entryRoom; decide +kernel

/-- A transfer in flight of one row of 128 bytes, into an entry of ring 3. -/
def flying (s : State) : Transfer := {
  op := .xcopy 0 0 3 2, pc := 0, td := 0, tdv := window 0, ring := .fills 3 0 512, rows := [0], job := 1, born := 0
  reads := [{ row := 0, pieces := ansM [] (xPieces .xread (0xFE00000000000000, 128)) s }] }

/-- XPEER of 300 rows of one message each: what it asks first, while it asks for more, and at the end. -/
theorem witness_TransferUnits_ranges :
    let x : BitVec 256 := BitVec.ofNat 256 (0xFE00000000000000 + 2 ^ 64 * 128 + 2 ^ 128 * 1 + 2 ^ 144 * 300 + 2 ^ 160 * 64 + 2 ^ 176 * 300 + 2 ^ 192 * 4)
    let t := TD.of x
    let s (w : Waiting) (asked : Nat) (l : List Transfer) : State := moving x 0 fun c => { c with xwait := w, xasked := asked, xfers := l }
    let early : Transfer := { flying (moving (window 0) 0) with early := true }
    let gs := peerRanges (s .none 0 []).core t (Claim.rowList t.row0 300)
    (t.ok = true ∧ Claim.plainOf ((s .none 0 []).core.desc 3) t.format (entryBytes (300 * 4) 16) ∧ t.inside (Claim.rowList t.row0 300) = true ∧
      t.sealed = false ∧ Claim.entryRoom ((s .none 0 []).core.desc 3) (entryBytes (300 * 4) 16)) ∧
    256 < gs.length ∧ gs.length = 300 ∧
    ((s .none 0 []).askRanges 0 (.xword 1) ((gs.drop 256).take 256)).isSome = true ∧
    (s (.answered 0 none []) 256 []).core.xfers = [] ∧
    (s (.answered 0 none []) 256 [early]).core.xfers.find? (·.early) = some early ∧ (s (.answered 0 none []) 256 [early]).core.xasked < gs.length ∧
    (s .none 256 [early]).core.xwait = .none ∧ ¬ (s (.answered 0 none []) 300 [early]).core.xasked < gs.length := by
  unfold Claim.plainOf Claim.entryRoom; decide +kernel

/-- A record of job 1. -/
def record : Record := { syn := 0, addr := 0, det := 0, job := 1 }
/-- A transfer in flight alone at core 1, in a state where everything lies on its own die. -/
def alone (s : State) (x : Transfer) : Prop :=
  (s.coreAt 1).xfers = [x] ∧ x.done = false ∧ x.early = false ∧ x.waits = [] ∧ x.sent = false ∧ x.bad = none ∧ x.unsent = [] ∧
  s.meetsWrites 1 0 x = false ∧ (∀ q ∈ x.reads ++ x.writes, ∀ p ∈ q.pieces, p.peer s 0 = false) ∧
  okA (s.admitUnits (holdNo 1 5) (s.xferUnits 1 x)) = true
/-- What it reads, in the state that admits it. -/
def readOf (s : State) (x : Transfer) : Except (Nat × Nat × Dword) (List (Nat × Nat)) × State :=
  (readRows { core := 1, st := .x, pc := x.pc, job := x.job } (TD.of x.tdv) x.reads (x.asks.map fun a => a.2.getD [])).run.run
    (endA (s.admitUnits (holdNo 1 5) (s.xferUnits 1 x)))
/-- It still stands at its core, on its own die, and its stream of entries is as it was. -/
def standing (s s1 : State) (x : Transfer) : Prop := (s1.coreAt 1).xfers = [x] ∧ (s1.coreAt 1).blocked = (s.coreAt 1).blocked ∧
  ∀ q ∈ x.writes, ∀ p ∈ q.pieces, p.peer s1 0 = false
def aloft (s : State) (x : Transfer) : State := s.mapCore fun c => { c with xfers := [x] }

theorem witness_TransferCompletion :
    let s0 := moving (window 0) 0 fun c => withRing 3 ((tile 0 1 0).reserve 512) c
    let x := flying s0
    let s := aloft s0 x
    alone s x ∧ good (readOf s x) = true ∧ standing s (readOf s x).2 x ∧ (s.coreAt 1).blocked.getLsbD 3 = false := by
  unfold alone standing; decide +kernel
/-- A row whose first word holds two flipped bits: its read fails, with room for a record of it and without. -/
theorem witness_TransferCompletion_error :
    let s0 := moving (window 0) 0 fun c => withRing 3 ((tile 0 1 0).reserve 512) c
    let x := flying s0
    let failing (l : List Record) : State :=
      { (aloft s0 x).mapCore fun c => { c with records := l } with ecc := [(Key.hbm 0 0 0 / 32, [0, 100])] }
    let full := List.replicate 8 record
    let one (l : List Record) : Prop := let s := failing l; alone s x ∧ good (readOf s x) = false ∧ standing s (readOf s x).2 x
    one [] ∧ one full ∧ ((readOf (failing []) x).2.coreAt 1).records.length < 8 ∧ 8 ≤ ((readOf (failing full) x).2.coreAt 1).records.length := by
  unfold alone standing; decide +kernel
/-- An XFTL in flight whose table is read. -/
theorem witness_TransferCompletion_table :
    let x : Transfer := { op := .xftl 0 0 7, pc := 0, td := 0, tdv := 0, ring := .none, job := 1, born := 0
                          table := some { freq := 0, valid := true } }
    let s := aloft (moving (window 0) 0) x
    alone s x ∧ good (readOf s x) = true ∧ standing s (readOf s x).2 x := by
  unfold alone standing; decide +kernel

/-- An XPUT in flight of one row, from the complete entry of ring 3. -/
def putting (s : State) : Transfer := {
  op := .xput 0 0 3 2, pc := 0, td := 0, tdv := window 0, ring := .drains 3 0 512, rows := [0], job := 1, born := 0
  writes := [{ row := 0, pieces := ansM [] (xPieces .xwrite (0xFE00000000000000, 128)) s }] }
/-- Its row is written on a page that no cache holds; one with a word that X cannot read ends with an error. -/
theorem witness_TransferCompletion_consumer :
    let s0 := moving (window 0) 512
    let x := putting s0
    let s := aloft s0 x
    let e := { s with ecc := [(wordKey (Key.scratch 1 ((s.core.desc 3).at 0 0)), [0, 1])] }
    let rows (s1 : State) := x.out (leNat (s1.ringBytes 1 (s1.core.desc 3) 0 512))
      (fun b => wordBad (Tab.get [] s1.ecc (wordKey (Key.scratch 1 ((s1.core.desc 3).at 0 b))))) []
    let wrote (s1 : State) := s1.writeRows { core := 1, st := .x, pc := 0, job := 1 } (TD.of x.tdv) (rows s1)
    alone s x ∧ good (readOf s x) = true ∧ standing s (readOf s x).2 x ∧ goodVal [] (readOf s x) = [] ∧
    ((wrote (readOf s x).2).2.coreAt 1).xfers = [x] ∧ (wrote (readOf s x).2).1 = none ∧ Memory.wf (readOf s x).2.mem = true ∧
    (∀ o ∈ rows (readOf s x).2, o.low = false ∧ (∀ b ∈ o.bad, b = false) ∧ o.seals = [] ∧ (o.pieces.map (·.len)).sum = o.bytes.length ∧
      ∀ p ∈ o.pieces, p.place = .hbm 0 ∧ p.direct = true) ∧
    alone e x ∧ good (readOf e x) = true ∧ (wrote (readOf e x).2).1 = some (1, 0x11, 0xFE00000000000000) := by
  unfold alone standing; decide +kernel
/-- The entry of a completed XCOPY is complete. -/
theorem test_xcopy_completes : let t := after (exec (.transferCompletion 1 0) (moved (.xcopy 0 0 3 2) (moving (window 0) 0)))
    (t.core.desc 3).avail = 512 ∧ t.core.xfers = [] := by decide +kernel

/-! ### Queues, commands and nodes -/

/-- A descriptor of a queue of 16 entries at 0x10000, enabled, of weight 1 and PASID 0; an INVOKE of program 0; an LNR of one C
level of extent 2. -/
def queueDesc : BitVec 512 := BitVec.ofNat 512 (0x10000 + 2 ^ 64 * 4 + 2 ^ 72 * 1 + 2 ^ 80 * 1)
def invoke : BitVec 2048 := 1
def lnr : BitVec 4096 := BitVec.ofNat 4096 (1 + 2 ^ 32 * 3 + 2 ^ 128 * (2 + 2 ^ 38))
def program : Program := { pinned := true, version := 0, lnrs := [lnr], tensors := [], relocs := [], maps := [], mesh := none }
def queue (w : Dword) (cmd : Option (BitVec 2048)) (runnable : Bool) : QueueSlot := {
  pqn := 0, desc := queueDesc, w := w, ridx := 0, pass := 0, cmd := cmd, runnable := runnable, halted := false, is := Vector.replicate 8 0 }

/-- VF 0 bound to partition 0, whose queue 0 is in slot 0 of die 0; the host has given its descriptors and its ring. -/
def launching (q : Option QueueSlot) (cells : List (Nat × Byte) := []) : State :=
  { (job (fun c => { c with state := .free })).mapFn 0 fun f => { f with vfbind := 0x8000, qdt := 0x20000, shadow := [(1, 5)] } with
    parts := vset State.reset.parts 0 { pbench := 1, pnset := 1 + 2 ^ 48 * 256 }
    dies := vset (Vector.replicate 4 { ilrows := 1024 }) 0 { ilrows := 1024, slots := match q with | some q => [(0, q)] | none => [] }
    programs := [(0, program)]
    mem := cells.map fun p => (Key.host p.1, p.2)
    grants := [{ fn := 0, pasid := none, page := 0x20, hpa := 0x5000, r := true, w := true },
               { fn := 0, pasid := some 0, page := 0x10, hpa := 0x6000, r := true, w := false }] }

/-- The bytes of the descriptor of queue 1 that are not zero. -/
def descCells : List (Nat × Byte) := [(0x5042, 1), (0x5048, 4), (0x5049, 1), (0x504A, 1)]

theorem witness_LaunchEvents_queue :
    let s := launching (some (queue 0 none false))
    s.slotOf 0 = some (0, 0) ∧ s.slot 0 0 = some (queue 0 none false) ∧ (0 : Dword).toNat ≤ (queue 0 none false).w.toNat ∧
    (queue 0 none false).w.toNat < (16 : Dword).toNat ∧ (16 : Dword).toNat ≤ (queue 0 none false).ridx.toNat + 2 ^ (queue 0 none false).field 8 1 ∧
    (queue 0 none false).ridx.toNat + 2 ^ (queue 0 none false).field 8 1 < (17 : Dword).toNat ∧
    s.bound 0 = true ∧ s.homeDie (s.partOfQueue 1) = some 0 ∧ Tab.has (s.fn 0).shadow 1 = true ∧ s.slotOf 1 = none ∧ s.slot 0 255 = none ∧
    s.slotsUsed 0 (s.partOfQueue 1) < bits (s.part (s.partOfQueue 1)).pnset 56 48 ∧
    ((launching none descCells).descRead 1 0 64).any (fun n => descOk (BitVec.ofNat 512 n)) = true ∧
    (s.descRead 1 0 64).any (fun n => !descOk (BitVec.ofNat 512 n)) = true := by decide +kernel

/-- A fetch that fails, and one of an entry of no OP, of a FENCE and of an INVOKE. -/
theorem witness_LaunchEvents_fetch :
    let s (op : Nat) : State := launching (some (queue 1 none false)) [(0x6000, BitVec.ofNat 8 op)]
    let s1 (op : Nat) : State := (s op).mapSlot 0 0 fun q => { q with halted := false }
    let q := queue 1 none false
    let got (op : Nat) : BitVec 2048 := BitVec.ofNat 2048 (leNat (((s1 op).hostRead 0 (some q.pasid) 0x10000 256).getD []))
    q.ridx.toNat < q.w.toNat ∧ q.halted = false ∧ ((s1 1).hostRead 0 (some q.pasid) (q.field 0 8 + 0) 256).isSome = true ∧
    ({ s1 1 with grants := [] }.hostRead 0 (some q.pasid) 0x10000 256) = none ∧
    cmdFault (got 3) = some 1 ∧ (cmdFault (got 2) = none ∧ cf (got 2) 0 1 = 2) ∧ (cmdFault (got 1) = none ∧ cf (got 1) 0 1 = 1) ∧
    (s 1).invokeFault 0 (got 1) = none ∧ (s 1).partOfQueue 0 = 0 ∧ (s 1).programs = [(0 * 64 + cf (got 1) 2 2, program)] ∧ program.lnrs ≠ [] := by
  decide +kernel

theorem witness_LaunchEvents_node :
    let q := queue 1 (some invoke) true
    let s := launching (some q)
    (s.part 0).running = none ∧ leastPass (s.runnables 0) = some (0, 0, q) ∧ s.slot 0 0 = some q ∧
    s.programs.find? (fun x => x.1 == 0 * 64 + cf invoke 2 2) = some (0 * 64 + cf invoke 2 2, program) ∧
    program.lnrs[(vget q.is 0 5).toNat]? = some lnr ∧
    (∀ n ∈ (lnrExtents lnr (cmdRl invoke) (s.meshOf 0 program)).toList, n ≤ 65535) ∧
    q.pass.toNat + 2 ^ 24 / max ((s.descRead q.pqn 0x0A 2).getD (q.field 0x0A 2)) 1 * lf lnr 4 4 < 2 ^ 63 := by decide +kernel

/-- The node of that LNR as it runs, with one iteration left, and with all retired. -/
def running (next retired : Nat) : Running := {
  slot := 0, die := 0, job := 1, lnr := lnr, abandoned := false, flits := 0
  walks := vset (Vector.replicate 4 none) 0 (some { ext := vset (Vector.replicate 6 0) 0 2, next := next, total := 2, retired := retired, started := true }) }
def runningNode (next retired : Nat) (f : Core → Core := id) : State :=
  let s := launching (some (queue 1 (some invoke) true))
  ({ s with parts := vset s.parts 0 { s.part 0 with running := some (running next retired) } }).mapCore f

/-- A core at the rendezvous, with a token left or none. -/
def met (n : BitVec 5) (c : Core) : Core := { c with state := .rendezvous, arrived := Vector.replicate 4 true, tok := vset c.tok 0 n }

theorem witness_LaunchEvents_iteration :
    let s := runningNode 1 0
    (s.part 0).running = some (running 1 0) ∧ (vget (running 1 0).walks none 0).isSome = true ∧ (s.slot 0 0).isSome = true ∧
    (s.freeCores 0 0).head? = some 1 ∧ (1 < 2 ∧ lf lnr 1 1 % 2 ≠ 1) ∧
    (let c := (runningNode 2 1 (met 0)).core
     c.state = .rendezvous ∧ c.pending = none ∧ c.complete = true ∧ c.clean = true) ∧ (runningNode 2 1 (met 1)).core.clean = false ∧
    (runningNode 2 1 (met 1)).core.complete = true ∧
    (let d := runningNode 2 2
     (d.part 0).running = some (running 2 2) ∧ d.diesOf 0 = [0] ∧ d.nodesOf 0 = [d.nodeOf 0] ∧ d.dieDone 0 (running 2 2) 0 = true) := by
  decide +kernel
/-- What the host grants is kept, and its answers stay; VF 0 is offered outside minimal mode. -/
theorem witness_LaunchEvents_granted :
    let s := launching none descCells
    let t := s.keepRange 0 none (s.descAt 1) 64 false
    let q := queue 1 (some invoke) true
    let u := launching (some q)
    let kept (x : State) : State := (x.mapSlot 0 0 fun q => { q with halted := false }).keepRange 0 (some q.pasid) (q.field 0 8) 256 false
    let f := kept (launching (some (queue 1 none false)) [(0x6000, 1)])
    (s.offered 0 = true ∧ s.service.minimal = false) ∧ (t.descRead 1 0 64).any (fun n => descOk (BitVec.ofNat 512 n)) = true ∧
    (f.hostRead 0 (some q.pasid) (q.field 0 8) 256).isSome = true ∧
    { kept { u with grants := [] } with grants := [] }.hostRead 0 (some q.pasid) (q.field 0 8) 256 = none ∧
    q.again = false ∧ u.reread q invoke = some invoke ∧ (running 1 0).stopped = false := by decide +kernel

/-- R84: a core at REND is FREE after its iteration; R24: a token left is class 0x12. -/
theorem test_retire : (after (exec (.iterationRetirement 1) (runningNode 2 1 (met 0)))).core.state = .free ∧
    bits (vget (after (exec (.iterationRetirement 1) (runningNode 2 1 (met 1)))).core.tr1 0 0) 55 48 = 0x12 := by decide +kernel
/-- R81: the walker's second iteration runs at index 1. -/
theorem test_startJob : let t := after (exec (.startJob 0 0) (runningNode 1 0))
    t.core.state = .running ∧ t.core.readG 26 = 1 := by decide +kernel

/-! ### Engines -/

/-- Core 1 with a command at the head of a port, and core 2 as `f` makes it. -/
def issuing (port : Nat) (words : List Dword) (pl : Dword) (f : Core → Core := id) : State :=
  let s := job (withPort port { fifo := [{ command words pl with rsv := none }] })
  { s with cores := s.cores ++ [(2, f { state := .running, job := 1 })] }
/-- The header of a command. -/
def header (op nw : Nat) : Dword := BitVec.ofNat 64 (op * 2 ^ 56 + nw * 2 ^ 48)
def head0 (words : List Dword) (pl : Dword) : Command := { command words pl with rsv := none }

theorem witness_SystemEngine :
    let w (op nw : Nat) (more : List Dword) : List Dword := header op nw :: more
    let at_ (words : List Dword) (s : State) : Prop := Claim.atHead s 1 4 (head0 words 2)
    Claim.atHead (issuing 4 (w 0x30 1 [2]) 1) 1 4 (head0 (w 0x30 1 [2]) 1) ∧ Claim.sysEvent 0x35 1 = some (.unpark 1) ∧
    Claim.sysOk (issuing 4 (w 0x36 1 [2]) 2) 1 (head0 (w 0x36 1 [2]) 2) 0x36 1 ∧
    (let s := issuing 4 (w 0x30 1 [2]) 2
     Claim.sysOk s 1 (head0 (w 0x30 1 [2]) 2) 0x30 1 ∧ (Claim.taken s 1 4).owns 0 2 = true ∧ ((Claim.taken s 1 4).coreAt 2).state = .running ∧
      ((Claim.taken s 1 4).coreAt 2).pending = none) ∧
    (let s := issuing 4 (w 0x33 2 [2, 0x40]) 2 fun c => { c with state := .offline }
     Claim.sysOk s 1 (head0 (w 0x33 2 [2, 0x40]) 2) 0x33 2 ∧ (Claim.taken s 1 4).owns 0 2 = true ∧
      ((Claim.taken s 1 4).coreAt 2).state = .offline ∧ ((Claim.taken s 1 4).coreAt 2).retired = false) ∧
    at_ (w 0x30 1 [2]) (issuing 4 (w 0x30 1 [2]) 2) := by
  unfold Claim.sysOk Claim.atHead
  refine ⟨by decide +kernel, rfl, ?_, ?_, ?_, ?_⟩ <;> decide +kernel

/-- Refused commands: a reserved bit of word 1, one below PL2, one of the wrong NW, a core that is none of the partition's, and
cores, addresses and queues in no state for the command. -/
theorem witness_SystemEngine_refused :
    let at_ (words : List Dword) (pl : Dword) : Prop := Claim.atHead (issuing 4 words pl) 1 4 (head0 words pl)
    let low (words : List Dword) : Prop := bits (words.getD 1 0) 63 (Claim.sysReserved (bits (words.headD 0) 63 56)) = 0
    let ok (words : List Dword) (f : Core → Core) (op : Nat) : Prop := Claim.sysOk (issuing 4 words 2 f) 1 (head0 words 2) op (Claim.sysWords op)
    let owns (words : List Dword) (f : Core → Core) : Bool := (Claim.taken (issuing 4 words 2 f) 1 4).owns 0 (bits (words.getD 1 0) 9 0)
    let state (words : List Dword) (f : Core → Core) : Core := (Claim.taken (issuing 4 words 2 f) 1 4).coreAt (bits (words.getD 1 0) 9 0)
    let w (op : Nat) (core : Dword) (va : Dword := page) : List Dword :=
      if op = 0x30 then [header op 1, core] else [header op 2, core, va]
    (at_ [header 0x30 1, 0x402] 2 ∧ ¬ low [header 0x30 1, 0x402]) ∧ (at_ (w 0x31 2) 1 ∧ low (w 0x31 2)) ∧
    (at_ [header 0x30 2, 2, 0] 2 ∧ low [header 0x30 2, 2, 0]) ∧
    (∀ op ∈ [0x30, 0x31, 0x32, 0x33], ok (w op 300) id op ∧ owns (w op 300) id = false) ∧
    (ok (w 0x30 3) id 0x30 ∧ owns (w 0x30 3) id = true ∧ (state (w 0x30 3) id).state = .free) ∧
    (ok (w 0x31 2) id 0x31 ∧ owns (w 0x31 2) id = true ∧ (state (w 0x31 2) id).fromPl0 = false) ∧
    (ok (w 0x31 2 8) id 0x31 ∧ ¬ Claim.imageVa 8) ∧
    (ok (w 0x32 2) id 0x32 ∧ owns (w 0x32 2) id = true ∧ (state (w 0x32 2) id).state ≠ .free) ∧
    (ok (w 0x33 2) id 0x33 ∧ owns (w 0x33 2) id = true ∧ (state (w 0x33 2) id).state ≠ .offline) ∧
    (ok [header 0x34 1, 0] id 0x34 ∧ (issuing 4 [header 0x34 1, 0] 2).slotOf 0 = none) := by
  unfold Claim.sysOk Claim.atHead Claim.imageVa
  refine ⟨?_, ?_, ?_, ?_, ?_, ?_, ?_, ?_, ?_, ?_⟩ <;> decide +kernel

/-- The core of an engine's command, over the queues and pages of another state. -/
def placed (s l : State) : State := { l with cores := s.cores, turn := s.turn }

theorem witness_SystemEngine_park :
    let q := { queue 1 (some invoke) true with parked := true }
    let w := [header 0x34 1, 0]
    let s := placed (issuing 4 w 2) (launching (some q))
    Claim.sysOk s 1 (head0 w 2) 0x34 1 ∧ s.slotOf 0 = some (0, 0) ∧ s.slot 0 0 = some q ∧ q.cmd ≠ none ∧
    (placed s (runningNode 1 0)).slot 0 0 = some (queue 1 (some invoke) true) ∧
    ((placed s (runningNode 1 0)).part 0).running.any (fun r => r.die == 0 && r.slot == 0) = true := by
  unfold Claim.sysOk Claim.atHead; decide +kernel

/-- A queue without an invocation is not parked; one that is not parked, or whose record is not aligned, not restored. -/
theorem witness_SystemEngine_noInvocation :
    let idle := queue 1 none false
    let q := queue 1 (some invoke) true
    let on (w : List Dword) (q : QueueSlot) : State := placed (issuing 4 w 2) (launching (some q))
    let w : List Dword := [header 0x34 1, 0]
    let v : List Dword := [header 0x35 2, 0, page + 8]
    (Claim.sysOk (on w idle) 1 (head0 w 2) 0x34 1 ∧ (on w idle).slotOf 0 = some (0, 0) ∧ (on w idle).slot 0 0 = some idle ∧ idle.cmd = none) ∧
    (Claim.sysOk (on v q) 1 (head0 v 2) 0x35 2 ∧ (on v q).slotOf 0 = some (0, 0) ∧ (on v q).slot 0 0 = some q ∧ q.parked = false ∧
      (page + 8).toNat % 64 ≠ 0) := by
  unfold Claim.sysOk Claim.atHead; decide +kernel

/-- Core 1 has a translation of a page of its own die from channel tile 0 on. -/
def pages (dpa : Nat) (am : Bool) : State := { paged am [] id dpa with tiles := [(tileKey 0 0 0, { zero := true })] }
/-- That core with a command, and core 2. -/
def engine (port : Nat) (words : List Dword) (pl : Dword) (dpa : Nat := 0) (am : Bool := false) : State :=
  let s := (pages dpa am).mapCore (withPort port { fifo := [head0 words pl] })
  { s with cores := s.cores ++ [(2, { state := .running, job := 1 })] }

theorem witness_SystemEngine_unpark :
    let q := { queue 1 (some invoke) true with parked := true }
    let w := [header 0x35 2, 0, page]
    let cmd := head0 w 2
    let e := engine 4 w 2
    let s := { e with fns := (launching none).fns, parts := (launching none).parts, dies := (launching (some q)).dies }
    let u := Claim.taken s 1 4
    let p1 := u.enginePieces (cmd.req 1 .load) page 0x50
    let r1 := p1.2.fetchAll 36 (cmd.agent 1) (goodVal [] p1)
    let p2 := r1.2.enginePieces (cmd.req 1 .load) (page + 0x50) 0
    Claim.sysOk s 1 cmd 0x35 2 ∧ s.slotOf 0 = some (0, 0) ∧ s.slot 0 0 = some q ∧ q.cmd ≠ none ∧ q.parked = true ∧ page.toNat % 64 = 0 ∧
    deviceRange page 0x50 = true ∧ good p1 = true ∧ good r1 = true ∧ at8 (goodVal [] r1) 0 8 = 0 ∧ at8 (goodVal [] r1) 0x40 4 = 0 ∧
    deviceRange (page + 0x50) 32 = true ∧ good p2 = true ∧ good (p2.2.fetchAll 36 (cmd.agent 1) (goodVal [] p2)) = true := by
  unfold Claim.sysOk Claim.atHead; decide +kernel

/-- RSTORE of one word to a page, and of an OP that is none; MSEND to a core of the node set, and to a node outside it. -/
theorem witness_EngineEvents_fabric :
    let w := [header 0x01 2, page, 7]
    let cmd := head0 w 0
    let s := engine 0 w 0
    let u := Claim.taken s 1 0
    let p := u.enginePieces (cmd.req 1 .store) page 8
    let m (node : Nat) : List Dword := [header 0x02 3, BitVec.ofNat 64 (node * 2 ^ 32 + 7 * 2 ^ 16 + 2), pad 0, page]
    let sm := engine 0 (m 0) 0
    let um := Claim.taken sm 1 0
    let pm := um.enginePieces ((head0 (m 0) 0).req 1 .load) (pad 0) 8
    let am := pm.2.allow (holdNo 1 8) (goodVal [] pm) .read
    let rm := (readAll ((head0 (m 0) 0).agent 1) (goodVal [] pm)).run.run (endA am)
    (Claim.atHead s 1 0 cmd ∧ cmd.op = 0x01 ∧ bits (cmd.words.headD 0) 30 0 = 0 ∧ 2 ≤ cmd.nw ∧ cmd.nw ≤ 31 ∧
      deviceRange page cmd.data.length = true ∧ page.toNat % 8 = 0 ∧ cmd.data.length = 8 ∧ good p = true ∧ (∀ x ∈ goodVal [] p, x.kind ≠ .so) ∧
      ((offsets (goodVal [] p)).foldlM (fun (acc : List Nat × State) o =>
        (acc.2.writePeer 0 (.engine 1 0) o.2 ((cmd.data.drop o.1).take o.2.len) {} (some (cmd.agent 1))).map fun r =>
          (acc.1 ++ r.1, r.2)) ([], p.2)).isSome = true) ∧
    (Claim.atHead (engine 0 [header 0x03 2] 0) 1 0 (head0 [header 0x03 2] 0) ∧ (head0 [header 0x03 2] 0).op ≠ 0x01 ∧ (head0 [header 0x03 2] 0).op ≠ 0x02) ∧
    (Claim.atHead sm 1 0 (head0 (m 0) 0) ∧ (head0 (m 0) 0).op = 0x02 ∧ (head0 (m 0) 0).plain = true ∧ um.inNodeSet 0 0 = true ∧
      um.inNodeSet 0 1 = false ∧ windowRange (pad 0) 8 = true ∧ deviceRange page 8 = true ∧ um.workerAt 0 0 2 = true ∧ good pm = true ∧
      (∀ x ∈ goodVal [] pm, ∃ k ∈ [0, 1], x.place = .scratch k ∧ k / 128 = 0) ∧ okA am = true ∧ good rm = true ∧
      (let g : Range := { dest := 0, part := 0, vf := 0, pasid := 0, va := page, len := 8, write := true, dcore := 2, tag := 0, action := 1, score := 1 }
       (rm.2.askRange 0 (.engine 1 0) g (fun id => rm.2.rangeWrites 0 g ((head0 (m 0) 0).agent 1) (goodVal [] rm) id)).isSome = true)) := by
  unfold Claim.atHead
  refine ⟨?_, ?_, ?_⟩ <;> decide +kernel

/-- A command with a word that holds two flipped bits. -/
theorem witness_EngineEvents_flips :
    let cmd := { head0 [header 0x01 2, page, 7] 0 with flips := [70, 71] }
    let s := job (withPort 0 { fifo := [cmd] })
    (s.coreAt 1).head 0 = some cmd ∧ (s.coreAt 1).released = true ∧ flipsBad cmd.flips = true ∧ cmd.product = none := by decide +kernel

/-- SWRITE of one word to a channel page; STAB of a table, and of one that is none; an OP that the stack engine does not list. -/
theorem witness_EngineEvents_stack :
    let dpa := 2 ^ 37 + 2 ^ 21
    let w := [header 0x10 2, page, 7]
    let cmd := head0 w 0
    let s := engine 2 w 0 dpa true
    let u := Claim.taken { s with tiles := [(tileKey 0 0 1024, { zero := true })] } 1 2
    let p := u.enginePieces (cmd.req 1 .store) page 8
    let t := [header 0x11 2, page, 0x1C0]
    let v := Claim.taken (engine 2 t 0) 1 2
    let pt := v.enginePieces ((head0 t 0).req 1 .load) page 512
    let ag : Agent := cmd.agent 1
    let a := p.2.allow (holdNo 1 10) (goodVal [] p) .write
    let at_ := pt.2.allow (holdNo 1 10) ((goodVal [] pt).filter fun p => !p.peer pt.2 0) .read
    let rt := (imageBytes ag (goodVal [] pt) []).run.run (endA at_)
    let ft := (imageBytes ag (goodVal [] pt) []).run.run { endA at_ with mem := frequencies.map fun p => (Key.hbm 0 0 p.1, p.2) }
    (Claim.atHead s 1 2 cmd ∧ cmd.product = none ∧ (Claim.taken s 1 2).stackAdmits 1 0 = true ∧ cmd.op = 0x10) ∧
    (good p = true ∧ (∀ x ∈ goodVal [] p, x.channelHome p.2 0 = true) ∧ okA a = true ∧
      good (((offsets (goodVal [] p)).forM fun o => writePiece ag o.2 ((cmd.data.drop o.1).take o.2.len) : R Unit).run.run (endA a)) = true) ∧
    (Claim.atHead (engine 2 t 0) 1 2 (head0 t 0) ∧ (head0 t 0).op = 0x11 ∧ (head0 t 0).plain = true ∧ bits ((head0 t 0).word 2) 63 9 = 0 ∧
      (head0 t 0).nw = 2 ∧ deviceRange page 512 = true ∧ (v.die 0).live.getLsbD 0 = true ∧ good pt = true ∧ okA at_ = true ∧
      (∀ x ∈ goodVal [] pt, x.peer (endA at_) 0 = false)) ∧
    (good rt = true ∧ FritTable.ofImage (goodVal [] rt) = none) ∧ (good ft = true ∧ (FritTable.ofImage (goodVal [] ft)).isSome = true) := by
  unfold Claim.atHead
  refine ⟨?_, ?_, ?_, ?_, ?_⟩ <;> decide +kernel

/-- A stack-side product of one tile with all its blocks taken but the last. -/
theorem witness_EngineEvents_product :
    let s := { product with tiles := (List.range 4).map fun k => (tileKey 0 0 (1024 + k), { zero := true }) }
    let ps := ansM [] (rangePieces (s.core.req s.me .s .smvRead) (weightRanges (formatDesc 1) page 0 1 0)) s
    let d : Product := { pc := 0, pieces := ps, waddr := page, nnb := 1, nkb := 1, format := 1, soff := 0, x := List.replicate 32 0, ring := 4
                         off := 0, chan := 0, next := 0, job := 1, born := 0 }
    let cmd := { head0 [header 0x55 5] 0 with product := some d }
    let t := s.mapCore (withPort 2 { fifo := [cmd] })
    let u := s.mapCore fun c => { c with products := [d] }
    let tables (n : Nat) : FritTable := Tab.get {} (u.die 0).stackTables (stackTable 0 0 n)
    let a := u.admitUnits (holdNo 1 6) (d.needs u)
    let sums := (unitSums 1 d tables 0 1).run.run (endA a)
    (Claim.atHead t 1 2 cmd ∧ (t.coreAt 1).products = [] ∧ cmd.product = some d ∧ (Claim.taken t 1 2).stackAdmits 1 0 = true) ∧
    ((u.coreAt 1).products = [d] ∧ okA a = true ∧ d.next + 1 = d.nnb ∧ good sums = true ∧
      (sums.2.coreAt 1).blocked.getLsbD 4 = false) := by
  unfold Claim.atHead
  refine ⟨?_, ?_⟩ <;> decide +kernel

/-- A command for the reshard engine: one that it takes, one with a reserved bit set, one of two words, one whose tensors are
the same, and one of another OP. -/
theorem witness_ReshardEvents_command :
    let g : Option Images := some ((tensors id).images 0x2001000800000100 7)
    let at_ (words : List Dword) : State × Command :=
      (tensors (withPort 1 { fifo := [{ head0 words 0 with images := g }] }), { head0 words 0 with images := g })
    let legal := at_ [0x2001000800000100, 7]
    let bit9 := at_ [0x2001000800000300, 7]
    let two := at_ [0x2002000800000100, 7, 0]
    let same := at_ [0x2001000700000100, 7]
    let other := at_ [0x2101000800000100, 7]
    let there (x : State × Command) : Prop := Claim.atHead x.1 257 1 x.2
    let fault (x : State × Command) (dst : Nat) : Option Nat :=
      reshardFault (x.2.images.getD { mapS := 0, mapD := 0, mesh := 0, src := none, dst := none }) 7 dst
    there legal ∧ there bit9 ∧ there two ∧ there same ∧ there other ∧
    (legal.2.op = 0x20 ∧ legal.2.nw = 1 ∧ bits (legal.2.words.headD 0) 30 9 = 0 ∧ bits (legal.2.word 1) 63 16 = 0 ∧ fault legal 8 = none ∧
      (∀ x ∈ ((Claim.taken legal.1 257 1).die 1).reshards, x.part = legal.2.part → x.dst = 8 → x.closed = true)) ∧
    (bit9.2.op = 0x20 ∧ bits (bit9.2.words.headD 0) 30 9 ≠ 0) ∧
    (two.2.op = 0x20 ∧ two.2.nw ≠ 1 ∧ bits (two.2.words.headD 0) 30 9 = 0 ∧ bits (two.2.word 1) 63 16 = 0) ∧
    (same.2.op = 0x20 ∧ same.2.nw = 1 ∧ fault same 7 ≠ none) ∧ other.2.op ≠ 0x20 := by
  unfold Claim.atHead
  refine ⟨?_, ?_, ?_, ?_, ?_, ?_, ?_, ?_, ?_, ?_⟩ <;> decide +kernel

/-- A reshard on die 0 of a partition of one node; on die 1 of one of four. -/
def resharding (f : Reshard → Reshard) : State :=
  let s := job id
  { s with dies := vset s.dies 0 { ilrows := 1024, reshards := [f { reshard with core := 1 }] } }
def reshardingOf4 : State := let s := tensors id
  { s with dies := vset s.dies 1 { ilrows := 1024, reshards := [reshard] }, kiln := 0x1000001 }
/-- Reshards of dies 0 and 1, a partition of two nodes, each of which has heard the other's digest. -/
def reshardingOf2 (source : Dword) : State :=
  let s := job id
  let r := { reshard with core := 1, heard := [1] }
  { s with parts := vset s.parts 0 { pbench := 1, pnset := 0x1003 }
           dies := vset (vset s.dies 0 { ilrows := 1024, reshards := [r] })
             1 { ilrows := 1024, reshards := [{ reshard with heard := [0], source := source }] } }
/-- A piece and a part of some elements: of the all-zero code, or of one that node 0 supplies. -/
def onePiece (l : List Element) (status : BitVec 8 := 0) : ReshardPiece :=
  { number := 0, step := 0, tile := 0, elements := l, suppliers := [], status := status }
def onePart (slice : Bool) (l : List Element) : ReshardPart := { node := 0, piece := 0, step := 0, slice := slice, elements := l, reads := [] }
def zeroCode : Element := { off := 0, index := none, suppliers := [0] }
def supplied : Element := { off := 0, index := some [], suppliers := [0] }
/-- A reshard that has been planned, over some translations: a page of the die's, none, and a walk whose last table is at node 1. -/
def onPage : State := { paged true [] id with tiles := [(tileKey 0 0 0, { zero := true })] }
def planned (f : Reshard → Reshard) (s : State := onPage) : State :=
  { s with dies := vset s.dies 0 { ilrows := 1024, reshards := [f { reshard with core := 1, planned := true, nstep := 1 }] } }
def walking : State := { job id with bench := [(0, [.table 0 0 0 3 (tableTag page 3) 0 false, .stage2 0 0 65536 1 0 0xFF 3 false])] }
def landing (l : List Element) (status : BitVec 8) : Reshard → Reshard := fun r => { r with pieces := [onePiece l status] }
def sending (slice : Bool) (l : List Element) : Reshard → Reshard := fun r =>
  { r with parts := [onePart slice l], pieces := [{ onePiece l with suppliers := [0] }] }
def arrival : Cullet := { src := 1, inc := 0, msgid := 0, bitmap := 0, total := some 0, write := true, range := none, action := 1, dcore := 2
                          element := 7, job := 1, fpid := 0 }
/-- How a computation of the reshard engine ends: with nothing, a STATUS, or waiting. -/
def ends {α : Type} (x : E α) (s : State) : Option (Option (BitVec 8)) := match (x.run.run s).1 with | .ok _ => none | .error e => some e

theorem witness_ReshardEvents :
    let s := resharding id
    let r := { reshard with core := 1 }
    let t := reshardingOf4
    let r0 (u : State) : Reshard := ((u.die 0).reshards)[0]?.getD r
    let agree (u : State) : Bool := (Claim.sameReshards u (r0 u)).all fun x => x.operands == (r0 u).operands && x.status != 0x07 &&
      decide (x.taken.toNat ≤ Claim.firstTaken u (r0 u) + 2 ^ 24)
    let ready (u : State) : Prop := (u.coreAt 1).head 1 = none ∧ (∀ x ∈ (u.die 0).reshards, x.core = 1 → x.untold = []) ∧
      (u.die 0).reshards.find? (u.reshardReady 0 1) = some (r0 u)
    (ready (reshardingOf2 7) ∧ agree (reshardingOf2 7) = true) ∧ (ready (reshardingOf2 8) ∧ agree (reshardingOf2 8) = false) ∧
    ready s ∧
    ((t.die 1).reshards[0]? = some reshard ∧ reshard.planned = false ∧ reshard.taken.toNat + 2 ^ 24 < t.kiln.toNat ∧
      t.nodeOf 3 ∈ t.nodesOf 0 ∧ t.dieOfNode (t.nodeOf 3) = some 3 ∧ (t.die 3).reshards = []) ∧
    ((s.die 0).reshards[0]? = some r ∧ s.kiln.toNat ≤ Claim.firstTaken s r + 2 ^ 24) ∧
    (arrival.holds 2 = true ∧ ((job id).coreAt 2 |>.port 3).results.length < 32) := by
  refine ⟨?_, ?_, ?_, ?_, ?_, ?_⟩ <;> decide +kernel
/-- The pieces that land: of no element, of one on the die's own page, on a page that nothing maps, behind a walk that waits,
and one that an error has ended. -/
theorem witness_ReshardEvents_land :
    let work (s : State) (p : ReshardPiece) := landCodes reshard (s.jobOf 0 reshard.images) 0 (p.codes (s.jobOf 0 reshard.images))
    let one (l : List Element) (t : State) (e : Option (Option (BitVec 8))) : Prop :=
      let s := planned (landing l 0) t
      (s.piecesOf 0)[0]? = some (landing l 0 { reshard with core := 1, planned := true, nstep := 1 }, .land (onePiece l)) ∧
      ends (work s (onePiece l)) s = e
    one [] (job id) none ∧ one [zeroCode] onPage none ∧ one [zeroCode] (job id) (some (some 0x02)) ∧
    one [zeroCode] walking (some none) ∧
    ((planned (landing [] 6)).piecesOf 0)[0]? =
      some (landing [] 6 { reshard with core := 1, planned := true, nstep := 1 }, .land (onePiece [] 6)) ∧
    ((planned id).piecesOf 0) = [] := by
  refine ⟨?_, ?_, ?_, ?_, ?_, ?_⟩ <;> decide +kernel
/-- The parts that are sent or, by a SLICE, written: their codes are formed, or cannot be, or wait; they land, or cannot; and a
message of the node is free, or none is. -/
theorem witness_ReshardEvents_part :
    let form (s : State) (l : List Element) := formCodes reshard (s.jobOf 0 reshard.images) 0 0 l
    let land (s : State) (l : List Element) := do landCodes reshard (s.jobOf 0 reshard.images) 0 (← form s l)
    let one (slice : Bool) (l : List Element) (t : State) (e e' : Option (Option (BitVec 8))) : Prop :=
      let s := planned (sending slice l) t
      (s.piecesOf 0)[0]? = some (sending slice l { reshard with core := 1, planned := true, nstep := 1 }, .part (onePart slice l)) ∧
      ends (form s l) s = e ∧ ends (land s l) s = e'
    (∀ slice, one slice [supplied] onPage none none ∧ one slice [zeroCode] (job id) none (some (some 0x02)) ∧
      one slice [supplied] (job id) (some (some 0x02)) (some (some 0x02)) ∧ one slice [supplied] walking (some none) (some none)) ∧
    (let s := planned (sending false [supplied])
     let r := sending false [supplied] { reshard with core := 1, planned := true, nstep := 1 }
     (s.askRange 0 (.piece 0 8 0) (r.range (s.jobOf 0 reshard.images) (onePart false [supplied])) fun _ => []).isSome = true) := by
  refine ⟨fun slice => ?_, ?_⟩
  · cases slice <;> refine ⟨?_, ?_, ?_, ?_⟩ <;> decide +kernel
  · decide +kernel
/-- A die all of whose message identifiers are in use asks for no range. -/
theorem fullDie : ∃ d : Die, d.freeMsg = none :=
  ⟨{ reqs := (List.range 1024).map fun id =>
      { msgid := id, dest := 1, owner := .xfer 0, kind := 0, part := 0, addr := 0, len := 0, flits := [] } }, by
    simp only [Die.freeMsg, List.find?_eq_none, List.mem_range]
    intro n _
    by_cases hn : n < 1024 <;> simp [hn]⟩
theorem witness_ReshardEvents_full : ∃ s : State, ∀ g, s.askRange 0 (.piece 0 8 0) g (fun _ => []) = none := by
  obtain ⟨d, h⟩ := fullDie
  refine ⟨{ planned (sending false [supplied]) with dies := Vector.replicate 4 d }, fun g => ?_⟩
  have hd : State.die { planned (sending false [supplied]) with dies := Vector.replicate 4 d } 0 = d := by simp [State.die, vget]
  simp only [State.askRange, hd, h]

/-! ### Cores, caches and memory -/

/-- A trap that drains and that is since cycle 0. -/
def draining : Pending := { trap := { cls := 0x07 }, stream := some .s, addr := 0, word := 7, since := 0 }

theorem witness_CoreEvents :
    (let h (n : Nat) : Core → Core := fun c => { c with hold := Vector.replicate 4 (.emptyWide n), stall := BitVec.allOnes 20 }
     (job (h 0)).core.stalled = true ∧ (job (h 0)).core.stall = BitVec.allOnes 20 ∧ (job id).core.stalled = false ∧
      (Hold.emptyWide 0).row < 256) ∧
    (let c := (job fun c => { c with pending := some draining, stopped := Vector.replicate 4 true }).core
     c.pending = some draining ∧ c.stopDone draining = true ∧
      (job fun c => { c with pending := some draining, xfers := [flying (moving (window 0) 0)] }).core.stopDone draining = false ∧
      draining.trap.stop = .drain ∧ draining.since.toNat + 4096 ≤ (4096 : Dword).toNat) ∧
    (let c := (job fun c => { c with records := [record] }).core
     c.records = [record] ∧ c.job ≠ 0 ∧ record.job = c.job ∧ c.state = .running ∧ c.pending = none) ∧
    (let s := { job fun c => { c with records := [record], job := 2 } with jobs := [(1, 5)] }
     (s.core.job = 0 ∨ record.job ≠ s.core.job) ∧ s.me % 256 ≠ 0 ∧ s.jobs.find? (fun p => p.1 == record.job) = some (record.job, 5) ∧
      (job id).jobs.find? (fun p => p.1 == record.job) = none) ∧
    (let c := (level 1 true fun c => { c with wsel := 0x0100000000000000 + 248 }).core
     c.fromPl0 = true ∧ bits c.wsel 63 56 = 1 ∧ bits c.wsel 23 0 < regionSize (bits c.wsel 63 56) ∧ bits c.wsel 23 0 % 8 = 0) ∧
    (let f : QueueFill := { pieces := [], data := some 7, born := 0 }
     vget (job fun c => { c with fills := vset c.fills 3 [f] }).core.fills [] 3 = f :: []) ∧
    (let f : QueueFill := { pieces := [Claim.scratchPiece (job id) 0 8 1 0], data := none, born := 0 }
     let s := job fun c => { c with fills := vset c.fills 3 [f] }
     let reads (s : State) := (f.pieces.mapM (readPiece { core := 1, st := .s, pc := 0 })).run.run s
     vget s.core.fills [] 3 = f :: [] ∧ good (reads s) = true ∧
       good (reads { s with ecc := [(wordKey (Key.scratch 1 0), [0, 1])] }) = false) := by
  refine ⟨?_, ?_, ?_, ?_, ?_, ?_, ?_⟩ <;> decide +kernel

theorem witness_MemoryEvents :
    let s := { job id with cores := [], parts := vset State.reset.parts 0 { pbench := 1, pbenchNext := some 0x8000000000000002 } }
    let k := tileKey 0 0 0
    let one := { s with ecc := [(Key.hbm 0 0 0 / 32, [0])] }
    let bad := { s with ecc := [(Key.hbm 0 0 0 / 32, [0, 255])] }
    let held (b : Dword) : State := { job id with
      l2 := [(k, { dirty := 1 })], tiles := [(k, { zero := true })]
      dies := Vector.replicate 4 { ilrows := 1024, budget := Vector.replicate 16 b } }
    (Memory.wf s.mem = true ∧ (∀ p ∈ (job id).cores, p.2.waiting = .none) ∧ s.drops = 0 ∧ s.atsInvals = []) ∧
    s.movedBenches = [0, 1, 63] ∧ (∀ b ∈ s.movedBenches, ∀ i : Nat, i < 16 → Tab.has s.cores (16 * b + i) = false) ∧
    (0 ∈ s.moving ∧ 1 ∉ s.moving) ∧
    s.tilePlace 0 0 = some (0, 0, 0) ∧ Tab.has s.l2 k = false ∧ Tab.has (held 0).l2 k = true ∧
    ((held 0xFFFFFFFFFFFFFFFF).affords ((held 0xFFFFFFFFFFFFFFFF).evict 0 0 0) holdOther = true ∧
      (held 0).affords ((held 0).evict 0 0 0) holdOther = false) ∧
    (s.tileFlips 0 0 0).filter (fun p => !p.2.isEmpty) = [] ∧ (one.tileFlips 0 0 0).filter (fun p => !p.2.isEmpty) ≠ [] ∧
    (∀ p ∈ (one.tileFlips 0 0 0).filter (fun p => !p.2.isEmpty), granuleBad p.2 = false) ∧
    (∃ p ∈ (bad.tileFlips 0 0 0).filter (fun p => !p.2.isEmpty), granuleBad p.2 = true) ∧
    (s.dieOfNode 17 = some 3 ∧ (s.die 3).placeOf 2047 = some (0, 2047) ∧ 0x10000 - 1 < regionSize 4 ∧ 0 < culletSize) := by
  refine ⟨by decide, by decide +kernel, ?_, ?_, ?_, ?_, ?_, ?_, ?_, ?_, ?_, ?_, ?_⟩ <;> decide +kernel

theorem witness_RegisterWrites :
    let s := { (job id).mapFn 0 fun f => { f with vfbind := 0x8003 } with cores := [(1, { state := .running })] }
    let x : Dword := 1
    (∀ b : Nat, b < 64 → (s.part 0).pbench.getLsbD b ≠ (3 : Dword).getLsbD b → s.quiescent b = true ∧ s.benchRetired b = false ∧
      ∀ q : Nat, q < 16 → q ≠ 0 → (s.part q).pbench.getLsbD b = false ∧ ((s.part q).pbenchNext.getD 0).getLsbD b = false) ∧
    (∀ b : Nat, b < 1 → (s.part 0).pbench.getLsbD b ≠ (0 : Dword).getLsbD b ∧ s.quiescent b = false ∧ s.benchRetired b = false) ∧
    ((∀ q : Nat, q < 16 → q ≠ 0 → ∀ d : Nat, d < 4 → ¬ (({ s with parts := vset s.parts 0 { pbench := 1, pnset := x } }).inNodeSet q (s.nodeOf d) = true)) ∧
      bits (1 + 2 ^ 48 * 256) 56 48 = 256 ∧ bits (1 + 2 ^ 48 * 257) 56 48 = 257) ∧
    (let t := { s with parts := vset s.parts 1 { pnset := 1 } }
     t.inNodeSet 0 (t.nodeOf 0) = true ∧ t.inNodeSet 1 (t.nodeOf 0) = true ∧ bits (t.part 0).pbench 15 0 ≠ 0) ∧
    (let t := { s with fns := (List.range 12).map fun k => (k, { vfbind := 0x8003 }) }
     ((List.range 192).filter fun k => k != 12 && t.bound k && bits (t.fn k).vfbind 3 0 == bits 0x8003 3 0).length = 12 ∧ t.bound 12 = false) ∧
    s.bound 0 = true ∧ (0x0003 : Dword).getLsbD 15 = false ∧
    bits 0x000100010001000F 15 4 = 0 ∧ ¬ (bits 0x0001000100010010 63 48 = 0 ∨ bits 0x0001000100010010 47 32 = 0 ∨
      bits 0x0001000100010010 31 16 = 0 ∨ bits 0x0001000100010010 15 4 = 0) ∧
    ((16 : Dword).toNat % 32 = 16 ∧ (17 : Dword).toNat % 32 = 17 ∧ (32 : Dword).toNat % 32 = 0) ∧
    (chrows < 2 ^ 20 - 1 ∨ chrows = 2 ^ 20) ∧ (0 : Nat) ≤ chrows := by
  refine ⟨?_, ?_, ?_, ?_, ?_, ?_, ?_, ?_, ?_, ?_, ?_, ?_⟩ <;> decide +kernel
/-- Quotas of one home die within 256 and beyond it: of partitions 0 and 1, both on die 0. -/
theorem witness_RegisterWrites_shares :
    let part (bench quota : Nat) : Part := { pbench := BitVec.ofNat 64 bench, pnset := BitVec.ofNat 64 (1 + quota * 2 ^ 48) }
    let s (quota : Nat) : State := { job id with parts := vset (vset State.reset.parts 0 (part 1 quota)) 1 (part 2 56) }
    let bench (s : State) : Bool := ((s.mapPart 0 fun q => { q with pbenchNext := some 5 }).withMoves (List.range 16)).sharesOk 0
    let alone : State := job id
    bench alone = true ∧ bench (s 201) = false ∧ bench (s 200) = false ∧
    (∀ b : Nat, b < 64 → (alone.part 0).pbench.getLsbD b ≠ (1 : Dword).getLsbD b → alone.benchRetired b = false) := by
  refine ⟨?_, ?_, ?_, ?_⟩ <;> decide +kernel
theorem test_budget_zero : (after (exec (.budgetRegisterWrite 0 3 0x000100010001000F) (job id))).dies = (job id).dies := by decide +kernel

/-- A key command on die 0 with its parameter block at DPA 0, and a slot of a partition. -/
def keying (op : Nat) (k : KeySlot) (cells : List (Nat × Byte) := []) : State :=
  let s := job id
  { s with dies := vset s.dies 0 { ilrows := 1024, keycmd := some (BitVec.ofNat 64 (op * 2 ^ 60)), keys := [(0, k)] }
           mem := cells.map fun p => (Key.hbm 0 0 p.1, p.2) }

/-- Whether UNWRAP accepts a block is the implementation's (uninterpreted): one of its two clauses holds of the block. -/
theorem witness_KeyCommands :
    let full : KeySlot := { full := #v[true, true], val := #v[3, 5] }
    let x (op : Nat) : Dword := BitVec.ofNat 64 (op * 2 ^ 60)
    (∀ op, op < 8 → ((keying op {}).die 0).keycmd = some (x op) ∧ bits (x op) 63 60 = op) ∧
    (let k := (keying 1 full).keyOf 0 (x 1)
     k.pending ≠ none ∨ vget k.full false (if k.cur then 0 else 1) = true) ∧
    (let k := (keying 1 {}).keyOf 0 (x 1)
     k.pending = none ∧ vget k.full false (if k.cur then 0 else 1) = false ∧ vget k.full false (if k.cur then 1 else 0) = false) ∧
    vget ((keying 4 full).keyOf 0 (x 4)).full false 0 = true ∧
    ((keying 2 {}).paramBlock 0 0).isSome = true ∧ { keying 2 {} with ecc := [(0, [0, 255])] }.paramBlock 0 0 = none ∧
    ((keying 3 {}).paramBlock 0 0 = some (List.replicate 128 0)) ∧
    (let s := keying 5 full [(8, 1)]
     let bs := (s.paramBlock 0 0).getD []
     at8 bs 0 8 = 0 ∧ at8 bs 8 8 = 1 ∧ (s.die 0).hasTiles 0 1 = true ∧ (s.die 0).keyDone < 1 ∧ (s.die 0).placeOf (0 + 2048 * 0) = some (0, 0) ∧
      (s.die 0).keyRange = none ∧ okA (s.sweepTile 0 (x 5) 0 0) = true) ∧
    (let bs := ((keying 5 {} [(0, 1)]).paramBlock 0 0).getD []
     (((keying 5 {}).die 0).hasTiles (at8 bs 0 8) (at8 bs 8 8) = false)) := by
  refine ⟨?_, ?_, ?_, ?_, ?_, ?_, ?_, ?_, ?_⟩ <;> decide +kernel

/-- A parameter block that cannot be read. -/
theorem witness_KeyCommands_block : ∀ op ∈ [2, 3, 4, 5, 7],
    let s := { keying op {} with ecc := [(0, [0, 255])] }
    s.paramBlock 0 0 = none ∧ (s.die 0).keycmd = some (BitVec.ofNat 64 (op * 2 ^ 60)) ∧ (s.die 0).keyRange = none := by
  decide +kernel

/-- The package after its boot. -/
def ready (f : Service → Service := id) : State := let s := job id
  { s with service := f { s.service with ready := true } }

theorem witness_HostRegisters :
    let s := ready
    let x : Dword := 0x0103F00000000000
    (s.service.minimal = false ∧ (ready fun v => { v with minimal := true }).service.minimal = true) ∧
    (s.service.busy = none ∧ (ready fun v => { v with busy := some 0 }).service.busy ≠ none) ∧
    bits x 63 56 ∈ [0x01, 0x02, 0x03, 0x04, 0x10, 0x20, 0x21, 0x22, 0x23] ∧
    (bits 0x0204000000000000 63 56 = 2 ∧ ¬ bits 0x0204000000000000 53 44 < 64) ∧ (s.offered 191 = true ∧ s.offered physFn = true) ∧
    (s.service.imgBusy = false ∧ (1 : Dword).getLsbD 0 = true) ∧ (s.fn 0).attBusy = false ∧
    (let t := { s.mapFn 0 fun f => { f with attBusy := true, attaddr := 0x20000, vfbind := 0x8000 } with
       grants := [{ fn := 0, pasid := none, page := 0x20, hpa := 0x5000, r := true, w := true }] }
     (t.fn 0).attBusy = true ∧ (t.reportBody 0).2.2.hostGrants 0 none ((t.reportBody 0).2.2.fn 0).attaddr.toNat 512 = true ∧
      ({ t with grants := [] }.reportBody 0).2.2.hostGrants 0 none (({ t with grants := [] }.reportBody 0).2.2.fn 0).attaddr.toNat 512 = false) := by
  refine ⟨?_, ?_, ?_, ?_, ?_, ?_, ?_, ?_⟩ <;> decide +kernel

/-- R349: S1CTB stores its fields alone; R7: NOTIFY reads zero. -/
theorem test_register_write : let t := after (exec (.registerWrite 3 0x1008 0xFFFFFFFFFFFFFFFF) ready)
    t.barRead 3 0x1008 = 0x0000FFFFFFFF0001 ∧ t.barRead 3 0x40 = 0 := by decide +kernel
/-- R431: at 105 degrees NTOK is 1 from the next tick on. -/
theorem test_thermal : ((after (exec (.thermalAction 2 105) ready)).die 2).ntokNext = some 1 := by decide +kernel
/-- R390: a report that the host does not let the device write ends with result 0x0A, above a busy bit of 0. -/
theorem test_attestation_denied :
    (after (exec (.attestationRequest 0) (ready.mapFn 0 fun f => { f with attBusy := true }))).barRead 0 0x1228 = 0x0A00 := by decide +kernel

/-- The example "abc" of FIPS 180-4, for the hash of R389 and R390. -/
theorem test_sha256 : beNat (shaBytes [0x61, 0x62, 0x63]) =
    0xba7816bf8f01cfea414140de5dae2223b00361a396177a9cb410ff61f20015ad := by decide +kernel

/-- A service command: its OP, die and unit. -/
def svc (op die unit : Nat) : Dword := BitVec.ofNat 64 (op * 2 ^ 56 + die * 2 ^ 54 + unit * 2 ^ 44)
def serving (op die unit : Nat) (f : Core → Core := id) : State := let s := job f
  { s with service := { s.service with ready := true, busy := some (svc op die unit) } }

theorem witness_ServiceCommands_units :
    (∀ op, op ∈ [1, 2, 3, 4, 0x10, 0x20, 0x21, 0x22, 0x23] → Claim.serving (serving op 0 1) (svc op 0 1) op ∧ bits (svc op 0 1) 53 44 = 1) ∧
    ((serving 1 0 1 fun c => { c with retired := true }).coreAt 1).retired = true ∧
    ((serving 1 0 1 fun c => { c with state := .free }).coreAt 1).state = .free ∧
    (let c := (serving 1 0 1).coreAt 1
     c.state = .running ∧ c.pending = none ∧ c.pl ≠ 2 ∧ c.retired = false) ∧
    (let s := serving 1 0 1 fun c => { c with state := .trapped, before := .running, pl := 2, tr2 := vset c.tr2 0 0x0016000000000000 }
     let c := s.coreAt 1
     c.state = .trapped ∧ c.pl = 2 ∧ bits (vget c.tr2 0 0) 55 48 = 0x16 ∧ c.fromPl0 = true ∧ c.portsQuiet = true ∧
      (s.freeCores c.part.toNat (dieOf 1)).find? (· != 1) = some 2) ∧
    (let s := serving 2 0 63
     (∃ k ∈ Claim.benchCores 63, (s.coreAt k).retired = false) ∧ (∀ k ∈ Claim.benchCores 63, (s.coreAt k).state = .free ∨ (s.coreAt k).state = .offline) ∧
      ∀ k ∈ Claim.benchCores 63, ({ s with cores := (List.range 16).map fun i => (63 * 16 + i, { retired := true }) }.coreAt k).retired = true) := by
  unfold Claim.serving
  refine ⟨?_, ?_, ?_, ?_, ?_, ?_⟩ <;> decide +kernel

/-- RETIRE.CORE where no core of the partition is FREE; RETIRE.BENCH of a bench whose cores run, which goes on; RETIRE.LINK later. -/
theorem witness_ServiceCommands_waiting :
    (let stop (c : Core) : Core := { c with state := .trapped, before := .running, pl := 2, tr2 := vset c.tr2 0 0x0016000000000000 }
     let s := { serving 1 0 1 with cores := (1, stop {}) :: (List.range 14).map fun i => (i + 2, { state := .running }) }
     let c := s.coreAt 1
     c.state = .trapped ∧ c.pl = 2 ∧ bits (vget c.tr2 0 0) 55 48 = 0x16 ∧ c.fromPl0 = true ∧ c.portsQuiet = true ∧
      (s.freeCores c.part.toNat (dieOf 1)).find? (· != 1) = none) ∧
    (let all (t : State) (b : Nat) : Bool := (Claim.benchCores b).all fun k => (t.coreAt k).retired
     let step (s : State) (b : Nat) : State :=
       (Claim.benchCores b).foldl (fun t k => if (t.coreAt k).retired = true then t else t.retireCore k) s
     all (serving 2 0 63) 63 = false ∧ all (step (serving 2 0 63) 63) 63 = true ∧
       all (serving 2 0 0) 0 = false ∧ all (step (serving 2 0 0) 0) 0 = false) ∧
    (let s (f : Link → Link) : State := { (serving 4 0 5).mapLink 0 5 f with service := { (serving 4 0 5).service with stage := 1 } }
     ((s fun l => { l with retired := true }).link 0 5).retired = true ∧
      (s fun l => { l with up := true, unacked := [{ ctr := 0, tag := 0, flits := [] }] }).drained 0 5 = false) := by
  refine ⟨?_, ?_, ?_⟩ <;> decide +kernel

theorem witness_ServiceCommands_channels :
    let s := serving 3 0 0
    let one := { s with dies := vset s.dies 0 { live := 1 } }
    ((s.die 0).live.getLsbD 0 = true ∧ 1 < (s.die 0).liveList.length ∧ s.invocations [0] = []) ∧
    ((one.die 0).live.getLsbD 1 = false ∧ (one.die 0).live.getLsbD 0 = true ∧ (one.die 0).liveList.length ≤ 1) ∧
    (let t := serving 4 0 5
     let up := t.mapLink 0 5 fun l => { l with up := true }
     (t.link 0 5).retired = false ∧ (t.link 0 5).up = false ∧ t.linkNeeded 0 5 = false ∧ (up.link 0 5).up = true ∧ up.linkNeeded 0 5 = false ∧
      up.drained 0 5 = true ∧ (t.mapLink 0 5 fun l => { l with retired := true }).link 0 5 = { ({} : Link) with retired := true }) ∧
    ((tensors id).mapEnds 0 0 fun l => { l with up := true }).linkNeeded 0 0 = true := by
  refine ⟨?_, ?_, ?_, ?_⟩ <;> decide +kernel

/-- What an image says and whether its signature verifies is the implementation's (uninterpreted); a tier in reach, and one out
of it; a checkpoint of this layout, and of another. -/
theorem witness_ServiceCommands_tiers :
    let s := serving 0x21 0 0
    let cxl := { s with service := { s.service with record := List.replicate 0x19C 0 ++ [1], arg := 0x20000 }
                        grants := [{ fn := 192, pasid := none, page := 0x20, hpa := 0x5000, r := true, w := true }] }
    let c : Checkpoint := { cxl := true, place := 0x20000, mem := [], tiles := [], ilrows := cxl.dies.map (·.ilrows), live := cxl.dies.map (·.live), parked := []
                            nodes := Vector.ofFn fun d => cxl.nodeOf d.val }
    (s.kiln.toNat % 4096 = 0 ∧ (s.keepRange physFn none s.service.arg.toNat 64 false).updateImage = none ∧ (1 : Dword).toNat % 4096 ≠ 0) ∧
    s.tierReached true = false ∧ s.tierReached false = false ∧ cxl.tierReached true = true ∧ cxl.invocations [0, 1, 2, 3] = [] ∧
    ({ cxl with checkpoints := [c] }.checkpoints.find? fun y => y.cxl == true && y.place == cxl.tierPlace true &&
      y.nodes == Vector.ofFn fun d => cxl.nodeOf d.val) = some c ∧
    (c.ilrows = cxl.dies.map (·.ilrows) ∧ c.live = cxl.dies.map (·.live)) ∧ { c with live := Vector.replicate 4 1 }.live ≠ cxl.dies.map (·.live) ∧
    s.checkpoints = [] := by
  refine ⟨?_, ?_, ?_, ?_, ?_, ?_, ?_, ?_, ?_⟩ <;> decide +kernel
/-- R422: the reserved core of a die is not retired. -/
theorem test_retire_reserved : (after (exec .retireCore (serving 1 0 256))).service.result = 4 := by decide +kernel

/-- What the signatures of a record and an image are is the implementation's (uninterpreted), so that a boot of an empty flash
fails, and no numeral shows one that does not. -/
theorem witness_ResetEvents :
    let s := State.reset
    let ready := ready
    let minimal := { s with service := { s.service with minimal := true, imgBusy := true } }
    (ready.service.ready = true ∧ s.service.ready = false ∧ s.service.minimal = false ∧ s.service.bootAt = none ∧ s.always.attempts ≠ 3) ∧
    (({ s with always := { s.always with attempts := 1 }, service := { s.service with attempts := 0, bootAt := some 0 } }.bootFault).isSome = true) ∧
    (let b := { s with service := { s.service with bootAt := some 0 }, kiln := 0x100000000 }
     b.service.bootAt = some 0 ∧ (0 : Dword).toNat + 2 ^ 32 ≤ b.kiln.toNat ∧ b.service.reason = 0 ∧ (0xFFFFFFFF : Dword).toNat < 0 + 2 ^ 32) ∧
    (minimal.service.minimal = true ∧ minimal.service.imgBusy = true ∧
      (minimal.keepRange physFn none minimal.service.imgAddr.toNat minimal.service.imgLen.toNat false).payload = .error 5) ∧
    ((s.die 3).inReset = false ∧ (∀ p : Nat, p < 16 → (s.part p).running = none) ∧ s.l2 = [] ∧ Memory.wf s.mem = true) ∧
    { s with dies := Vector.replicate 4 { inReset := true } }.dies.toList.all (·.inReset) = true ∧
    ((stored.cores.map (·.1)).Nodup ∧ Memory.wf stored.mem = true ∧ (∀ x ∈ stored.l2, x.2.saved = []) ∧ (stored.coreAt 1).retired = false) := by
  refine ⟨?_, ?_, ?_, ?_, ?_, ?_, ?_⟩ <;> decide +kernel

/-! ### Messages, links and the host's port -/

/-- A flit from node 1 to node 0, of partition 0. -/
def flit (kind : Nat) (f : Flit → Flit := id) : Flit := f {
  spot := .arrived, dest := 0, src := 1, inc := 0, stamp := 0, fpid := 0, msgid := 5, seq := 0, last := true, kind := BitVec.ofNat 4 kind, nwm1 := 0
  retry := false, xl := false, addr := 0, data := Vector.replicate 8 0 }
/-- Die 0, which expects incarnation 0 of node 1, as that flit comes. -/
def arriving (q : Flit) (f : Die → Die := id) : State := let s := pages 0 false
  { s with net := [q], dies := vset s.dies 0 (f { s.die 0 with expinc := [(1, 0)] }) }
def tracked (action : Nat) : Cullet := { src := 1, inc := 0, msgid := 5, bitmap := 0, total := none, write := true, range := none, action := action
                                         dcore := 1, element := 0, job := 1, fpid := 0 }

theorem witness_FabricEvents_dropped :
    (∀ p ∈ ([(1, .pwrite 0), (2, .pread 0), (3, .rdata 0), (4, .patom 0), (5, .adata 0), (6, .ack 0), (7, .nack 0), (8, .xlatreq 0),
      (9, .xlatrsp 0), (10, .announce 0), (11, .annack 0), (12, .ctrl 0)] : List (BitVec 4 × Instr)), Claim.landing p.1 0 p.2) ∧
    ((arriving (flit 1)).net[0]? = some (flit 1) ∧ (arriving (flit 1)).dieOfNode 0 = some 0) ∧
    ((arriving (flit 1) fun d => { d with inReset := true }).die 0).inReset = true ∧
    (let s := arriving (flit 1 fun f => { f with inc := 15 })
     ((s.die 0).expinc.find? fun p => p.1 == 1).map (·.2) ≠ some (15 : BitVec 4)) ∧
    (arriving (flit 1)).partOf 0 0xFFF = none := by
  unfold Claim.landing
  refine ⟨?_, ?_, ?_, ?_, ?_⟩ <;> decide +kernel

theorem witness_FabricEvents_requests :
    let s (k : Nat) (f : Flit → Flit) := arriving (flit k f)
    let u := Claim.left (s 1 id) 0
    let full : State := arriving (flit 1) fun d => { d with cullet := [tracked 1] }
    (∀ k : BitVec 4, k = 1 ∨ k = 2 ∨ k = 4 ∨ k = 8 ∨ k = 12 → Claim.taken1 (s k.toNat id) 0 (flit k.toNat) 0 k) ∧
    (okA (State.flitAdmitted .write 0 (flit 1) u) = true ∧ okA (State.flitAdmitted .read 0 (flit 2) u) = true) ∧ u.tracking 0 (flit 1) = none ∧ u.parkedMessage (flit 1) = false ∧
    full.tracking 0 (flit 1) = some (tracked 1) ∧ full.parkedAt 0 1 = false ∧
    (let parked : State := { full with cores := [], saves := [{ core := 1, part := 0, index := Vector.replicate 6 0, job := 1 }] }
     let piece := parked.mapDie 0 fun d => { d with reshards := [{ reshard with core := 1 }] }
     parked.parkedAt 0 1 = true ∧ (piece.die 0).reshards.find? (fun r => r.part == 0 && r.dst == 8 && !r.closed) = some { reshard with core := 1 } ∧
       piece.parkedAt 0 ({ reshard with core := 1 } : Reshard).core = true) ∧
    (flit 1 fun f => { f with last := false }).last = false ∧ (u.die 0).cullet.length < 4096 ∧
    good ((Claim.left (s 2 id) 0).takeBytes 0 (u.flitPieces 0 (flit 2) 0 8)) = true ∧
    good ({ Claim.left (s 2 id) 0 with ecc := [(0, [0, 255])] }.takeBytes 0 (u.flitPieces 0 (flit 2) 0 8)) = false := by
  unfold Claim.taken1 Claim.comes Claim.known
  refine ⟨?_, ?_, ?_, ?_, ?_, ?_, ?_, ?_, ?_, ?_, ?_⟩
  · rintro k (rfl | rfl | rfl | rfl | rfl) <;> decide +kernel
  all_goals decide +kernel

/-- PATOM of an address that the die has, and of one past its tiles; XLATREQ of a page of the die. -/
theorem witness_FabricEvents_atomics :
    let q := flit 4 fun f => { f with data := vset f.data 0 0x20 }
    let u := Claim.left (arriving q) 0
    let ps := u.flitPieces 0 q 0 8
    let work : R (List (List Byte)) := ps.mapM fun p => modifyPiece (q.agent 0) p (.ofCode 1) 8 (vget q.data 0 1) (vget q.data 0 2)
    let far := flit 4 fun f => { f with addr := 0x7FFFFFFFF }
    let x := flit 8 fun f => { f with data := vset (vset f.data 0 page) 1 7 }
    let v := Claim.left (arriving x) 0
    let w : Req := { core := 0, st := .x, agent := 6, acc := .xread, pl := 0, part := 0, vf := 0, pasid := 0, die := 0 }
    let t := (translateParts w (split (pageOf page) page.toNat 8) false).run.run v
    okA (State.flitAdmitted .modify 0 q u) = true ∧ (∀ p ∈ ps, (u.die 0).placeOf p.addr ≠ none) ∧ okR work u = true ∧ okR work { u with ecc := [(0, [0, 255])] } = false ∧
    (∃ p ∈ u.flitPieces 0 far 0 8, (u.die 0).placeOf p.addr = none) ∧
    good t = true ∧ (∀ p ∈ goodVal [] t, p.place = .hbm (t.2.nodeOf 0)) := by
  refine ⟨?_, ?_, ?_, ?_, ?_, ?_, ?_⟩ <;> decide +kernel

/-- A request of die 0 to node 1. -/
def request (kind : Nat) (owner : Owner := .store 1) (f : Request → Request := id) : Request := f {
  msgid := 5, dest := 1, owner := owner, kind := BitVec.ofNat 4 kind, part := 0, addr := 0, len := 8, flits := [flit kind] }
def awaiting (kind : Nat) (r : Request) (f : Flit → Flit := id) : State := arriving (flit kind f) fun d => { d with reqs := [r] }

theorem witness_FabricEvents_answers :
    (∀ p ∈ [(3, 2), (5, 4), (6, 1), (6, 12)], let r := request p.2
      Claim.taken1 (awaiting p.1 r) 0 (flit p.1) 0 (BitVec.ofNat 4 p.1) ∧ (Claim.left (awaiting p.1 r) 0).reqOf 0 5 = some r ∧ r.dest = 1 ∧
        r.kind = BitVec.ofNat 4 p.2 ∧ r.after = [] ∧ ∃ q ∈ r.flits, q.seq = 0) ∧
    (let r := request 1 (.xword 1) fun r => { r with after := [flit 1], asked := true }
     Claim.taken1 (awaiting 9 r) 0 (flit 9) 0 9 ∧ (Claim.left (awaiting 9 r) 0).reqOf 0 5 = some r ∧ r.asked = true ∧ r.status = 0 ∧ (flit 9).addr.setWidth 8 = (0 : BitVec 8) ∧
      (flit 9 fun f => { f with addr := 6 }).addr.setWidth 8 ≠ (0 : BitVec 8)) ∧
    (let r := request 1
     Claim.taken1 (awaiting 7 r) 0 (flit 7) 0 7 ∧ (Claim.left (awaiting 7 r) 0).reqOf 0 5 = some r ∧ (flit 7).addr.toNat % 4 ≠ 2 ∧
      (flit 7 fun f => { f with addr := 2 }).addr.toNat % 4 = 2 ∧
      (r.flits.find? fun q => q.seq.toNat == (flit 7).addr.toNat / 4 % 64) = some (flit 1)) ∧
    (let r := request 1 (f := fun r => { r with retry := [(0, flit 1)] })
     let s := { awaiting 7 r with kiln := 0x200000000 }
     s.reqOf 0 5 = some r ∧ (r.retry.find? fun (p : Dword × Flit) => decide (p.1.toNat ≤ s.kiln.toNat)) = some (0, flit 1) ∧
      (∀ p ∈ (request 1 (f := fun r => { r with retry := [(9, flit 1)] })).retry, (8 : Dword).toNat < p.1.toNat) ∧ (8 - (0 : Dword)).toNat < 2 ^ 33 ∧
      (let q := request 1
       let t := { awaiting 7 q with kiln := 0x200000000 }
       t.reqOf 0 5 = some q ∧ (∀ x ∈ (t.die 0).formed, x.msgid.toNat ≠ 5) ∧ q.ready = false ∧ q.retry = [] ∧ 2 ^ 33 ≤ (t.kiln - q.lastSent).toNat)) ∧
    Claim.comes (arriving (flit 10)) 0 (flit 10) 0 10 ∧ Claim.comes (arriving (flit 11)) 0 (flit 11) 0 11 ∧
    (let q := flit 12 fun f => { f with data := vset f.data 0 5 }
     Claim.comes (arriving q) 0 q 0 12 ∧ bits (vget q.data 0 0) 7 0 = 5) ∧
    (arriving (flit 12)).settledDie 0 = true ∧
    ((arriving (flit 12)).mapCore fun c => { c with xfers := [flying (moving (window 0) 0)] }).settledDie 0 = false := by
  unfold Claim.taken1 Claim.comes Claim.known
  refine ⟨?_, ?_, ?_, ?_, ?_, ?_, ?_, ?_, ?_⟩ <;> decide +kernel

/-- A frame from the far end of the link at port 0 of die 0, its tag as that end forms it or with a bit of it flipped, and that
link. -/
def frame (good : Bool) (ctr : Nat) : Frame :=
  let far := (job id).sender 0 0
  let tag := frameTag far.1 far.2 3 ctr [flit 1]
  { ctr := ctr, key := 3, tag := if good then tag else tag ^^^ 1, switch := false, flits := [flit 1] }
def linked (f : Link → Link) (q : List (Nat × Frame) := []) : State :=
  { (job id).mapLink 0 0 fun l => f { l with up := true, rxKey := 3, rxCtr := some 7 } with inbox := q }

theorem tag_differs (x : BitVec 128) : (x ^^^ 1 == x) = false := by
  rw [beq_eq_false_iff_ne]
  intro h
  have := congrArg (fun y => y.getLsbD 0) h
  revert this
  simp

theorem verifies_frame (ctr : Nat) (q : List (Nat × Frame)) :
    (linked id q).verifies 0 0 (frame true ctr) = true ∧ (linked id q).verifies 0 0 (frame false ctr) = false :=
  ⟨beq_self_eq_true _, tag_differs _⟩

theorem witness_LinksAndHost :
    (∀ good, let s := linked id [(0, frame good 8)]
     s.inbox.find? (fun p => p.1 == 0 * 6 + 0) = some (0 * 6 + 0, frame good 8) ∧ (s.link 0 0).up = true ∧ (s.link 0 0).discarding = none ∧
      (s.link 0 0).fails < 2 ∧ (s.link 0 0).rxCtr = some 7 ∧ (frame good 8).ctr = 8) ∧ (frame true 7).ctr ≤ 7 ∧
    2 ≤ ((linked fun l => { l with fails := 2 }).link 0 0).fails ∧
    (∀ ctr, (linked id []).verifies 0 0 (frame true ctr) = true ∧ (linked id []).verifies 0 0 (frame false ctr) = false) ∧
    (let s := linked fun l => { l with unacked := [frame true 0] }
     (s.link 0 0).unacked.length = 1 ∧ (s.link 0 0).up = true ∧
      (let t := s.mapLink 1 1 fun l => { l with rxKey := 4 }
       ∃ e q, farEnd 0 0 = some (e, q) ∧ e ≠ 0 ∧ (t.mapLink e q fun l => { l with rxKey := 4 }).accepted 0 0 (frame true 0) = true)) ∧
    (∃ p : Nat, p < 6 ∧ farEnd 0 p = none) ∧
    (let s := job id
     (s.link 0 0).up = false ∧ (s.link 0 0).retired = false ∧ (s.die 0).inReset = false ∧ ∃ e q, farEnd 0 0 = some (e, q) ∧
      (s.die e).inReset = false ∧ (s.link e q).retired = false) ∧
    (let l := (linked fun l => { l with ctr := 2 ^ 47 }).link 0 0
     l.up = true ∧ l.draining = false ∧ 2 ^ 47 ≤ l.ctr) := by
  have far : farEnd 0 0 = some ((farEnd 0 0).getD (0, 0)) := by decide
  refine ⟨fun good => ⟨rfl, by cases good <;> decide +kernel⟩, ?_, ?_, fun ctr => verifies_frame ctr [], ⟨?_, ?_, ⟨_, _, far, ?_, ?_⟩⟩, ⟨1, ?_⟩,
    ⟨?_, ?_, ?_, ⟨_, _, far, ?_, ?_⟩⟩, ?_⟩ <;> decide +kernel

/-- A page request group, open, closed and sent. -/
def group (opened : Dword) (closed : Bool) (index : Option Nat) : Group := { fn := 0, pasid := some 0, region := 0, pages := [1], opened := opened
                                                                             closed := closed, index := index, id := 4 }
theorem witness_LinksAndHost_groups :
    let s (g : Group) : State := { job id with groups := [g], kiln := 256 }
    (∀ g ∈ [group 1 false none, group 0 true none, group 0 false none], (s g).groups.find? (fun x => x.id == 4) = some g ∧ g.index = none) ∧
    ((256 : Dword).toNat < (group 1 false none).opened.toNat + 256 ∧ (group 0 false none).opened.toNat + 256 ≤ (256 : Dword).toNat) ∧
    (∀ g ∈ [group 0 true none, group 0 false none],
      let t := (s g).closeDue
      ∃ x ∈ t.groups, t.groups.find? (fun y => y.id == 4) = some x ∧ x.pages.length ≤ max 1 (t.fn x.fn).allowance) ∧
    (let g := { group 0 true none with pages := [1, 2] }
     let t := ((s g).mapFn 0 fun f => { f with allowance := 1 }).closeDue
     t.groups.find? (fun y => y.id == 4) = some g ∧ max 1 (t.fn g.fn).allowance < g.pages.length ∧
      ((t.closeGroup g).groups.find? fun y => y.id == 4).isSome = true) ∧
    (group 0 true (some 9)).index ≠ none ∧
    (let g := group 0 true (some 9)
     (s g).groups.find? (fun x => x.id == 4 && x.index.isSome) = some g ∧ (∀ x ∈ (s g).groups, x.fn = g.fn → x.index ≠ none)) := by
  refine ⟨?_, ?_, ?_, ?_, ?_, ?_⟩ <;> decide +kernel

theorem witness_AbsentUnits : (job id).tilePlace 0 (2 ^ 26) = none ∧ (job id).dieOfNode 2 = none ∧ physFn < 193 := by decide +kernel

/-! ### The whole machine -/

theorem witness_EncodeDecode : ∃ (i : Instr) (w : Word) (st : Stream), i.wf = true ∧ encode i = some w ∧ decode st w = .ok i :=
  ⟨.add 3 4 10, 0x02322800, .s, by decide, by decide, by decide⟩

/-- Core 1 at PC 0x3C of a line of its instruction cache whose last word is one of S: ADD g3, g4, g10, or one that is none. -/
def fetching (word : Nat) : State := job fun c => { c with
  pc := vset c.pc 0 0x3C, icache := vset c.icache 0 [{ va := 0, data := BitVec.ofNat 512 (word * 2 ^ 480) }] }

theorem witness_StepRunsDecoded :
    let s := fetching 0x02322800
    s.timedDue = none ∧ s.agenda = [] ∧ s.core.mayIssue .s = true ∧ s.core.settle .s = (s.core, true) ∧ vget s.core.owed 0 0 = 0 ∧
    s.core.pendOf .s = [] ∧ vget s.core.arrived false 0 = false ∧
    (s.core.cached .s (s.core.pcOf .s)).isSome = true ∧ decode .s 0x02322800 = .ok (.add 3 4 10) ∧
    (ansM 0 (fetchWord s.me .s) (fetching 0) = 0 ∧ okM (fetchWord s.me .s) (fetching 0) = true ∧ decode .s 0 = .error .unassignedOpcode) ∧
    ansM 0 (fetchWord s.me .s) s = 0x02322800 ∧ okM (fetchWord s.me .s) s = true ∧ (endM (fetchWord s.me .s) s).core.flips = [] ∧
    goesOn (exec (.add 3 4 10) (endM (fetchWord s.me .s) s)) = true := by
  refine ⟨?_, ?_, ?_, ?_, ?_, ?_, ?_, ?_, ?_, ?_, ?_, ?_, ?_, ?_⟩ <;> decide +kernel
/-- R27: a word of an unassigned opcode traps with class 0x01, subcode 1, at its address. -/
theorem test_illegal : let t := after (step (fetching 0))
    bits (vget (t.coreAt 1).tr1 0 0) 55 48 = 1 ∧ vget (t.coreAt 1).tr1 0 2 = 0x3C := by decide +kernel
theorem test_step_add : let t := after (step (fetching 0x02322800))
    (t.coreAt 1).spc = 0x40 := by decide +kernel

theorem witness_MemoryStaysCanonical : ∃ s t, Claim.canonical s ∧ step s = .next t :=
  have ⟨t, h⟩ := next_of_goesOn (o := step (fetching 0x02322800)) (by decide +kernel)
  ⟨fetching 0x02322800, t, ⟨by decide, by decide⟩, h⟩

/-! ### An image of a core (R410) -/

theorem length_leBytes (n x : Nat) : (leBytes n x).length = n := by
  induction n generalizing x with
  | zero => rfl
  | succ n ih => simp [leBytes, ih]
theorem length_padTo (n : Nat) (bs : List Byte) (h : bs.length ≤ n) : (padTo n bs).length = n := by
  simp [padTo]; omega
theorem length_flatMap_const {α : Type} (l : List α) (n : Nat) (f : α → List Byte) (hf : ∀ x, (f x).length = n) :
    (l.flatMap f).length = l.length * n := by
  induction l with
  | nil => simp
  | cons a l ih => simp [ih, hf, Nat.add_mul, Nat.add_comm]

/-- The length of a core's image without its scratchpad. -/
theorem length_image (s : State) (k : Nat) (h : (s.coreAt k).spres = 0) : (s.image k).length = 94400 := by
  have region (c : Core) (r : Nat) (h : 8 * (regionSize r / 8) ≤ round64 (regionSize r)) :
      (padTo (round64 (regionSize r)) ((List.range (regionSize r / 8)).flatMap fun i => leBytes 8 (c.regionWord r i).toNat)).length =
        round64 (regionSize r) := by
    apply length_padTo
    rw [length_flatMap_const _ 8 _ fun _ => length_leBytes _ _, List.length_range]; omega
  have regions (c : Core) : (imageRegions.flatMap fun r => padTo (round64 (regionSize r.1))
      ((List.range (regionSize r.1 / 8)).flatMap fun i => leBytes 8 (c.regionWord r.1 i).toNat)).length = 94080 := by
    rw [show imageRegions = [(1, 320), (2, 576), (3, 960), (4, 8192), (5, 73728), (6, 73984), (7, 74496), (8, 74944), (9, 75328),
      (10, 79488), (11, 79616), (12, 91904), (13, 92416), (14, 93056), (15, 94336)] from by decide]
    simp only [List.flatMap_cons, List.flatMap_nil, List.length_append, List.length_nil]
    repeat rw [region]
    all_goals decide
  unfold State.image
  simp only [List.length_append, regions, h, State.scratchBytes, List.range_zero, List.map_nil, List.length_nil]
  rw [length_padTo, length_flatMap_const _ 8 _ fun _ => length_leBytes _ _]
  · simp [Core.imageWords]
  · simp only [List.length_append, length_leBytes, length_flatMap_const _ 8 _ fun _ => length_leBytes _ _,
      length_flatMap_const _ 1 _ fun _ => length_leBytes _ _, Vector.length_toList]
    decide

/-- Die 0 with a stage 2 of partition 0 that maps the lowest 512 MiB of IPA to its own DPA 0x2000_0000, whose tiles are zero. -/
def imaging (words : List Dword) (f : Core → Core) (cells : List (Nat × Byte)) : State :=
  let s := issuing 4 words 2 f
  { s with
    dies := vset s.dies 0 { ilrows := 0x2000, ps2root := vset (Vector.replicate 16 0) 0 1 }
    tiles := (tileKey 0 0 0, { zero := true }) :: (tileKey 0 32 0, { zero := true }) ::
      (List.range 47).map fun k => (tileKey 0 k 4096, { zero := true })
    mem := [(0, 0x03), (2, 0x01), (Key.hbm 0 32 0, 0x69), (Key.hbm 0 32 1, 0x08), (Key.hbm 0 32 3, 0x20)] ++ cells }

/-- SAVECORE up to its write of the 94,400 bytes, which no tile of the range stops: each is zero and none holds an error. -/
theorem witness_SystemEngine_save :
    let w := [header 0x31 2, 2, page]
    let s := imaging w (fun c => { c with state := .trapped, pl := 1 }) []
    let cmd := head0 w 2
    let u := Claim.taken s 1 4
    let p := u.imageRange (cmd.req 1 .store) page (u.image 2).length
    (Claim.sysOk s 1 cmd 0x31 2 ∧ u.owns 0 2 = true ∧ Claim.imageVa page ∧ (u.coreAt 2).fromPl0 = true ∧ (u.coreAt 2).portsQuiet = true) ∧
    good p = true ∧ okA (p.2.allow (holdNo 1 12) (goodVal [] p) .write) = true := by
  intro w s cmd u p
  have hl : (u.image 2).length = 94400 := length_image _ _ (by decide +kernel)
  have hp : p = u.imageRange (cmd.req 1 .store) page 94400 := by rw [← hl]
  rw [hp]
  unfold Claim.sysOk Claim.atHead Claim.imageVa
  refine ⟨?_, ?_, ?_⟩ <;> decide +kernel

/-- RESTORECORE of an image of 94,400 bytes that the die reads, and the first 320 bytes of one that is in order: its header, the
registers of its second part, and no job. -/
theorem witness_SystemEngine_restore :
    let w := [header 0x32 2, 2, page]
    let s := imaging w (fun c => { c with state := .free }) []
    let cmd := head0 w 2
    let u := Claim.taken s 1 4
    let p := u.imageRange (cmd.req 1 .load) page imageScratch
    let a := p.2.allow (holdNo 1 12) (goodVal [] p) .read
    let r := (endA a).fetchAll 36 (cmd.agent 1) (goodVal [] p)
    let q := r.2.imageRange (cmd.req 1 .load) (page + BitVec.ofNat 64 imageScratch) 0
    let bs : List Byte := [0x5A, 0x34, 0x43, 0x43, 1] ++ List.replicate 307 0 ++ [2]
    (Claim.sysOk s 1 cmd 0x32 2 ∧ u.owns 0 2 = true ∧ (u.coreAt 2).state = .free ∧ (u.coreAt 2).retired = false) ∧
    (good p = true ∧ okA a = true) ∧ good r = true ∧ (good q = true ∧ goodVal [] q = [] ∧ okA (q.2.allow (holdNo 1 12) [] .read) = true ∧
      good ((endA (q.2.allow (holdNo 1 12) [] .read)).fetchAll 36 (cmd.agent 1) []) = true) ∧
    (imageOk bs 0 = true ∧ at8 bs 12 4 = 0 ∧ ((u.coreAt 2).load bs).cutOk = true ∧ ((u.coreAt 2).load bs).part = 0) := by
  unfold Claim.sysOk Claim.atHead
  refine ⟨?_, ?_, ?_, ?_, ?_⟩ <;> decide +kernel

end Sys2Proof.Test
end

section
/-! O3: the conditional branches of the four streams and the jumps of S (R31, R95). The conditions and the targets of the model
are read over the integers first; then each word's computation is run once, and the rules of `runReg` and `runWord` say what
the word answers. -/

namespace Sys2Proof.Machine

/-! ### Condition codes (R31) -/

/-- R31: the codes from 8 on are reserved. -/
theorem limits_cond_of_reserved {code : BitVec 4} (h : 8 ≤ code.toNat) : Limits.cond code = false := by
  simp [Limits.cond, h]

/-- A field beyond its limit makes an instruction ill-formed. -/
theorem wf_of_beyondLimits {i : Instr} (h : i.limitsOk = false) : i.wf = false := by
  rw [Instr.wf, h, Bool.and_false]

/-- R31: a conditional branch with a reserved code is not well-formed, whatever its stream. -/
theorem branch_wf_of_reserved {code : BitVec 4} (h : 8 ≤ code.toNat) (sync a b : BitVec 4) (c d : BitVec 5) :
    (∀ off, (Instr.bcc code c d off).wf = false) ∧ (∀ off, (Instr.vbcc sync code a b off).wf = false) ∧
    (∀ off, (Instr.mbcc sync code a b off).wf = false) ∧ (∀ off, (Instr.xbcc sync code a b off).wf = false) := by
  have reserved : Limits.cond code = false := limits_cond_of_reserved h
  exact ⟨fun _ => wf_of_beyondLimits reserved, fun _ => wf_of_beyondLimits reserved, fun _ => wf_of_beyondLimits reserved,
    fun _ => wf_of_beyondLimits reserved⟩

/-- The comparison of a code that is not reserved is R31's, over the integers. -/
theorem condHolds_eq_cond {code : BitVec 4} (h : code.toNat < 8) (a b : Dword) :
    condHolds code a b = Claim.cond code a b := by
  have hcode : code = 0 ∨ code = 1 ∨ code = 2 ∨ code = 3 ∨ code = 4 ∨ code = 5 ∨ code = 6 ∨ code = 7 := by bv_omega
  rcases hcode with rfl | rfl | rfl | rfl | rfl | rfl | rfl | rfl
  · show (a == b) = (a.toNat == b.toNat)
    simp [BitVec.toNat_eq, beq_eq_decide]
  · show (a != b) = (a.toNat != b.toNat)
    simp [BitVec.toNat_eq, bne, beq_eq_decide]
  · show a.slt b = decide (a.toInt < b.toInt)
    exact BitVec.slt_eq_decide
  · show (!a.slt b) = decide (b.toInt ≤ a.toInt)
    simp [BitVec.slt_eq_decide, ← decide_not]
  · show a.ult b = decide (a.toNat < b.toNat)
    exact BitVec.ult_eq_decide
  · show (!a.ult b) = decide (b.toNat ≤ a.toNat)
    simp [BitVec.ult_eq_decide, ← decide_not]
  · rfl
  · rfl

/-! ### Targets (R95) -/

/-- A word offset added to an address, over the integers. -/
theorem add_signExtend_mul_four {w : Nat} (x : Dword) (off : BitVec w) :
    x + off.signExtend 64 * 4 = BitVec.ofInt 64 (x.toInt + 4 * off.toInt) := by
  rw [BitVec.ofInt_add, BitVec.ofInt_mul, BitVec.ofInt_toInt, BitVec.mul_comm]
  rfl

/-- A label lies its offset in words from the branch. -/
theorem Core.target_eq_words {w : Nat} (c : Core) (st : Stream) (off : BitVec w) :
    c.target st off = Claim.words (c.pcOf st) off.toInt := add_signExtend_mul_four _ _

/-- Where JR and JLR go: four times the immediate from the register, over the integers. -/
def Core.jumpAddress (c : Core) (gs1 : BitVec 5) (imm : BitVec 15) : Dword :=
  BitVec.ofInt 64 ((c.readG gs1).toInt + 4 * imm.toInt)

theorem jumpTarget_aligned {gs1 : BitVec 5} {imm : BitVec 15} {s : State}
    (h : (s.core.jumpAddress gs1 imm).toNat % 4 = 0) :
    (jumpTarget gs1 imm).run.run s = (.ok (s.core.jumpAddress gs1 imm), s) := by
  rw [Core.jumpAddress, ← add_signExtend_mul_four] at h ⊢
  rw [jumpTarget, M.bind_ok (M.run_core s), M.bind_ok ((M.run_check _ _ _).trans (if_pos (beq_iff_eq.mpr h))), M.run_pure]

theorem jumpTarget_misaligned {gs1 : BitVec 5} {imm : BitVec 15} {s : State}
    (h : (s.core.jumpAddress gs1 imm).toNat % 4 ≠ 0) :
    (jumpTarget gs1 imm).run.run s = (.error (.trap { cls := 0x09 }), s) := by
  rw [Core.jumpAddress, ← add_signExtend_mul_four] at h
  rw [jumpTarget, M.bind_ok (M.run_core s), M.bind_error ((M.run_check _ _ _).trans (if_neg (h <| beq_iff_eq.mp ·)))]

/-! ### Words of X, M and V whose waits stand (R19, R29) -/

/-- The wait bits alone name what the whole sync field waits for. -/
theorem Core.take_waitBits (c : Core) (st : Stream) (sync : BitVec 4) : c.take st (sync &&& 0b1100) = c.take st sync := by
  simp [Core.take, waits]

theorem postBits_waitBits (sync : BitVec 4) : postBits (sync &&& 0b1100) = 0#2 := by
  revert sync; decide

/-- A word whose waits stand issues with what its computation makes of the acting core (`s'` is `s` with `f` done on it); the
posts of a word of M wait behind the steps before it (R205). -/
theorem runWord_issued {i : Instr} {st : Stream} {sync : BitVec 4} {body : M Ctl} {s s' : State} {f : Core → Core} {k : Ctl}
    (start : Claim.mayStart s st sync) (run : body.run.run s = (.ok k, s'))
    (after : ∀ g : Core → Core, s'.mapCore g = s.mapCore fun c => g (f c)) :
    runWord i st sync body s = .next (Claim.issued s st sync f k) := by
  by_cases behind : st = .m ∧ postBits sync ≠ 0 ∧ s.core.steps ≠ []
  · have late : (do let k ← body; M.mapCore (fun c => c.postBehind (postBits sync)); return k : M Ctl).run.run s =
        (.ok k, s'.mapCore fun c => c.postBehind (postBits sync)) := by
      rw [M.bind_ok run, M.bind_ok (M.run_mapCore _ _), M.run_pure]
    have steps : st = .m ∧ postBits sync ≠ 0 ∧ (!s.core.steps.isEmpty) = true := by simpa using behind
    rw [runWord, if_pos (show _ = true from start), if_pos steps, late, finishWord_ok, postBits_waitBits,
      State.mapCore_mapCore, after]
    simp only [Core.take_waitBits, Core.postOrOwe_zero, Claim.issued, State.mapCore, if_pos behind]
  · have order : st = .m → postBits sync ≠ 0 → s.core.steps = [] := by simpa using behind
    rw [runWord_ok start order run, after]
    simp only [Claim.issued, State.mapCore, if_neg behind]

/-! ### Conditional branches (R95) -/

theorem run_branchBody {w : Nat} {code : BitVec 4} (h : code.toNat < 8) (st : Stream) (a b : BitVec 4) (off : BitVec w)
    (s : State) :
    (branchBody st code a b off).run.run s =
      (.ok (branchIf (Claim.cond code (s.core.readC st a) (s.core.readC st b))
        (Claim.words (s.core.pcOf st) off.toInt)), s) := by
  rw [branchBody, M.bind_ok (M.run_core s), M.run_pure, condHolds_eq_cond h, Core.target_eq_words]

/-- A branch of X, M or V on its own c registers. -/
theorem runWord_branchBody {w : Nat} {code : BitVec 4} (h : code.toNat < 8) {i : Instr} {st : Stream} {sync a b : BitVec 4}
    {off : BitVec w} {s : State} (start : Claim.mayStart s st sync) :
    runWord i st sync (branchBody st code a b off) s =
      .next (Claim.issued s st sync id (branchIf (Claim.cond code (s.core.readC st a) (s.core.readC st b))
        (Claim.words (s.core.pcOf st) off.toInt))) :=
  runWord_issued start (run_branchBody h st a b off s) fun _ => rfl

/-- The entries of the log that a conditional branch of S takes: the word that falls through logs what its loop's end test
writes (R397). -/
def Core.branchWrites (c : Core) (taken : Bool) : Nat := if taken then 0 else c.loopBack

/-- A branch of S on two g registers. -/
theorem exec_bcc_next {code : BitVec 4} (h : code.toNat < 8) (a b : BitVec 5) (off : BitVec 11) (s : State) {taken : Bool}
    (cond : Claim.cond code (s.core.readG a) (s.core.readG b) = taken)
    (room : s.core.logRoom (s.core.branchWrites taken) = true) :
    exec (.bcc code a b off) s = .next (s.mapCore fun c =>
      (c.logWrites (s.core.branchWrites taken)).advance .s (branchIf taken (Claim.words s.core.spc off.toInt))) := by
  rw [← condHolds_eq_cond h] at cond
  subst cond
  rw [exec_bcc, execBcc]
  refine Eq.trans (runReg_ok room (by rw [M.bind_ok (M.run_core s), M.run_pure])) ?_
  rw [Core.target_eq_words]
  rfl

/-! ### Jumps of S (R95) -/

theorem exec_j_next (off : BitVec 25) (s : State) (room : s.core.logRoom 0 = true) :
    exec (.j off) s =
      .next (s.mapCore fun c => (c.logWrites 0).advance .s (.branch (Claim.words c.spc off.toInt))) := by
  rw [exec_j, execJ, runReg_ok room (by rw [M.bind_ok (M.run_core s), M.run_pure])]
  simp only [State.mapCore, Core.spc, Core.target_eq_words]

theorem exec_jl_next (off : BitVec 25) (s : State) (room : s.core.logRoom 1 = true) :
    exec (.jl off) s = .next (s.mapCore fun c =>
      ((c.writeG 1 (c.spc + 4)).logWrites 1).advance .s (.call (Claim.words c.spc off.toInt))) := by
  rw [exec_jl, execJl,
    runReg_ok room (by rw [M.bind_ok (M.run_core s), M.bind_ok (M.run_mapCore _ _), M.run_pure]), State.mapCore_mapCore]
  simp only [State.mapCore, Core.spc, Core.target_eq_words]

theorem exec_jr_aligned {a : BitVec 5} {imm : BitVec 15} {s : State} (room : s.core.logRoom 0 = true)
    (aligned : (s.core.jumpAddress a imm).toNat % 4 = 0) :
    exec (.jr a imm) s =
      .next (s.mapCore fun c => (c.logWrites 0).advance .s (.branch (s.core.jumpAddress a imm))) := by
  rw [exec_jr, execJr, runReg_ok room (by rw [M.bind_ok (jumpTarget_aligned aligned), M.run_pure])]

theorem exec_jr_misaligned {a : BitVec 5} {imm : BitVec 15} {s : State} (room : s.core.logRoom 0 = true)
    (misaligned : (s.core.jumpAddress a imm).toNat % 4 ≠ 0) :
    exec (.jr a imm) s = .next (s.raise s.me (some .s) { cls := 0x09 } s.core.spc (wordOf (.jr a imm))) := by
  rw [exec_jr, execJr, runReg_trap room (M.bind_error (jumpTarget_misaligned misaligned)), Core.spc]

/-- The target of JLR is formed before its link register is written. -/
theorem exec_jlr_aligned {gd a : BitVec 5} {imm : BitVec 15} {s : State} (room : s.core.logRoom (gWrite gd) = true)
    (aligned : (s.core.jumpAddress a imm).toNat % 4 = 0) :
    exec (.jlr gd a imm) s = .next (s.mapCore fun c =>
      ((c.writeG gd (c.spc + 4)).logWrites (gWrite gd)).advance .s (.call (s.core.jumpAddress a imm))) := by
  rw [exec_jlr, execJlr,
    runReg_ok room (by rw [M.bind_ok (jumpTarget_aligned aligned), M.bind_ok (M.run_mapCore _ _), M.run_pure]),
    State.mapCore_mapCore]

theorem exec_jlr_misaligned {gd a : BitVec 5} {imm : BitVec 15} {s : State} (room : s.core.logRoom (gWrite gd) = true)
    (misaligned : (s.core.jumpAddress a imm).toNat % 4 ≠ 0) :
    exec (.jlr gd a imm) s = .next (s.raise s.me (some .s) { cls := 0x09 } s.core.spc (wordOf (.jlr gd a imm))) := by
  rw [exec_jlr, execJlr, runReg_trap room (M.bind_error (jumpTarget_misaligned misaligned)), Core.spc]

/-! ### The statement -/

/-- Settles O3, word by word: the reserved codes, the branches of the four streams, and the four jumps of S. -/
theorem branches : Obligations.Branches := by
  refine ⟨fun code sync a b c d h => branch_wf_of_reserved h sync a b c d, fun s code h => ⟨?bcc, ?vbcc, ?mbcc, ?xbcc⟩,
    fun s => ⟨?j, ?jl, ?jr, ?jlr⟩⟩
  case bcc => exact fun a b off room => exec_bcc_next h a b off s rfl room
  case vbcc => exact fun _ _ _ _ start => runWord_branchBody h start
  case mbcc => exact fun _ _ _ _ start => runWord_branchBody h start
  case xbcc => exact fun _ _ _ _ start => runWord_branchBody h start
  case j => exact fun off room => exec_j_next off s room
  case jl => exact fun off room => exec_jl_next off s room
  case jr =>
    intro a imm room
    split
    case isTrue aligned => exact exec_jr_aligned room aligned
    case isFalse misaligned => exact exec_jr_misaligned room misaligned
  case jlr =>
    intro gd a imm room
    split
    case isTrue aligned => exact exec_jlr_aligned room aligned
    case isFalse misaligned => exact exec_jlr_misaligned room misaligned

end Sys2Proof.Machine
end

section
/-! O11: the named barriers (R103 to R106). The five barrier words are one computation with different parts: a name is
checked, the word may trap or hold on what it finds, and the barrier is changed at its owner. What that computation answers is
said once for each of its ways to end, and each word names its own parts. -/

namespace Sys2Proof.Machine

/-! ### What a barrier word does with its barrier (R105) -/

theorem Barrier.complete_eq (b : Barrier) : b.complete = Claim.complete b := rfl

/-- The parts in which the barrier words differ: whether the barrier shall be the core's own, whether a second operand is out
of range, what the word waits for or traps on, and what it makes of the barrier. -/
structure BarrierUse where
  own : Bool := false
  badCount : Bool := false
  guard : Nat → Barrier → M Unit := fun _ _ => pure ()
  update : Barrier → Barrier

/-- The computation of a barrier word. -/
def BarrierUse.body (u : BarrierUse) (name : Dword) : M Ctl := do
  let (core, k) ← barrierName name u.own u.badCount
  let b := ((← get).coreAt core).barrier k
  u.guard k b
  setBarrier core k (u.update b)
  return .next

/-- BAR.INIT with the count `n`. -/
def BarrierUse.init (n : Dword) : BarrierUse where
  badCount := n.toNat == 0 || decide (65535 < n.toNat)
  update b := { b with exp := n.setWidth 16, arr := 0, seen := b.cmp }

/-- An arrival: it traps where none is expected, and else is a release (R105, R106). -/
def BarrierUse.arrival (update : Barrier → Barrier) : BarrierUse where
  guard _ b := do
    M.check (b.exp != 0) { cls := 0x0B, sub := 2 }
    arriveRelease
  update := fun b => Claim.complete (update b)

/-- BAR.ARR. -/
def BarrierUse.arr : BarrierUse := .arrival fun b => { b with arr := b.arr + 1 }

/-- BAR.ARR.DROP. -/
def BarrierUse.drop : BarrierUse := .arrival fun b => { b with exp := b.exp - 1 }

/-- BAR.ARR.JOIN. -/
def BarrierUse.join : BarrierUse where
  guard _ b := M.check (b.exp != 65535) { cls := 0x0B, sub := 2 }
  update b := { b with exp := b.exp + 1 }

/-- BAR.WAIT. -/
def BarrierUse.wait : BarrierUse where
  own := true
  guard k b := M.until (b.cmp != b.seen) (.barrier k)
  update b := { b with seen := b.cmp }

/-- The word `i` of S with that computation: no handler runs it, and it holds behind untaken commands (R397, R398). -/
def BarrierUse.word (u : BarrierUse) (i : Instr) (s : State) (name : Dword) : Host.Outcome State Fault Refusal :=
  untrapped i s (runOther i 0 (u.body name))

/-- Only what the computation of a word does from the present state counts. -/
theorem untrapped_runOther_congr {i : Instr} {sync : BitVec 4} {x y : M Ctl} {s : State}
    (run : x.run.run s = y.run.run s) : untrapped i s (runOther i sync x) = untrapped i s (runOther i sync y) := by
  simp only [untrapped, runOther, run]

theorem exec_barInit_word (a b : BitVec 5) (s : State) :
    exec (.barInit a b) s = (BarrierUse.init (s.core.readG b)).word (.barInit a b) s (s.core.readG a) := by
  rw [exec_barInit, execBarInit]
  refine untrapped_runOther_congr ?_
  rw [M.bind_ok (M.run_core s)]
  simp only [BarrierUse.body, BarrierUse.init, pure_bind, BitVec.ofNat_toNat]

theorem exec_barArr_word (a : BitVec 5) (s : State) :
    exec (.barArr a) s = BarrierUse.arr.word (.barArr a) s (s.core.readG a) := by
  rw [exec_barArr, execBarArr]
  refine untrapped_runOther_congr ?_
  rw [M.bind_ok (M.run_core s)]
  simp only [BarrierUse.body, BarrierUse.arr, BarrierUse.arrival, bind_assoc, Barrier.complete_eq]

theorem exec_barArrDrop_word (a : BitVec 5) (s : State) :
    exec (.barArrDrop a) s = BarrierUse.drop.word (.barArrDrop a) s (s.core.readG a) := by
  rw [exec_barArrDrop, execBarArrDrop]
  refine untrapped_runOther_congr ?_
  rw [M.bind_ok (M.run_core s)]
  simp only [BarrierUse.body, BarrierUse.drop, BarrierUse.arrival, bind_assoc, Barrier.complete_eq]

theorem exec_barArrJoin_word (a : BitVec 5) (s : State) :
    exec (.barArrJoin a) s = BarrierUse.join.word (.barArrJoin a) s (s.core.readG a) := by
  rw [exec_barArrJoin, execBarArrJoin]
  refine untrapped_runOther_congr ?_
  rw [M.bind_ok (M.run_core s), BarrierUse.body, BarrierUse.join]

theorem exec_barWait_word (a : BitVec 5) (s : State) :
    exec (.barWait a) s = BarrierUse.wait.word (.barWait a) s (s.core.readG a) := by
  rw [exec_barWait, execBarWait]
  refine untrapped_runOther_congr ?_
  rw [M.bind_ok (M.run_core s), BarrierUse.body, BarrierUse.wait]

/-! ### Barrier names (R103) -/

/-- The first check of a name: none of its operands has an error. -/
def BarrierUse.legal (u : BarrierUse) (s : State) (name : Dword) : Bool :=
  bits name 63 14 == 0 && decide (bits name 5 0 < 48) && !(bit name 13 && bits name 12 6 != 0) &&
    !(u.own && Claim.barrierCore s name != s.me) && !u.badCount

theorem BarrierUse.legal_iff {u : BarrierUse} {s : State} {name : Dword} : u.legal s name = true ↔
    Claim.barrierName name ∧ (u.own = true → Claim.barrierCore s name = s.me) ∧ u.badCount = false := by
  simp [BarrierUse.legal, Claim.barrierName, and_assoc, or_iff_not_imp_left]

theorem BarrierUse.legal_eq_false_iff {u : BarrierUse} {s : State} {name : Dword} : u.legal s name = false ↔
    ¬ Claim.barrierName name ∨ (u.own = true ∧ Claim.barrierCore s name ≠ s.me) ∨ u.badCount = true := by
  rw [← Bool.not_eq_true, BarrierUse.legal_iff]
  simp only [not_and_or, Classical.not_imp, Bool.not_eq_false]

theorem run_barrierName (u : BarrierUse) (s : State) (name : Dword) :
    (barrierName name u.own u.badCount).run.run s = (do
      M.check (u.legal s name) (Trap.operand 0x90)
      M.check (s.owns s.core.part (Claim.barrierCore s name)) { cls := 0x0B, sub := 1 }
      return (Claim.barrierCore s name, Claim.barrierIndex name) : M (Nat × Nat)).run.run s := by
  rw [barrierName, M.bind_ok (M.run_get s)]
  rfl

theorem M.run_check_true {b : Bool} {t : Trap} {s : State} (h : b = true) : (M.check b t).run.run s = (.ok ⟨⟩, s) := by
  rw [M.run_check, if_pos h]

theorem M.run_check_false {b : Bool} {t : Trap} {s : State} (h : b = false) :
    (M.check b t).run.run s = (.error (.trap t), s) := by
  rw [M.run_check, if_neg (Bool.not_eq_true b ▸ h)]

/-! ### How a barrier word ends -/

section
variable {u : BarrierUse} {i : Instr} {s : State} {name : Dword}

/-- R103: an operand error is found first. -/
theorem BarrierUse.word_illegal (job : s.core.state ≠ .trapped) (free : s.core.untaken = false)
    (illegal : u.legal s name = false) :
    u.word i s name = .next (Claim.trapped s i (Trap.operand 0x90)) := by
  have named := (run_barrierName u s name).trans (M.bind_error (M.run_check_false illegal))
  exact (untrapped_ok job).trans (runOther_trap free (Core.tokens_zero _ _) (M.bind_error named))

/-- R103: a barrier of no worker core of the partition is found next. -/
theorem BarrierUse.word_foreign (job : s.core.state ≠ .trapped) (free : s.core.untaken = false)
    (legal : u.legal s name = true) (foreign : s.owns s.core.part (Claim.barrierCore s name) = false) :
    u.word i s name = .next (Claim.trapped s i { cls := 0x0B, sub := 1 }) := by
  have named := (run_barrierName u s name).trans
    ((M.bind_ok (M.run_check_true legal)).trans (M.bind_error (M.run_check_false foreign)))
  exact (untrapped_ok job).trans (runOther_trap free (Core.tokens_zero _ _) (M.bind_error named))

/-- Behind a name without fault, the rest of the word works on the barrier of that name. -/
theorem BarrierUse.run_body (ready : Claim.barrierReady s name) (legal : u.legal s name = true) :
    (u.body name).run.run s = (do
      u.guard (Claim.barrierIndex name) (Claim.barrierOf s name)
      setBarrier (Claim.barrierCore s name) (Claim.barrierIndex name) (u.update (Claim.barrierOf s name))
      return .next : M Ctl).run.run s := by
  obtain ⟨-, -, -, owned⟩ := ready
  have named := (run_barrierName u s name).trans
    ((M.bind_ok (M.run_check_true legal)).trans (M.bind_ok (M.run_check_true owned)))
  rw [BarrierUse.body, M.bind_ok named, M.bind_ok (M.run_get s)]
  rfl

/-- R105: where the word neither traps nor holds, its barrier is changed and S goes on. -/
theorem BarrierUse.word_done (ready : Claim.barrierReady s name) (legal : u.legal s name = true)
    (pass : (u.guard (Claim.barrierIndex name) (Claim.barrierOf s name)).run.run s = (.ok ⟨⟩, s)) :
    u.word i s name = .next (Claim.barrierSet s name (u.update (Claim.barrierOf s name))) := by
  have run := (BarrierUse.run_body ready legal).trans (M.bind_ok pass)
  obtain ⟨job, free, -, -⟩ := ready
  exact (untrapped_ok job).trans (runOther_ok_zero free run)

theorem BarrierUse.word_held {h : Hold} (ready : Claim.barrierReady s name) (legal : u.legal s name = true)
    (hold : (u.guard (Claim.barrierIndex name) (Claim.barrierOf s name)).run.run s = (.error (.hold h), s)) :
    u.word i s name = .next (s.held .s h) := by
  have run := (BarrierUse.run_body ready legal).trans (M.bind_error hold)
  obtain ⟨job, free, -, -⟩ := ready
  exact (untrapped_ok job).trans (runOther_hold free run)

theorem BarrierUse.word_trapped {t : Trap} (ready : Claim.barrierReady s name) (legal : u.legal s name = true)
    (trap : (u.guard (Claim.barrierIndex name) (Claim.barrierOf s name)).run.run s = (.error (.trap t), s)) :
    u.word i s name = .next (Claim.trapped s i t) := by
  have run := (BarrierUse.run_body ready legal).trans (M.bind_error trap)
  obtain ⟨job, free, -, -⟩ := ready
  exact (untrapped_ok job).trans (runOther_trap free (Core.tokens_zero _ _) run)

/-- A word that may name any core has no operand error where its name and its count have none. -/
theorem BarrierUse.legal_of_name (any : u.own = false) (count : u.badCount = false) (named : Claim.barrierName name) :
    u.legal s name = true :=
  BarrierUse.legal_iff.mpr ⟨named, fun own => absurd own (Bool.not_eq_true _ ▸ any), count⟩

theorem BarrierUse.legal_of_ready (any : u.own = false) (count : u.badCount = false) (ready : Claim.barrierReady s name) :
    u.legal s name = true := by
  obtain ⟨-, -, named, -⟩ := ready
  exact BarrierUse.legal_of_name any count named

/-! ### The words whose work can hold or trap (R105, R106) -/

/-- R103: the counts that BAR.INIT takes. -/
theorem BarrierUse.init_badCount {n : Dword} (pos : n.toNat ≠ 0) (le : n.toNat ≤ 65535) :
    (BarrierUse.init n).badCount = false := by
  simp [BarrierUse.init, pos, Nat.not_lt.mpr le]

theorem BarrierUse.init_badCount_of_range {n : Dword} (range : n.toNat = 0 ∨ 65535 < n.toNat) :
    (BarrierUse.init n).badCount = true := by
  simpa [BarrierUse.init] using range

theorem run_arriveRelease_performed (performed : s.core.performed = true) :
    arriveRelease.run.run s = (.ok ⟨⟩, s) := by
  rw [arriveRelease, M.bind_ok (M.run_core s), M.run_until, if_pos performed]

/-- R106: an arrival is a release, so it holds until S's earlier accesses are performed. -/
theorem run_arriveRelease_pending (pending : s.core.performed = false) :
    arriveRelease.run.run s = (.error (.hold (.device 12)), s) := by
  rw [arriveRelease, M.bind_ok (M.run_core s), M.run_until, if_neg (Bool.not_eq_true _ ▸ pending)]

theorem BarrierUse.arrival_done {update : Barrier → Barrier} (ready : Claim.barrierReady s name)
    (expected : (Claim.barrierOf s name).exp ≠ 0) (performed : s.core.performed = true) :
    (BarrierUse.arrival update).word i s name =
      .next (Claim.barrierSet s name (Claim.complete (update (Claim.barrierOf s name)))) :=
  BarrierUse.word_done ready (BarrierUse.legal_of_ready rfl rfl ready)
    ((M.bind_ok (M.run_check_true (bne_iff_ne.mpr expected))).trans (run_arriveRelease_performed performed))

theorem BarrierUse.arrival_held {update : Barrier → Barrier} (ready : Claim.barrierReady s name)
    (expected : (Claim.barrierOf s name).exp ≠ 0) (pending : s.core.performed = false) :
    (BarrierUse.arrival update).word i s name = .next (s.held .s (.device 12)) :=
  BarrierUse.word_held ready (BarrierUse.legal_of_ready rfl rfl ready)
    ((M.bind_ok (M.run_check_true (bne_iff_ne.mpr expected))).trans (run_arriveRelease_pending pending))

/-- R105: the fault of an arrival that is not expected comes before its hold. -/
theorem BarrierUse.arrival_unexpected {update : Barrier → Barrier} (ready : Claim.barrierReady s name)
    (unexpected : (Claim.barrierOf s name).exp = 0) :
    (BarrierUse.arrival update).word i s name = .next (Claim.trapped s i { cls := 0x0B, sub := 2 }) :=
  BarrierUse.word_trapped ready (BarrierUse.legal_of_ready rfl rfl ready)
    (M.bind_error (M.run_check_false (bne_eq_false_iff_eq.mpr unexpected)))

theorem BarrierUse.join_done (ready : Claim.barrierReady s name) (room : (Claim.barrierOf s name).exp ≠ 65535) :
    BarrierUse.join.word i s name = .next (Claim.barrierSet s name
      { Claim.barrierOf s name with exp := (Claim.barrierOf s name).exp + 1 }) :=
  BarrierUse.word_done ready (BarrierUse.legal_of_ready rfl rfl ready) (M.run_check_true (bne_iff_ne.mpr room))

theorem BarrierUse.join_full (ready : Claim.barrierReady s name) (full : (Claim.barrierOf s name).exp = 65535) :
    BarrierUse.join.word i s name = .next (Claim.trapped s i { cls := 0x0B, sub := 2 }) :=
  BarrierUse.word_trapped ready (BarrierUse.legal_of_ready rfl rfl ready) (M.run_check_false (bne_eq_false_iff_eq.mpr full))

/-- BAR.WAIT holds until its barrier has completed a phase since the last that it consumed. -/
theorem BarrierUse.wait_next (ready : Claim.barrierReady s name) (mine : Claim.barrierCore s name = s.me) :
    BarrierUse.wait.word i s name = .next (
      if (Claim.barrierOf s name).cmp = (Claim.barrierOf s name).seen then
        s.held .s (.barrier (Claim.barrierIndex name))
      else Claim.barrierSet s name { Claim.barrierOf s name with seen := (Claim.barrierOf s name).cmp }) := by
  have legal : BarrierUse.wait.legal s name = true := by
    obtain ⟨-, -, named, -⟩ := ready
    exact BarrierUse.legal_iff.mpr ⟨named, fun _ => mine, rfl⟩
  split
  case isTrue consumed =>
    exact BarrierUse.word_held ready legal ((M.run_until _ _ _).trans (if_neg (by simp [consumed])))
  case isFalse completed =>
    exact BarrierUse.word_done ready legal ((M.run_until _ _ _).trans (if_pos (bne_iff_ne.mpr completed)))

end

/-! ### The statement -/

/-- Settles O11: each word is a `BarrierUse`, and each clause one of the ways in which such a word ends. -/
theorem barrierWords : Obligations.BarrierWords := by
  refine ⟨fun s a b ready => ⟨?init, ?arrive, ?pending, ?join, ?wait⟩,
    fun s a b job free => ⟨?misnamed, ?count, ?notMine, ?foreign, ?unexpected, ?full⟩⟩
  all_goals simp only [exec_barInit_word, exec_barArr_word, exec_barArrDrop_word, exec_barArrJoin_word, exec_barWait_word]
  case init =>
    intro pos le
    have legal := BarrierUse.legal_of_ready rfl (BarrierUse.init_badCount pos le) ready
    exact BarrierUse.word_done ready legal rfl
  case arrive =>
    exact fun expected performed =>
      ⟨BarrierUse.arrival_done ready expected performed, BarrierUse.arrival_done ready expected performed⟩
  case pending =>
    exact fun expected pending =>
      ⟨BarrierUse.arrival_held ready expected pending, BarrierUse.arrival_held ready expected pending⟩
  case join => exact BarrierUse.join_done ready
  case wait => exact BarrierUse.wait_next ready
  case misnamed =>
    intro misnamed
    have bad {u : BarrierUse} {i : Instr} : u.word i s (s.core.readG a) = _ :=
      BarrierUse.word_illegal job free (BarrierUse.legal_eq_false_iff.mpr (.inl misnamed))
    exact ⟨bad, bad, bad, bad, bad⟩
  case count =>
    exact fun range => BarrierUse.word_illegal job free
      (BarrierUse.legal_eq_false_iff.mpr (.inr (.inr (BarrierUse.init_badCount_of_range range))))
  case notMine =>
    exact fun notMine => BarrierUse.word_illegal job free (BarrierUse.legal_eq_false_iff.mpr (.inr (.inl ⟨rfl, notMine⟩)))
  case foreign =>
    intro named foreign
    have elsewhere {u : BarrierUse} {i : Instr} (legal : u.legal s (s.core.readG a) = true) :=
      BarrierUse.word_foreign (i := i) job free legal foreign
    exact ⟨elsewhere (BarrierUse.legal_of_name rfl rfl named), elsewhere (BarrierUse.legal_of_name rfl rfl named),
      elsewhere (BarrierUse.legal_of_name rfl rfl named),
      fun pos le => elsewhere (BarrierUse.legal_of_name rfl (BarrierUse.init_badCount pos le) named),
      fun mine => elsewhere (BarrierUse.legal_iff.mpr ⟨named, fun _ => mine, rfl⟩)⟩
  case unexpected =>
    exact fun ready unexpected =>
      ⟨BarrierUse.arrival_unexpected ready unexpected, BarrierUse.arrival_unexpected ready unexpected⟩
  case full => exact fun ready => BarrierUse.join_full ready

end Sys2Proof.Machine
end

section
/-! O7: the words that only go on (R101). Their computation is `pure .next`, so the rules of `runReg` and of `runWord` say
all that they do. -/

namespace Sys2Proof.Machine

/-- A word of S that only goes on logs no more than what its loop's end test writes (R397). -/
theorem runReg_pure_next {i : Instr} {s : State} (room : s.core.logRoom s.core.loopBack = true) :
    runReg i Core.loopBack (pure .next) s = .next (s.mapCore fun c => (c.logWrites c.loopBack).advance .s .next) := by
  rw [runReg_ok room (M.run_pure _ s)]
  simp only [State.mapCore]

/-- Settles O7, by the rule of a word of S that writes no register and the rule of a word of X, M or V. -/
theorem noOps : Obligations.NoOps := by
  refine fun s sync => ⟨fun room => ⟨?nop, ?yield⟩, ?xnop, ?mnop, ?vnop⟩
  case nop => exact (exec_nop s).trans (runReg_pure_next room)
  case yield => exact (exec_yield s).trans (runReg_pure_next room)
  case xnop => exact fun start => (exec_xnop sync s).trans (runWord_issued start (M.run_pure _ s) fun _ => rfl)
  case mnop => exact fun start => (exec_mnop sync s).trans (runWord_issued start (M.run_pure _ s) fun _ => rfl)
  case vnop => exact fun start => (exec_vnop sync s).trans (runWord_issued start (M.run_pure _ s) fun _ => rfl)

end Sys2Proof.Machine
end

section
/-! O1: the scalar arithmetic words of S (R173 to R180). Each of these words is `runValue` of some function of the core, so
what such a word answers is said once; what remains is that the function's value is the one its rule gives over the integers. -/

namespace Sys2Proof.Machine

/-! ### A doubleword by the number that it reads as -/

theorem eq_ofNat_of_toNat {w n : Nat} {x : BitVec w} (h : x.toNat = n) : x = BitVec.ofNat w n := by
  rw [← h, BitVec.ofNat_toNat, BitVec.setWidth_eq]

theorem eq_ofInt_of_toInt {w : Nat} {n : Int} {x : BitVec w} (h : x.toInt = n) : x = BitVec.ofInt w n := by
  rw [← h, BitVec.ofInt_toInt]

/-- Sign extension keeps the integer that the immediate reads as. -/
theorem signExtend_eq_ofInt {w : Nat} (imm : BitVec w) : imm.signExtend 64 = BitVec.ofInt 64 imm.toInt := rfl

theorem eq_zero_iff_toNat {x : Dword} : x = 0 ↔ x.toNat = 0 := BitVec.toNat_eq

/-! ### Sums and products (R173, R178) -/

theorem add_eq_ofInt (a b : Dword) : a + b = BitVec.ofInt 64 (a.toInt + b.toInt) := by
  rw [BitVec.ofInt_add, BitVec.ofInt_toInt, BitVec.ofInt_toInt]

theorem mul_eq_ofInt (a b : Dword) : a * b = BitVec.ofInt 64 (a.toInt * b.toInt) := by
  rw [BitVec.ofInt_mul, BitVec.ofInt_toInt, BitVec.ofInt_toInt]

theorem sub_eq_ofInt (a b : Dword) : a - b = BitVec.ofInt 64 (a.toInt - b.toInt) := by
  rw [Int.sub_eq_add_neg, BitVec.ofInt_add, BitVec.ofInt_neg, BitVec.ofInt_toInt, BitVec.ofInt_toInt, BitVec.sub_eq_add_neg]

theorem add_mul_eq_ofInt (x a b : Dword) : x + a * b = BitVec.ofInt 64 (x.toInt + a.toInt * b.toInt) := by
  rw [BitVec.ofInt_add, BitVec.ofInt_toInt, mul_eq_ofInt]

/-- R173: the high half of a signed product is rounded down. -/
theorem mulHigh_eq_fdiv (a b : Dword) :
    BitVec.ofInt 64 (a.toInt * b.toInt / 2 ^ 64) = BitVec.ofInt 64 ((a.toInt * b.toInt).fdiv (2 ^ 64)) := by
  rw [Int.fdiv_eq_ediv_of_nonneg _ (by positivity)]

theorem add_signExtend_eq_ofInt {w : Nat} (a : Dword) (imm : BitVec w) :
    a + imm.signExtend 64 = BitVec.ofInt 64 (a.toInt + imm.toInt) := by
  rw [BitVec.ofInt_add, BitVec.ofInt_toInt, signExtend_eq_ofInt]

/-! ### Division (R175) -/

theorem divide_eq (a b : Dword) :
    divide a b = if b.toNat = 0 then BitVec.ofInt 64 (-1) else BitVec.ofInt 64 (a.toInt.tdiv b.toInt) := by
  simp only [divide, eq_zero_iff_toNat]
  rfl

theorem divideU_eq (a b : Dword) :
    divideU a b = if b.toNat = 0 then BitVec.ofNat 64 (2 ^ 64 - 1) else BitVec.ofNat 64 (a.toNat / b.toNat) := by
  simp only [divideU, eq_zero_iff_toNat]
  rfl

/-- R175: a = q × b + r, also by zero, where the truncated quotient of the integers is 0. -/
theorem remainder_eq (a b : Dword) : remainder a b = BitVec.ofInt 64 (a.toInt - b.toInt * a.toInt.tdiv b.toInt) := by
  rw [← Int.tmod_def, remainder]
  split
  case isTrue zero => rw [zero, show (0 : Dword).toInt = 0 from rfl, Int.tmod_zero, BitVec.ofInt_toInt]
  case isFalse => rfl

theorem remainderU_eq (a b : Dword) :
    remainderU a b = if b.toNat = 0 then BitVec.ofNat 64 a.toNat
      else BitVec.ofNat 64 (a.toNat - b.toNat * (a.toNat / b.toNat)) := by
  simp only [remainderU, eq_zero_iff_toNat, ← Nat.mod_eq_sub_mul_div, ← eq_ofNat_of_toNat (x := a) rfl]

/-! ### Logic (R173, R178) -/

theorem andNot_eq_ofNat (a b : Dword) : a &&& ~~~b = BitVec.ofNat 64 (a.toNat &&& (2 ^ 64 - 1 - b.toNat)) :=
  eq_ofNat_of_toNat ((BitVec.toNat_and _ _).trans (by rw [BitVec.toNat_not]))

theorem toNat_zeroExtend (imm : BitVec 15) : (imm.setWidth 64).toNat = imm.toNat :=
  BitVec.toNat_setWidth_of_le (by decide)

/-! ### Shifts (R173, R178) -/

theorem shiftLeft_eq_ofNat (a : Dword) (n : Nat) : a <<< n = BitVec.ofNat 64 (a.toNat * 2 ^ n) := by
  refine BitVec.eq_of_toNat_eq ?_
  rw [BitVec.toNat_shiftLeft, BitVec.toNat_ofNat, Nat.shiftLeft_eq]

theorem shiftRight_eq_ofNat (a : Dword) (n : Nat) : a >>> n = BitVec.ofNat 64 (a.toNat / 2 ^ n) :=
  eq_ofNat_of_toNat (by rw [BitVec.toNat_ushiftRight, Nat.shiftRight_eq_div_pow])

theorem sshiftRight_eq_ofInt (a : Dword) (n : Nat) : a.sshiftRight n = BitVec.ofInt 64 (a.toInt.fdiv (2 ^ n)) := by
  refine eq_ofInt_of_toInt ?_
  rw [BitVec.toInt_sshiftRight, Int.shiftRight_eq_div_pow, Int.fdiv_eq_ediv_of_nonneg _ (by positivity)]
  norm_cast

/-! ### Comparisons and selection (R173, R177, R178) -/

theorem truth_slt (a b : Dword) : truth (a.slt b) = if a.toInt < b.toInt then 1 else 0 := by
  simp [truth, BitVec.slt_eq_decide]

theorem truth_ult (a b : Dword) : truth (a.ult b) = if a.toNat < b.toNat then 1 else 0 := by
  simp [truth, BitVec.ult_eq_decide]

theorem truth_slt_signExtend (a : Dword) (imm : BitVec 15) :
    truth (a.slt (imm.signExtend 64)) = if a.toInt < imm.toInt then 1 else 0 := by
  rw [truth_slt, BitVec.toInt_signExtend_of_le (by decide)]

/-- R178: SLTIU reads its sign-extended immediate as unsigned. -/
theorem truth_ult_signExtend (a : Dword) (imm : BitVec 15) :
    truth (a.ult (imm.signExtend 64)) = if (a.toNat : Int) < imm.toInt % 2 ^ 64 then 1 else 0 := by
  have unsigned : ((imm.signExtend 64).toNat : Int) = imm.toInt % 2 ^ 64 := by
    rw [signExtend_eq_ofInt, BitVec.toNat_ofInt, Int.toNat_of_nonneg (by omega)]
    rfl
  rw [truth_ult, ← unsigned]
  simp only [Int.ofNat_lt]

theorem ite_slt_eq_min (a b : Dword) : (if a.slt b then a else b) = BitVec.ofInt 64 (min a.toInt b.toInt) := by
  refine eq_ofInt_of_toInt ?_
  simp only [BitVec.slt_eq_decide, decide_eq_true_eq, apply_ite BitVec.toInt, min_def_lt]

theorem ite_slt_eq_max (a b : Dword) : (if a.slt b then b else a) = BitVec.ofInt 64 (max a.toInt b.toInt) := by
  refine eq_ofInt_of_toInt ?_
  simp only [BitVec.slt_eq_decide, decide_eq_true_eq, apply_ite BitVec.toInt, max_def_lt]

theorem ite_ult_eq_min (a b : Dword) : (if a.ult b then a else b) = BitVec.ofNat 64 (min a.toNat b.toNat) := by
  refine eq_ofNat_of_toNat ?_
  simp only [BitVec.ult_eq_decide, decide_eq_true_eq, apply_ite BitVec.toNat, min_def_lt]

theorem ite_ult_eq_max (a b : Dword) : (if a.ult b then b else a) = BitVec.ofNat 64 (max a.toNat b.toNat) := by
  refine eq_ofNat_of_toNat ?_
  simp only [BitVec.ult_eq_decide, decide_eq_true_eq, apply_ite BitVec.toNat, max_def_lt]

theorem select_eq (c a b : Dword) :
    (if c = 0 then b else a) = if c.toNat ≠ 0 then BitVec.ofNat 64 a.toNat else BitVec.ofNat 64 b.toNat := by
  simp only [eq_zero_iff_toNat, ← eq_ofNat_of_toNat (x := a) rfl, ← eq_ofNat_of_toNat (x := b) rfl, ite_not]

/-! ### Counts of bits (R176) -/

/-- The numbers below `n` that are at least `k`. -/
theorem countP_range_le {k n : Nat} (h : k ≤ n) : (List.range n).countP (fun i => decide (k ≤ i)) = n - k := by
  induction n, h using Nat.le_induction with
  | base => simp
  | succ n le ih =>
    rw [List.range_succ, List.countP_append, ih, List.countP_singleton, decide_eq_true le, if_pos rfl, Nat.succ_sub le]

theorem leadingZeros_eq (a : Dword) :
    leadingZeros a = BitVec.ofNat 64 ((List.range 64).countP fun n => a.toNat < 2 ^ n) := by
  rw [leadingZeros]
  congr 1
  by_cases zero : a = 0
  case pos => simp [zero]
  case neg =>
    have pos : a.toNat ≠ 0 := eq_zero_iff_toNat.not.mp zero
    have top : a.toNat.log2 < 64 := (Nat.log2_lt pos).mpr a.isLt
    simp only [if_neg zero, ← Nat.log2_lt pos, ← Nat.succ_le_iff]
    rw [countP_range_le top, Nat.succ_eq_add_one, Nat.sub_add_eq, Nat.sub_right_comm]

/-- Counting the places where a test holds adds a 1 for each. -/
theorem countP_eq_sum {α : Type} (p : α → Bool) (l : List α) : l.countP p = (l.map fun x => (p x).toNat).sum := by
  induction l with
  | nil => rfl
  | cons x l ih => cases h : p x <;> simp [ih, h, Nat.add_comm]

theorem ones_eq (a : Dword) :
    ones a = BitVec.ofNat 64 ((List.range 64).map fun n => a.toNat / 2 ^ n % 2).sum := by
  rw [ones, countP_eq_sum]
  congr 3
  funext n
  rw [← BitVec.testBit_toNat, Nat.toNat_testBit]

/-! ### Bit fields (R179) -/

theorem bitField_fits {lsb : BitVec 6} {width : BitVec 7} (h : Limits.bitField lsb width = true) :
    lsb.toNat + width.toNat ≤ 64 := by
  simp only [Limits.bitField, Bool.and_eq_true, decide_eq_true_eq] at h
  exact h.2

theorem toNat_fieldMask {width : Nat} (h : width ≤ 64) : (fieldMask width).toNat = 2 ^ width - 1 := by
  have le : 2 ^ width ≤ 2 ^ 64 := Nat.pow_le_pow_right (by decide) h
  have pos : 0 < 2 ^ width := Nat.two_pow_pos width
  rw [fieldMask, BitVec.toNat_ofNat, Nat.mod_eq_of_lt (by omega)]

theorem extractField_eq (a : Dword) {lsb width : Nat} (fits : lsb + width ≤ 64) :
    extractField a lsb width = BitVec.ofNat 64 (a.toNat / 2 ^ lsb % 2 ^ width) := by
  refine eq_ofNat_of_toNat ?_
  rw [extractField, BitVec.toNat_and, toNat_fieldMask (by omega), Nat.and_two_pow_sub_one_eq_mod, BitVec.toNat_ushiftRight,
    Nat.shiftRight_eq_div_pow]

theorem getLsbD_fieldMask {width : Nat} (h : width ≤ 64) (i : Nat) : (fieldMask width).getLsbD i = decide (i < width) := by
  rw [← BitVec.testBit_toNat, toNat_fieldMask h, Nat.testBit_two_pow_sub_one]

/-- A bit of an inserted field comes from the field inside of it, and from the base outside. -/
theorem getLsbD_insertField (a x : Dword) {lsb width i : Nat} (fits : lsb + width ≤ 64) (hi : i < 64) :
    (insertField a x lsb width).getLsbD i =
      if lsb ≤ i ∧ i < lsb + width then x.getLsbD (i - lsb) else a.getLsbD i := by
  simp only [insertField, BitVec.getLsbD_or, BitVec.getLsbD_and, BitVec.getLsbD_not, BitVec.getLsbD_shiftLeft,
    getLsbD_fieldMask (show width ≤ 64 by omega)]
  grind

/-- The same bits in the sum of the base above, the field and the base below. -/
theorem testBit_insertField (a x lsb width i : Nat) :
    (a / 2 ^ (lsb + width) * 2 ^ (lsb + width) + x % 2 ^ width * 2 ^ lsb + a % 2 ^ lsb).testBit i =
      if lsb ≤ i ∧ i < lsb + width then x.testBit (i - lsb) else a.testBit i := by
  have sum : a / 2 ^ (lsb + width) * 2 ^ (lsb + width) + x % 2 ^ width * 2 ^ lsb + a % 2 ^ lsb =
      2 ^ lsb * (2 ^ width * (a / 2 ^ (lsb + width)) + x % 2 ^ width) + a % 2 ^ lsb := by ring
  rw [sum, Nat.testBit_two_pow_mul_add _ (Nat.mod_lt _ (Nat.two_pow_pos _)),
    Nat.testBit_two_pow_mul_add _ (Nat.mod_lt _ (Nat.two_pow_pos _))]
  simp only [Nat.testBit_mod_two_pow, Nat.testBit_div_two_pow]
  rcases Nat.lt_or_ge i lsb with below | notBelow
  case inl => simp [below, Nat.not_le.mpr below]
  case inr =>
    rcases Nat.lt_or_ge i (lsb + width) with inside | above
    case inl => simp [Nat.not_lt.mpr notBelow, notBelow, inside, show i - lsb < width by omega]
    case inr =>
      simp [Nat.not_lt.mpr notBelow, Nat.not_lt.mpr above, show ¬ i - lsb < width by omega,
        show i - lsb - width + (lsb + width) = i by omega]

theorem insertField_eq (a x : Dword) {lsb width : Nat} (fits : lsb + width ≤ 64) :
    insertField a x lsb width = BitVec.ofNat 64 (a.toNat / 2 ^ (lsb + width) * 2 ^ (lsb + width) +
      x.toNat % 2 ^ width * 2 ^ lsb + a.toNat % 2 ^ lsb) := by
  refine BitVec.eq_of_getLsbD_eq fun i hi => ?_
  rw [getLsbD_insertField a x fits hi, BitVec.getLsbD_ofNat, testBit_insertField, BitVec.testBit_toNat, BitVec.testBit_toNat,
    decide_eq_true hi, Bool.true_and]

/-! ### Upper immediates (R180) -/

theorem upper_eq_ofInt (imm : BitVec 20) : upper imm = BitVec.ofInt 64 (imm.toInt * 4096) := by
  rw [upper, BitVec.shiftLeft_eq_mul_twoPow, signExtend_eq_ofInt, BitVec.ofInt_mul]
  rfl

theorem add_upper_eq_ofInt (pc : Dword) (imm : BitVec 20) :
    pc + upper imm = BitVec.ofInt 64 (pc.toInt + imm.toInt * 4096) := by
  rw [BitVec.ofInt_add, BitVec.ofInt_toInt, upper_eq_ofInt]

/-! ### Encodings (R33, R175) -/

theorem toNat_append_eq_add {m n : Nat} (x : BitVec m) (y : BitVec n) : (x ++ y).toNat = x.toNat * 2 ^ n + y.toNat := by
  rw [BitVec.toNat_append, ← Nat.shiftLeft_add_eq_or_of_lt y.isLt, Nat.shiftLeft_eq]

/-- A word of S on three g registers with major opcode 0x01: its fields, each shifted into place, are summed. -/
theorem encoding_eq_sum (gd a b : BitVec 5) (func : BitVec 10) :
    (0x1#7 ++ gd ++ a ++ b ++ func : BitVec 32) =
      BitVec.ofNat 32 (2 ^ 25 + gd.toNat * 2 ^ 20 + a.toNat * 2 ^ 15 + b.toNat * 2 ^ 10 + func.toNat) := by
  refine eq_ofNat_of_toNat ?_
  simp only [toNat_append_eq_add, show (0x1#7).toNat = 1 from rfl]
  ring

/-! ### The statement -/

/-- Every word of S that has a value by the rules is `runValue` of a function which gives that value. -/
theorem exec_eq_runValue {i : Instr} {c : Core} {gd : BitVec 5} {x : Dword} (wf : i.wf = true)
    (rule : Claim.value i c = some (gd, x)) : ∃ f : Core → Dword, (∀ s, exec i s = runValue gd f s) ∧ f c = x := by
  cases i with
  | add gd a b => cases rule; exact ⟨_, exec_add gd a b, add_eq_ofInt _ _⟩
  | sub gd a b => cases rule; exact ⟨_, exec_sub gd a b, sub_eq_ofInt _ _⟩
  | mul gd a b => cases rule; exact ⟨_, exec_mul gd a b, mul_eq_ofInt _ _⟩
  | mulh gd a b => cases rule; exact ⟨_, exec_mulh gd a b, mulHigh_eq_fdiv _ _⟩
  | mulhu gd a b => cases rule; exact ⟨_, exec_mulhu gd a b, rfl⟩
  | madd gd a b => cases rule; exact ⟨_, exec_madd gd a b, add_mul_eq_ofInt _ _ _⟩
  | div gd a b => cases rule; exact ⟨_, exec_div gd a b, divide_eq _ _⟩
  | divu gd a b => cases rule; exact ⟨_, exec_divu gd a b, divideU_eq _ _⟩
  | rem gd a b => cases rule; exact ⟨_, exec_rem gd a b, remainder_eq _ _⟩
  | remu gd a b => cases rule; exact ⟨_, exec_remu gd a b, remainderU_eq _ _⟩
  | and gd a b => cases rule; exact ⟨_, exec_and gd a b, eq_ofNat_of_toNat (BitVec.toNat_and _ _)⟩
  | or gd a b => cases rule; exact ⟨_, exec_or gd a b, eq_ofNat_of_toNat (BitVec.toNat_or _ _)⟩
  | xor gd a b => cases rule; exact ⟨_, exec_xor gd a b, eq_ofNat_of_toNat (BitVec.toNat_xor _ _)⟩
  | andn gd a b => cases rule; exact ⟨_, exec_andn gd a b, andNot_eq_ofNat _ _⟩
  | shl gd a b => cases rule; exact ⟨_, exec_shl gd a b, shiftLeft_eq_ofNat _ _⟩
  | shr gd a b => cases rule; exact ⟨_, exec_shr gd a b, shiftRight_eq_ofNat _ _⟩
  | sar gd a b => cases rule; exact ⟨_, exec_sar gd a b, sshiftRight_eq_ofInt _ _⟩
  | slt gd a b => cases rule; exact ⟨_, exec_slt gd a b, truth_slt _ _⟩
  | sltu gd a b => cases rule; exact ⟨_, exec_sltu gd a b, truth_ult _ _⟩
  | min gd a b => cases rule; exact ⟨_, exec_min gd a b, ite_slt_eq_min _ _⟩
  | max gd a b => cases rule; exact ⟨_, exec_max gd a b, ite_slt_eq_max _ _⟩
  | minu gd a b => cases rule; exact ⟨_, exec_minu gd a b, ite_ult_eq_min _ _⟩
  | maxu gd a b => cases rule; exact ⟨_, exec_maxu gd a b, ite_ult_eq_max _ _⟩
  | clz gd a => cases rule; exact ⟨_, exec_clz gd a, leadingZeros_eq _⟩
  | popc gd a => cases rule; exact ⟨_, exec_popc gd a, ones_eq _⟩
  | sel gd a b gc => cases rule; exact ⟨_, exec_sel gd a b gc, select_eq _ _ _⟩
  | addi gd a imm => cases rule; exact ⟨_, exec_addi gd a imm, add_signExtend_eq_ofInt _ _⟩
  | andi gd a imm => cases rule; exact ⟨_, exec_andi gd a imm, eq_ofNat_of_toNat (by rw [BitVec.toNat_and, toNat_zeroExtend])⟩
  | ori gd a imm => cases rule; exact ⟨_, exec_ori gd a imm, eq_ofNat_of_toNat (by rw [BitVec.toNat_or, toNat_zeroExtend])⟩
  | xori gd a imm => cases rule; exact ⟨_, exec_xori gd a imm, eq_ofNat_of_toNat (by rw [BitVec.toNat_xor, toNat_zeroExtend])⟩
  | slti gd a imm => cases rule; exact ⟨_, exec_slti gd a imm, truth_slt_signExtend _ _⟩
  | sltiu gd a imm => cases rule; exact ⟨_, exec_sltiu gd a imm, truth_ult_signExtend _ _⟩
  | shli gd a n => cases rule; exact ⟨_, exec_shli gd a n, shiftLeft_eq_ofNat _ _⟩
  | shri gd a n => cases rule; exact ⟨_, exec_shri gd a n, shiftRight_eq_ofNat _ _⟩
  | sari gd a n => cases rule; exact ⟨_, exec_sari gd a n, sshiftRight_eq_ofInt _ _⟩
  | bfx gd a lsb width => cases rule; exact ⟨_, exec_bfx gd a lsb width, extractField_eq _ (bitField_fits wf)⟩
  | bfi gd a lsb width => cases rule; exact ⟨_, exec_bfi gd a lsb width, insertField_eq _ _ (bitField_fits wf)⟩
  | lui gd imm => cases rule; exact ⟨_, exec_lui gd imm, upper_eq_ofInt _⟩
  | addpc gd imm => cases rule; exact ⟨_, exec_addpc gd imm, add_upper_eq_ofInt _ _⟩
  | _ => cases rule

/-- Settles O1: a word of S with a value is `runValue` of that value, which never faults, and the division words are summed from
their fields. -/
theorem scalarValue : Obligations.ScalarValue := by
  refine ⟨fun i s gd x wf rule room => ?value, fun gd a b => ⟨?div, ?divu, ?rem, ?remu⟩⟩
  case value =>
    obtain ⟨f, run, rfl⟩ := exec_eq_runValue wf rule
    rw [run, runValue_next room]
    simp only [State.mapCore, State.core]
  case div => exact congrArg some (encoding_eq_sum gd a b 6)
  case divu => exact congrArg some (encoding_eq_sum gd a b 7)
  case rem => exact congrArg some (encoding_eq_sum gd a b 8)
  case remu => exact congrArg some (encoding_eq_sum gd a b 9)

end Sys2Proof.Machine
end

section
/-! O20: the scalar queues as S and X use them (R20, R247, R298). A put and a pop are each run once, with an entry or a place and
without; the words are then the rules of `runOther` and of `runWord` over those runs. -/

namespace Sys2Proof.Machine

/-! ### What the cycle's start leaves to write and to read (R20) -/

/-- The scalar queues are the queues from 6 on in QSEQ, so their counts of the cycle are those from 14 on. -/
theorem cycleCount_of_scalar (q : Nat) : 8 + (q + 6) = 14 + q := by omega

theorem Core.writable_scalar_iff {c : Core} {q : Nat} : c.writable (q + 6) = true ↔ Claim.hasPlace c q := by
  have notWide : ¬ q + 6 < 6 := by omega
  simp only [Core.writable, if_neg notWide, decide_eq_true_iff, Nat.add_sub_cancel, cycleCount_of_scalar, Claim.hasPlace]

theorem Core.readable_scalar_iff {c : Core} {q : Nat} : c.readable (q + 6) = true ↔ Claim.hasEntry c q := by
  have notWide : ¬ q + 6 < 6 := by omega
  simp only [Core.readable, if_neg notWide, decide_eq_true_iff, Nat.add_sub_cancel, cycleCount_of_scalar, Claim.hasEntry]

/-! ### The two ends of a scalar queue (R20) -/

theorem Core.pushScalar_eq_putScalar (c : Core) (q : Nat) (x : Dword) : c.pushScalar q x = Claim.putScalar c q x := rfl

theorem Core.popScalar_eq_takeScalar (c : Core) (q : Nat) : c.popScalar q = Claim.takeScalar c q := rfl

section
variable {s : State} {q : Nat}

theorem run_qputBody_place (place : Claim.hasPlace s.core q) (gs1 : BitVec 5) :
    (qputBody q gs1).run.run s = (.ok .next, s.mapCore fun c => Claim.putScalar c q (c.readG gs1)) := by
  have pass := (M.run_until (s.core.writable (q + 6)) (.fullScalar q) s).trans (if_pos (Core.writable_scalar_iff.mpr place))
  rw [qputBody, M.bind_ok (M.run_core s), M.bind_ok pass, M.bind_ok (M.run_mapCore _ s), M.run_pure]
  simp only [Core.pushScalar_eq_putScalar]

theorem run_qputBody_full (full : ¬ Claim.hasPlace s.core q) (gs1 : BitVec 5) :
    (qputBody q gs1).run.run s = (.error (.hold (.fullScalar q)), s) := by
  have stop := (M.run_until (s.core.writable (q + 6)) (.fullScalar q) s).trans (if_neg (full <| Core.writable_scalar_iff.mp ·))
  rw [qputBody, M.bind_ok (M.run_core s), M.bind_error stop]

theorem run_popScalar_entry (entry : Claim.hasEntry s.core q) :
    (popScalar q).run.run s = (.ok (s.core.scalar q).top, s.mapCore fun c => Claim.takeScalar c q) := by
  have pass := (M.run_until (s.core.readable (q + 6)) (.emptyScalar q) s).trans (if_pos (Core.readable_scalar_iff.mpr entry))
  rw [popScalar, M.bind_ok (M.run_core s), M.bind_ok pass, M.bind_ok (M.run_mapCore _ s), M.run_pure]
  simp only [Core.popScalar_eq_takeScalar]

theorem run_popScalar_empty (empty : ¬ Claim.hasEntry s.core q) :
    (popScalar q).run.run s = (.error (.hold (.emptyScalar q)), s) := by
  have stop := (M.run_until (s.core.readable (q + 6)) (.emptyScalar q) s).trans (if_neg (empty <| Core.readable_scalar_iff.mp ·))
  rw [popScalar, M.bind_ok (M.run_core s), M.bind_error stop]

end

/-! ### How a word ends -/

section
variable {i : Instr} {s t : State} {h : Hold}

/-- A word of S with no command before it untaken, at work for a job, goes on from what its computation makes of the state. -/
theorem untrapped_runOther_gone {body : M Ctl} (free : Claim.free s true) (run : body.run.run s = (.ok .next, t)) :
    untrapped i s (runOther i 0 body) = .next (Claim.gone t) := by
  obtain ⟨taken, job⟩ := free
  exact (untrapped_ok (job rfl)).trans (runOther_ok_zero taken run)

theorem untrapped_runOther_held {body : M Ctl} (free : Claim.free s true) (run : body.run.run s = (.error (.hold h), s)) :
    untrapped i s (runOther i 0 body) = .next (s.held .s h) := by
  obtain ⟨taken, job⟩ := free
  exact (untrapped_ok (job rfl)).trans (runOther_hold taken run)

/-- A word of X, M or V whose waits stand and whose computation holds. -/
theorem runWord_held {st : Stream} {sync : BitVec 4} {body : M Ctl} (start : Claim.mayStart s st sync)
    (order : st = .m → postBits sync ≠ 0 → s.core.steps = []) (run : body.run.run s = (.error (.hold h), t)) :
    runWord i st sync body s = .next (s.held st h) := by
  rw [runWord_stop start order, run, finishWord_hold]

end

/-! ### The words (R247, R298) -/

/-- R298: the three QPUT words differ in their queue alone. -/
theorem exec_of_qputBody {i : Instr} {s : State} {q : Nat} {gs1 : BitVec 5}
    (word : exec i s = untrapped i s (runOther i 0 (qputBody q gs1))) (free : Claim.free s true) :
    (Claim.hasPlace s.core q → exec i s = .next (Claim.gone (s.mapCore fun c => Claim.putScalar c q (c.readG gs1)))) ∧
    (¬ Claim.hasPlace s.core q → exec i s = .next (s.held .s (.fullScalar q))) := by
  rw [word]
  exact ⟨fun place => untrapped_runOther_gone free (run_qputBody_place place gs1),
    fun full => untrapped_runOther_held free (run_qputBody_full full gs1)⟩

theorem exec_qget_entry {s : State} (free : Claim.free s true) (entry : Claim.hasEntry s.core 1) (gd : BitVec 5) :
    exec (.qget gd) s = .next (Claim.gone (s.mapCore fun c => (Claim.takeScalar c 1).writeG gd (c.scalar 1).top)) := by
  rw [exec_qget, execQget, untrapped_runOther_gone free ((M.bind_ok (run_popScalar_entry entry)).trans
    (M.bind_ok (M.run_mapCore _ _))), State.mapCore_mapCore]
  rfl

theorem exec_qget_empty {s : State} (free : Claim.free s true) (empty : ¬ Claim.hasEntry s.core 1) (gd : BitVec 5) :
    exec (.qget gd) s = .next (s.held .s (.emptyScalar 1)) := by
  rw [exec_qget, execQget]
  exact untrapped_runOther_held free (M.bind_error (run_popScalar_empty empty))

theorem exec_xqget_entry {s : State} {sync : BitVec 4} (start : Claim.mayStart s .x sync) (entry : Claim.hasEntry s.core 3)
    (cd : BitVec 4) :
    exec (.xqget sync cd) s = .next (Claim.issued s .x sync
      (fun c => { Claim.takeScalar c 3 with cx := vset c.cx cd.toNat (c.scalar 3).top }) .next) := by
  rw [exec_xqget, execXqget]
  refine runWord_issued start ((M.bind_ok (run_popScalar_entry entry)).trans (M.bind_ok (M.run_mapCore _ _))) fun g => ?_
  rw [State.mapCore_mapCore, State.mapCore_mapCore]
  rfl

theorem exec_xqget_empty {s : State} {sync : BitVec 4} (start : Claim.mayStart s .x sync) (empty : ¬ Claim.hasEntry s.core 3)
    (cd : BitVec 4) : exec (.xqget sync cd) s = .next (s.held .x (.emptyScalar 3)) := by
  rw [exec_xqget, execXqget]
  exact runWord_held start nofun (M.bind_error (run_popScalar_empty empty))

/-! ### The statement -/

/-- Settles O20: each word puts or pops one scalar queue, and holds where the run of that put or pop does. -/
theorem scalarQueues : Obligations.ScalarQueues := by
  refine ⟨fun s a free => ⟨?qputV, ?qputM, ?qputX, ?qget, ?qgetEmpty⟩, fun s sync cd start => ⟨?xqget, ?xqgetEmpty⟩⟩
  case qputV => exact exec_of_qputBody (exec_qputV a s) free
  case qputM => exact exec_of_qputBody (exec_qputM a s) free
  case qputX => exact exec_of_qputBody (exec_qputX a s) free
  case qget => exact fun entry => exec_qget_entry free entry a
  case qgetEmpty => exact fun empty => exec_qget_empty free empty a
  case xqget => exact fun entry => exec_xqget_entry start entry cd
  case xqgetEmpty => exact fun empty => exec_xqget_empty start empty cd

end Sys2Proof.Machine
end
